-- ==== Sys2Proof/Word.lean ====
section
/-! DEFINITION. The word types of the XNL7 (00_scope.md R7): bytes and little-endian words. -/

namespace Sys2Proof

/-- One byte. -/
abbrev Byte := BitVec 8
/-- A 2 B field. -/
abbrev U16 := BitVec 16
/-- A 4 B field. -/
abbrev U32 := BitVec 32
/-- An 8 B field, a register or a handle. -/
abbrev U64 := BitVec 64
/-- A SHA-384 digest (13_partitions_keys.md R342, R360). -/
abbrev Digest := BitVec 384

/-- A sparse table keyed by number, sorted by key, no key twice; `Machine/Ops.lean` holds its operations. -/
abbrev Tbl (α : Type) := List (Nat × α)

end Sys2Proof
end

