-- ==== Sys2Proof/Syntax.lean ====
section
/-! DEFINITION. The commands of the block: one constructor of `Instr` for each of the 240 rows of
spec/opcode_table.json, and the types of their operands. -/

namespace Sys2Proof

/-- A descriptor as fetched (03_rings_doorbells.md Table 03.3), less its OPCODE byte, which the row names.
`body` holds bytes 16–63, byte 16 lowest. -/
structure Desc where
  flags  : Byte
  rsv    : U16
  tag    : U32
  target : U64
  body   : BitVec 384
  deriving DecidableEq, Repr

/-- A PCIe function of a host-role port (17_registers_connectors.md R443): PF0 of the port of L-die `port`,
or VF n, the function of partition n − 1. -/
inductive HostFn where
  | pf0 (port : Nat)
  | vf (n : Nat) (port : Nat)
  deriving DecidableEq, Repr

/-- Who makes a host access, and whether it arrived in an IDE stream with T = 1 (13 R357). -/
structure Access where
  fn  : HostFn
  tee : Bool
  deriving DecidableEq, Repr

/-- One image section COUNT and contents are not laid out by the manual (08 R211); these records carry what
each section fixes (Table 08.3). A core of CORE_MAP. -/
structure CoreEnt where
  pos     : Nat
  core    : Nat
  layers  : List Nat
  groups  : List Nat
  bgSlots : Nat
  deriving DecidableEq, Repr

/-- A group of the SEMAPHORES section. -/
structure GroupDef where
  home   : Nat
  first  : Nat
  count  : Nat
  init   : List Nat
  domain : Bool
  deriving DecidableEq, Repr

/-- A route of the ROUTES section: ordered pair of positions, port mask of the first hop, shares of DATA, REQ, RSP. -/
structure RouteDef where
  src   : Nat
  dst   : Nat
  ports : BitVec 32
  data  : Nat
  req   : Nat
  rsp   : Nat
  deriving DecidableEq, Repr

/-- A weight or escalation region of the WEIGHTS or ESCALATION section. -/
structure WeightDef where
  layer    : Nat
  shard    : Nat
  region   : U64
  replicas : List U64
  tiles    : Nat
  deriving DecidableEq, Repr

/-- What the sections of a placement image fix (08 Table 08.3). -/
structure Sections where
  devices    : List Nat
  chain      : Bool
  cores      : List CoreEnt
  groups     : List GroupDef
  routes     : List RouteDef
  weights    : List WeightDef
  escapes    : List (Nat × Nat)
  escalation : List WeightDef
  shards     : Nat
  pairings   : List (Nat × Nat)
  deriving DecidableEq, Repr

/-- Data that an opcode read from host memory (03 R457): the bytes received in order, and, when the read failed,
the failed address. For TILE_WRITE the bytes stand tile by tile, each payload before its header (log 52). `sect` and `rungs` carry
the contents of image sections and of rung images. -/
structure HostRead where
  bytes : List Byte
  fail  : Option U64
  sect  : Option Sections
  rungs : List (List Byte × Sections)
  deriving DecidableEq, Repr

/-- A slice record of one partition (13 Table 13.1). -/
structure SlicePart where
  p           : Nat
  cores       : List U64
  stackMask   : BitVec 12
  frames      : Nat
  ringFirst   : Nat
  ringCount   : Nat
  vecFirst    : Nat
  vecCount    : Nat
  localFirst  : Nat
  localCount  : Nat
  indexFirst  : Nat
  indexCount  : Nat
  reeds       : Nat
  pages       : Nat
  bankFirst   : Nat
  banks       : Nat
  shaperFirst : Nat
  shaperCount : Nat
  portMask    : BitVec 32
  weight      : Nat
  keyQuota    : Nat
  hostPorts   : BitVec 4
  deriving DecidableEq, Repr

/-- An entry of the system route table (11 R305, FAB_ROUTE_k). -/
structure RouteEnt where
  first : Nat
  last  : Nat
  ports : BitVec 32
  deriving DecidableEq, Repr

/-- The signed slice map (13 R342). `sigOk` bit k: it verifies against owner key k. -/
structure SliceMap where
  whole    : Bool
  deviceId : Nat
  chain    : Bool
  sizeM1   : Nat
  position : Nat
  hostRole : BitVec 4
  perStack : Nat
  lent     : Nat
  roles    : List (Nat × Nat)
  routes   : List RouteEnt
  parts    : List SlicePart
  mirrorB  : Nat
  sigOk    : BitVec 4
  digest   : Digest
  deriving DecidableEq, Repr

/-- A firmware image staged by FW_UPDATE_COMPONENT (17 Table 17.8). -/
structure FwImage where
  version : U32
  sec     : U16
  prod    : Bool
  sigOk   : Bool
  digest  : Digest
  deriving DecidableEq, Repr

/-- What FW_UPDATE_COMPONENT carries (17 R454). -/
inductive FwPayload where
  | firmware (f : FwImage)
  | sliceMap (m : SliceMap)
  deriving DecidableEq, Repr

/-- A DXL frame (11 Table 11.2): the header's fields, the payload, and the GCM tag of an encrypted frame. -/
structure Frame where
  type    : Byte
  chan    : Nat
  enc     : Bool
  shared  : Bool
  src     : Nat
  dst     : Nat
  master  : Nat
  status  : Byte
  sub     : Byte
  keyId   : U16
  keyGen  : U16
  tag     : U32
  addr    : U64
  epoch   : U32
  nonce   : U64
  payload : List Byte
  gtag    : BitVec 128
  deriving DecidableEq, Repr

/-- What a DIR frame names (11 R316–R318): transaction, parties, pages, PREPARE's deadline, status of an abort, handle that
the destination gives the object. -/
structure DirMsg where
  txn      : U32
  src      : Nat
  srcPart  : Nat
  dst      : Nat
  dstPart  : Nat
  anchor   : U64
  pages    : List U64
  deadline : Nat
  outcome  : Nat
  handle   : U64
  deriving DecidableEq, Repr

/-- Metadata of an OFFER (11 R316): a session's Tussock descriptor, the pool addresses of its page-table blocks and the page-table
entries and token history that the pool holds for it (log 34), or a region's attributes with the place and header of each tile. -/
inductive OfferObj where
  | session (desc : BitVec 512) (blocks : List U64) (ptes : List (Nat × BitVec 512)) (hist : List U32)
  | region (kind home peat : Nat) (keyId : U16) (weight isSealed : Bool) (tiles : List (U64 × BitVec 512))
  deriving DecidableEq, Repr

/-- An extent entry that a home sends (11 R307–R309): handle, grantee device and partition, place, SHARED, PARK, latency
class, the home's epoch, and whether it is not fenced. -/
structure ExtentInfo where
  handle : U64
  dev    : Nat
  part   : Nat
  space  : Nat
  base   : Nat
  pages  : Nat
  shared : Bool
  park   : Bool
  cls    : Nat
  epoch  : U32
  live   : Bool
  deriving DecidableEq, Repr

/-- A semaphore operation or reply travelling to or from a DOMAIN group's home (08 R229). -/
structure SemMsg where
  dev   : Nat
  part  : Nat
  sem   : Nat
  op    : Nat
  n     : Nat
  try_  : Bool
  tag   : U32
  value : Nat
  applied : Bool
  lost  : Bool
  deriving DecidableEq, Repr

/-- What the commit token lists (02 R37, 07 R197, R198, 08 R218, 14 R364). `switchTo`: digest of the incoming
image; `stop`: the active job leaves with no successor. -/
structure CommitToken where
  stamp    : U64
  switchTo : Option Digest
  stop     : Bool
  cut      : Bool
  clears   : List (Option Nat)
  levels   : List Nat
  deriving DecidableEq, Repr

/-- A delta record of the ledger (15 R389). Place 6 stands for OUTSIDE. -/
structure Delta where
  cls      : Nat
  inst     : Nat
  fromP    : Nat
  toP      : Nat
  amount   : Int
  step     : Nat
  part     : Nat
  deriving DecidableEq, Repr

/-- What a core has finished (08 R208, 06 R162, R167, R169–R172, 07 R194). Values are FP32 words. -/
inductive TileJob where
  /-- A weight product: tiles that the loader put into slots first (slot, region, tile), formats and slots of the weight and
  activation tiles, slot of the FP32 output tile, shape (outputs, activation rows, reduction length), escape columns with
  the slots of their weights and activations, and the session of each activation row. -/
  | product (layer : Nat) (loads : List (Nat × Nat × Nat)) (wfmt afmt w a o rows acts k : Nat)
      (esc : Option (Nat × Nat × Nat)) (entries : List Nat)
  /-- An attention job of an entry (R169): query rows, and the step's own K and V by position. -/
  | attention (loc layer head chunk : Nat) (q : List (List U32)) (own : List (Nat × List U32 × List U32))
  /-- A scatter of new rows of one layer and head group, from position `first` (R171); a row holds 2 × G × D values. -/
  | scatter (loc layer group : Nat) (first : Nat) (rows : List (List U32))
  /-- A job read a damaged T1 page (R172). -/
  | damaged (loc page : Nat)
  /-- A non-finite value in the row of an entry (07 R194). -/
  | nonfinite (loc layer : Nat)
  /-- A semaphore operation from the core's stream (08 R227): 1 ACQUIRE, 2 RELEASE, 3 READ. -/
  | semOp (sem op n : Nat)
  /-- A background job. -/
  | background
  deriving DecidableEq, Repr

/-- A sensor reading of the coolant loop (16 Table 16.5): 0.1 °C, 0.01 L/min signed, kPa, leak rope. -/
structure Coolant where
  inlet    : Nat
  outlet   : Nat
  flow     : Int
  pressure : Nat
  leak     : Bool
  deriving DecidableEq, Repr

/-- Which mailbox an SPDM or TDISP request came through (13 R359, 17 R451). -/
inductive Mailbox where
  | pf0
  | func (p : Nat)
  | mctp
  deriving DecidableEq, Repr

/-- Where the patrol scrub reads (15 R399, R400): a 64 B location of a T1 frame, a copy of a system area, a word of K-die SRAM with the
partition whose step data it holds, a word of a core's store. -/
inductive ScrubSite where
  | frame (n line : Nat)
  | area (n copy : Nat)
  | sram (word : Nat) (part : Option Nat)
  | core (n word : Nat)
  deriving DecidableEq, Repr

/-- What the scrub found: nothing, a corrected error, an uncorrectable error. -/
inductive EccResult where
  | clean
  | corrected
  | uncorrectable
  deriving DecidableEq, Repr

/-- A unit that a closing test tested (15 Table 15.8): overlay KIND and UNIT. -/
structure TestUnit where
  kind : Nat
  unit : Nat
  deriving DecidableEq, Repr

/-- What a closing self-test phase found (15 R402–R404). -/
structure PhaseResult where
  readbackZero : Bool
  failed       : List TestUnit
  passed       : List TestUnit
  ms           : Nat
  deriving DecidableEq, Repr

/-- What the start phases found (15 R409, R410): K-die engine, SRAM and reference results, Puppeteer cores usable. -/
structure StartResult where
  engineOk  : Bool
  sramOk    : Bool
  refOk     : Bool
  puppeteer : Nat
  deriving DecidableEq, Repr

/-- The input conditions of 16 R417. -/
inductive InputEvent where
  | voltage (mv : Nat)
  | currentTrip
  deriving DecidableEq, Repr

/-- The coolant conditions of 16 Table 16.6 that act after a time. -/
inductive CoolantCond where
  | inletHigh
  | flowLow
  deriving DecidableEq, Repr

/-- What makes a TDI enter ERROR (13 Table 13.6). -/
inductive TdiTrigger where
  | forbiddenWrite
  | access
  | integrity
  | linkDown
  deriving DecidableEq, Repr

/-- What loses the host (11 R313). -/
inductive HostLoss where
  | linkDown
  | reset
  deriving DecidableEq, Repr

/-- A probe of a switch or of a checkpoint (08 R218, 14 R364): what the cut needs to know of CKPT_START goes with it (log 40). -/
inductive Probe where
  | job (image : Digest)
  | ckpt (region : U64) (id mode peat : Nat) (extra : List U64)
  deriving DecidableEq, Repr

/-- Training result of a DXL port (11 R294): peer, good lane pairs, delay. -/
structure Training where
  peerDev  : Nat
  peerPort : Nat
  family   : Nat
  pairs    : BitVec 4
  delay    : Nat
  deriving DecidableEq, Repr

/-- The commands, in the table's order; each docstring names the row. An opcode row takes the ring that carries the
descriptor and the descriptor (log 14). -/
inductive Instr where
  /-- REGISTER_WRITE (R8) -/
  | registerWrite (a : Access) (offset size : Nat) (value : U64)
  /-- RNG_WAKE (R55) -/
  | rngWake (a : Access) (p : Nat)
  /-- RNG_DB_BASE_WRITE (R51) -/
  | rngDbBaseWrite (a : Access) (p : Nat) (value : U64)
  /-- RNG_ADMIN_RING_WRITE (R51) -/
  | rngAdminRingWrite (a : Access) (p : Nat) (cq : Bool) (value : U64)
  /-- RNG_ERRLOG_WRITE (R456) -/
  | rngErrlogWrite (a : Access) (p : Nat) (value : U64)
  /-- RNG_TELEM_WRITE (R456) -/
  | rngTelemWrite (a : Access) (p : Nat) (value : U64)
  /-- ESC_CLEAR_LAYER (R198) -/
  | escClearLayer (a : Access) (p : Nat) (layer : Byte)
  /-- ESC_CLEAR_ALL (R198) -/
  | escClearAll (a : Access) (p : Nat)
  /-- SHUTDOWN (R433) -/
  | shutdown (a : Access) (key : Byte)
  /-- RESTART (R433) -/
  | restart (a : Access) (key : Byte)
  /-- BEAT_RATE_READ (R30) -/
  | beatRateRead (a : Access) (d : Nat)
  /-- PWR_THERMAL_READ (R438) -/
  | pwrThermalRead (a : Access)
  /-- SCAN_TIMER_EXPIRY (R55) -/
  | scanTimerExpiry (p : Nat)
  /-- DOORBELL_RECORD_ARRIVAL (R56) -/
  | doorbellRecordArrival (p rec : Nat) (data : Option (BitVec 512))
  /-- DESCRIPTOR_ARRIVAL (R57) -/
  | descriptorArrival (ring : Nat) (data : Option (BitVec 512))
  /-- ERRLOG_BUFFER_DRAIN (R72) -/
  | errlogBufferDrain (p : Nat)
  /-- HOST_READ_DATA_ARRIVAL (R457) -/
  | hostReadDataArrival (id : Nat) (data : HostRead)
  /-- IRQ_MOD_COUNT_REACHED (R73) -/
  | irqModCountReached (vec : Nat)
  /-- IRQ_MOD_TIMER_EXPIRY (R73) -/
  | irqModTimerExpiry (vec : Nat)
  /-- NOP (R63) -/
  | nop (ring : Nat) (d : Desc)
  /-- RING_CREATE (R63) -/
  | ringCreate (ring : Nat) (d : Desc)
  /-- RING_DESTROY (R63) -/
  | ringDestroy (ring : Nat) (d : Desc)
  /-- RING_RESET (R63) -/
  | ringReset (ring : Nat) (d : Desc)
  /-- IRQ_CFG (R63) -/
  | irqCfg (ring : Nat) (d : Desc)
  /-- TELEM_CFG (R63) -/
  | telemCfg (ring : Nat) (d : Desc)
  /-- STATE_READ (R64) -/
  | stateRead (ring : Nat) (d : Desc)
  /-- SESSION_OPEN (R95) -/
  | sessionOpen (ring : Nat) (d : Desc)
  /-- APPEND (R98) -/
  | append (ring : Nat) (d : Desc)
  /-- STEP_REQUEST (R98) -/
  | stepRequest (ring : Nat) (d : Desc)
  /-- TOOL_WAIT (R97) -/
  | toolWait (ring : Nat) (d : Desc)
  /-- PARK (R101) -/
  | park (ring : Nat) (d : Desc)
  /-- REVIVE (R461) -/
  | revive (ring : Nat) (d : Desc)
  /-- CLOSE (R93) -/
  | close (ring : Nat) (d : Desc)
  /-- REGION_CREATE (R134) -/
  | regionCreate (ring : Nat) (d : Desc)
  /-- REGION_DESTROY (R134) -/
  | regionDestroy (ring : Nat) (d : Desc)
  /-- REGION_ATTR (R134) -/
  | regionAttr (ring : Nat) (d : Desc)
  /-- REGION_FLUSH (R134) -/
  | regionFlush (ring : Nat) (d : Desc)
  /-- REGION_MOVE (R130) -/
  | regionMove (ring : Nat) (d : Desc)
  /-- TILE_WRITE (R134) -/
  | tileWrite (ring : Nat) (d : Desc)
  /-- TILE_READ (R134) -/
  | tileRead (ring : Nat) (d : Desc)
  /-- REPLICA_SET (R136) -/
  | replicaSet (ring : Nat) (d : Desc)
  /-- REPLICA_REBUILD (R138) -/
  | replicaRebuild (ring : Nat) (d : Desc)
  /-- BG_COPY (R148) -/
  | bgCopy (ring : Nat) (d : Desc)
  /-- PT_SHARE (R165) -/
  | ptShare (ring : Nat) (d : Desc)
  /-- PT_TRUNCATE (R175) -/
  | ptTruncate (ring : Nat) (d : Desc)
  /-- KV_DROP (R174) -/
  | kvDrop (ring : Nat) (d : Desc)
  /-- IMAGE_LOAD (R212) -/
  | imageLoad (ring : Nat) (d : Desc)
  /-- JOB_SWITCH (R218) -/
  | jobSwitch (ring : Nat) (d : Desc)
  /-- JOB_UNLOAD (R234) -/
  | jobUnload (ring : Nat) (d : Desc)
  /-- SEM_GROUP_CREATE (R226) -/
  | semGroupCreate (ring : Nat) (d : Desc)
  /-- SEM_GROUP_DESTROY (R234) -/
  | semGroupDestroy (ring : Nat) (d : Desc)
  /-- SEM_OP (R227) -/
  | semOp (ring : Nat) (d : Desc)
  /-- TOK_BIND (R250) -/
  | tokBind (ring : Nat) (d : Desc)
  /-- VOCAB_LOAD (R238) -/
  | vocabLoad (ring : Nat) (d : Desc)
  /-- CLASS_SET (R262) -/
  | classSet (ring : Nat) (d : Desc)
  /-- PROFILE_SET (R262) -/
  | profileSet (ring : Nat) (d : Desc)
  /-- LIST_LOAD (R262) -/
  | listLoad (ring : Nat) (d : Desc)
  /-- LISTSET_DEFINE (R262) -/
  | listsetDefine (ring : Nat) (d : Desc)
  /-- LIST_FREE (R262) -/
  | listFree (ring : Nat) (d : Desc)
  /-- TOK_SEED (R262) -/
  | tokSeed (ring : Nat) (d : Desc)
  /-- INDEX_CREATE (R271) -/
  | indexCreate (ring : Nat) (d : Desc)
  /-- INDEX_DESTROY (R287) -/
  | indexDestroy (ring : Nat) (d : Desc)
  /-- VEC_INSERT (R274) -/
  | vecInsert (ring : Nat) (d : Desc)
  /-- VEC_DELETE (R276) -/
  | vecDelete (ring : Nat) (d : Desc)
  /-- VEC_QUERY (R278) -/
  | vecQuery (ring : Nat) (d : Desc)
  /-- INDEX_MERGE (R282) -/
  | indexMerge (ring : Nat) (d : Desc)
  /-- INDEX_STAT (R286) -/
  | indexStat (ring : Nat) (d : Desc)
  /-- QUERY_REED_ASSIGN (R284) -/
  | queryReedAssign (p : Nat)
  /-- MERGE_START (R282) -/
  | mergeStart (idx : Nat)
  /-- MERGE_COMMIT (R283) -/
  | mergeCommit (idx : Nat)
  /-- EXTENT_REQUEST (R308) -/
  | extentRequest (ring : Nat) (d : Desc)
  /-- EXTENT_RETURN (R321) -/
  | extentReturn (ring : Nat) (d : Desc)
  /-- EXTENT_REVOKE (R314) -/
  | extentRevoke (ring : Nat) (d : Desc)
  /-- POOL_FLUSH (R313) -/
  | poolFlush (ring : Nat) (d : Desc)
  /-- POOL_PAGE_WRITE (R313) -/
  | poolPageWrite (ring : Nat) (d : Desc)
  /-- POOL_PAGE_READ (R321) -/
  | poolPageRead (ring : Nat) (d : Desc)
  /-- OWN_OFFER (R315) -/
  | ownOffer (ring : Nat) (d : Desc)
  /-- OWN_ACCEPT (R317) -/
  | ownAccept (ring : Nat) (d : Desc)
  /-- OWN_RESOLVE (R318) -/
  | ownResolve (ring : Nat) (d : Desc)
  /-- SHAPER_SET (R332) -/
  | shaperSet (ring : Nat) (d : Desc)
  /-- SHAPER_CLEAR (R332) -/
  | shaperClear (ring : Nat) (d : Desc)
  /-- POLICER_SET (R332) -/
  | policerSet (ring : Nat) (d : Desc)
  /-- POLICER_CLEAR (R332) -/
  | policerClear (ring : Nat) (d : Desc)
  /-- SHAPER_ELIGIBLE (R330) -/
  | shaperEligible (shaper : Nat)
  /-- KEY_INSTALL (R351) -/
  | keyInstall (ring : Nat) (d : Desc)
  /-- KEY_ACTIVATE (R351) -/
  | keyActivate (ring : Nat) (d : Desc)
  /-- KEY_RETIRE (R354) -/
  | keyRetire (ring : Nat) (d : Desc)
  /-- TENANT_REMOVE (R354) -/
  | tenantRemove (ring : Nat) (d : Desc)
  /-- ACL_READ (R361) -/
  | aclRead (ring : Nat) (d : Desc)
  /-- KEY_DRAIN_COMPLETE (R354) -/
  | keyDrainComplete (p : Nat) (keyId gen : U16)
  /-- KEY_DRAIN_TIMEOUT (R354) -/
  | keyDrainTimeout (p : Nat) (keyId gen : U16)
  /-- CKPT_START (R364) -/
  | ckptStart (ring : Nat) (d : Desc)
  /-- CKPT_RELEASE (R367) -/
  | ckptRelease (ring : Nat) (d : Desc)
  /-- CKPT_RESTORE (R381) -/
  | ckptRestore (ring : Nat) (d : Desc)
  /-- MANIFEST_SEAL (R383) -/
  | manifestSeal (ring : Nat) (d : Desc)
  /-- SHARD_REPORT (R372) -/
  | shardReport (p pos : Nat) (sessions : Nat) (length : Nat) (addr : U64) (keyId : U16) (digest : Digest)
  /-- HOLDUP_WAIT_EXPIRY (R373) -/
  | holdupWaitExpiry (p : Nat)
  /-- MANIFEST_WRITE_DONE (R372) -/
  | manifestWriteDone (p : Nat)
  /-- LOG_READ (R412) -/
  | logRead (ring : Nat) (d : Desc)
  /-- PART_RESET (R397) -/
  | partReset (ring : Nat) (d : Desc)
  /-- FAULT_INJECT (R412) -/
  | faultInject (ring : Nat) (d : Desc)
  /-- OVERLAY_READ (R412) -/
  | overlayRead (ring : Nat) (d : Desc)
  /-- LEDGER_DELTA (R389) -/
  | ledgerDelta (r : Delta)
  /-- LOCAL_SAFE_POINT (R36) -/
  | localSafePoint (p : Nat)
  /-- SAFE_REPORT (R37) -/
  | safeReport (p pos : Nat) (failed : Bool) (escalate : List Nat)
  /-- STEP_SYNC_EDGE (R40) -/
  | stepSyncEdge
  /-- STEP_MARK_TOKEN (R40) -/
  | stepMarkToken (port : Nat)
  /-- SYNC_WINDOW_EXPIRY (R42) -/
  | syncWindowExpiry (p : Nat)
  /-- STEP_SYNC_STUCK_COUNT (R411) -/
  | stepSyncStuckCount (p : Nat)
  /-- IDLE_BOUNDARY_TIMER (R39) -/
  | idleBoundaryTimer (p : Nat)
  /-- COMMIT_TOKEN (R37) -/
  | commitToken (p : Nat) (t : CommitToken)
  /-- LINK_CREDIT_DRAINED (R224) -/
  | linkCreditDrained (p : Nat)
  /-- DRAIN_TIMEOUT (R224) -/
  | drainTimeout (p : Nat) (short : List (Nat × Nat))
  /-- RETRY_TOKEN (R138) -/
  | retryToken (p : Nat)
  /-- REBUILD_TIMEOUT (R139) -/
  | rebuildTimeout (p : Nat)
  /-- PEER_LOSS_TIMEOUT (R46) -/
  | peerLossTimeout (p pos : Nat)
  /-- SHRINK_TOKEN (R377) -/
  | shrinkToken (p : Nat) (lost : List Nat)
  /-- SWITCH_PROBE (R218) -/
  | switchProbe (p src : Nat) (probe : Probe)
  /-- PROBE_ANSWER (R218) -/
  | probeAnswer (p pos : Nat) (holds : Bool)
  /-- SWITCH_PROBE_TIMEOUT (R218) -/
  | switchProbeTimeout (p : Nat)
  /-- LAYER_FINISHED (R140) -/
  | layerFinished (p layer : Nat)
  /-- WINDOW_SLOT_FILLED (R140) -/
  | windowSlotFilled (p slot : Nat)
  /-- CORE_TILE_JOB_DONE (R208) -/
  | coreTileJobDone (core : Nat) (job : TileJob)
  /-- SHADOW_SAMPLE_SELECT (R195) -/
  | shadowSampleSelect (p layer core : Nat)
  /-- SHADOW_JOB_DONE (R195) -/
  | shadowJobDone (p layer : Nat) (y ref : List U32)
  /-- CONSEC_SAMPLES_EXCEEDED (R197) -/
  | consecSamplesExceeded (p layer : Nat)
  /-- RECOMPUTE_JOB_DONE (R109) -/
  | recomputeJobDone (loc range depth : Nat) (pages : List (Nat × List Byte)) (ns : Nat) (historyOk : Bool)
  /-- LOGITS_SHARD_ARRIVAL (R252) -/
  | logitsShardArrival (loc shard : Nat) (z : List U32)
  /-- REVIVAL_START (R105) -/
  | revivalStart (loc : Nat)
  /-- PEAT_DECODE_DONE (R106) -/
  | peatDecodeDone (loc page : Nat)
  /-- PARK_WRITES_START (R114) -/
  | parkWritesStart (loc : Nat)
  /-- DEMOTION_TIMER (R117) -/
  | demotionTimer (loc : Nat)
  /-- MIRROR (R112) -/
  | mirror (f : Frame) (descs : List (BitVec 512))
  /-- MIRROR_ACK (R112) -/
  | mirrorAck (p : Nat)
  /-- MIRROR_ACK_TIMEOUT (R113) -/
  | mirrorAckTimeout (p : Nat)
  /-- DATA_FLIT (R303) -/
  | dataFlit (port : Nat) (flit : BitVec 2048)
  /-- NAK (R303) -/
  | nak (port : Nat) (seq : BitVec 12)
  /-- ACK_TIMER (R303) -/
  | ackTimer (port : Nat)
  /-- PORT_RETRAIN_START (R303) -/
  | portRetrainStart (port : Nat)
  /-- PORT_RETRAIN_DONE (R303) -/
  | portRetrainDone (port : Nat) (ok : Bool)
  /-- PORT_TRAINING_DONE (R294) -/
  | portTrainingDone (port : Nat) (r : Training)
  /-- READ (R297) -/
  | read (f : Frame)
  /-- READ_DATA (R297) -/
  | readData (f : Frame)
  /-- WRITE (R297) -/
  | write (f : Frame)
  /-- NONCE_THRESHOLD (R352) -/
  | nonceThreshold (p : Nat) (keyId gen : U16)
  /-- WRITE_ACK (R297) -/
  | writeAck (f : Frame)
  /-- CXL_MEM_RESPONSE (R310) -/
  | cxlMemResponse (tag : U32) (poison : Bool) (data : List Byte)
  /-- TILE (R297) -/
  | tile (f : Frame)
  /-- ERROR_RESPONSE (R298) -/
  | errorResponse (f : Frame) (e : Option ExtentInfo)
  /-- STALE_MAP_RETRY_LIMIT (R309) -/
  | staleMapRetryLimit (tag : U32)
  /-- REQUEST_TIMEOUT (R298) -/
  | requestTimeout (tag : U32)
  /-- SEMAPHORE_OPERATION (R229) -/
  | semaphoreOperation (m : SemMsg)
  /-- SEMAPHORE_REPLY (R229) -/
  | semaphoreReply (m : SemMsg)
  /-- PREPARE (R316) -/
  | prepare (m : DirMsg)
  /-- PREPARED (R316) -/
  | prepared (m : DirMsg) (ok : Bool)
  /-- OFFER (R317) -/
  | offer (m : DirMsg) (o : OfferObj)
  /-- COMMIT (R316) -/
  | commit (m : DirMsg)
  /-- COMMITTED (R316) -/
  | committed (m : DirMsg) (handle : U64)
  /-- ABORT (R317) -/
  | abort (m : DirMsg)
  /-- QUERY (R318) -/
  | query (m : DirMsg)
  /-- MAP_UPDATE (R309) -/
  | mapUpdate (home : Nat) (e : ExtentInfo)
  /-- POISON (R313) -/
  | poison (src : Nat) (pages : List U64)
  /-- REVOKE (R314) -/
  | revoke (home : Nat) (extent : U64)
  /-- REVOKE_ACK (R314) -/
  | revokeAck (dev : Nat) (extent : U64)
  /-- REVOKE_ACK_TIMEOUT (R314) -/
  | revokeAckTimeout (extent : U64)
  /-- OWN_OFFER_TIMEOUT (R317) -/
  | ownOfferTimeout (txn : U32)
  /-- OFFER_HOLD_TIMEOUT (R317) -/
  | offerHoldTimeout (src : Nat) (txn : U32)
  /-- OWN_ACCEPT_TIMEOUT (R317) -/
  | ownAcceptTimeout (src : Nat) (txn : U32)
  /-- PENDING_PAGE_DEADLINE (R318) -/
  | pendingPageDeadline (page : U64)
  /-- HOST_LINE_ACCESS (R312) -/
  | hostLineAccess (a : Access) (window offset : Nat) (write : Option (List Byte))
  /-- HOST_LINK_LOST (R313) -/
  | hostLinkLost (port : Nat) (why : HostLoss)
  /-- FUNCTION_LEVEL_RESET (R444) -/
  | functionLevelReset (fn : HostFn)
  /-- DCD_CAPACITY_ADD (R310) -/
  | dcdCapacityAdd (space base pages : Nat)
  /-- DCD_CAPACITY_RELEASE (R310) -/
  | dcdCapacityRelease (space base pages : Nat)
  /-- SLUICE_WINDOW_CLOSE (R333) -/
  | sluiceWindowClose
  /-- DEPTH_SAMPLE (R334) -/
  | depthSample
  /-- BEAT_SENSOR_WINDOW (R30) -/
  | beatSensorWindow (d : Nat) (rate : U16)
  /-- PATROL_SCRUB_TICK (R400) -/
  | patrolScrubTick (site : ScrubSite) (r : EccResult)
  /-- FRAME_RETIRE (R400) -/
  | frameRetire (frame : Nat)
  /-- GET_VERSION (R359) -/
  | getVersion (mb : Mailbox)
  /-- GET_CAPABILITIES (R359) -/
  | getCapabilities (mb : Mailbox)
  /-- NEGOTIATE_ALGORITHMS (R359) -/
  | negotiateAlgorithms (mb : Mailbox)
  /-- GET_DIGESTS (R359) -/
  | getDigests (mb : Mailbox)
  /-- GET_CERTIFICATE (R359) -/
  | getCertificate (mb : Mailbox) (slot offset length : Nat)
  /-- CHALLENGE (R359) -/
  | challenge (mb : Mailbox) (slot : Nat) (nonce : BitVec 256)
  /-- GET_MEASUREMENTS (R360) -/
  | getMeasurements (mb : Mailbox) (index : Nat) (nonce : BitVec 256)
  /-- KEY_EXCHANGE (R359) -/
  | keyExchange (mb : Mailbox) (req : Nat) (owner : Bool)
  /-- FINISH (R359) -/
  | finish (mb : Mailbox) (sid : Nat)
  /-- HEARTBEAT (R359) -/
  | heartbeat (mb : Mailbox) (sid : Nat)
  /-- KEY_UPDATE (R359) -/
  | keyUpdate (mb : Mailbox) (sid : Nat)
  /-- END_SESSION (R359) -/
  | endSession (mb : Mailbox) (sid : Nat)
  /-- KEK_SET (R350) -/
  | kekSet (mb : Mailbox) (sid : Nat) (kek : BitVec 256)
  /-- IDE_KM (R357) -/
  | ideKm (mb : Mailbox) (sid port stream : Nat) (key : BitVec 256)
  /-- LOCK_INTERFACE_REQUEST (R357) -/
  | lockInterfaceRequest (p : Nat)
  /-- START_INTERFACE_REQUEST (R357) -/
  | startInterfaceRequest (p : Nat)
  /-- STOP_INTERFACE_REQUEST (R358) -/
  | stopInterfaceRequest (p : Nat)
  /-- SCRUB_COMPLETE (R358) -/
  | scrubComplete (p : Nat)
  /-- TDI_ERROR_TRIGGER (R357) -/
  | tdiErrorTrigger (p : Nat) (t : TdiTrigger)
  /-- SET_ENDPOINT_ID (R451) -/
  | setEndpointId (eid : Byte)
  /-- PLDM_GET_SENSOR_READING (R452) -/
  | pldmGetSensorReading (id : Nat)
  /-- PLDM_SET_POWER_CAP (R452) -/
  | pldmSetPowerCap (w : U16)
  /-- PLDM_FRU_READ (R452) -/
  | pldmFruRead
  /-- PLDM_SHUTDOWN (R453) -/
  | pldmShutdown (mode : Byte)
  /-- OVERLAY_OVERRIDE (R453) -/
  | overlayOverride (sid : Nat) (kind : Byte) (unit : U32) (action : Byte)
  /-- PLDM_LOG_READ (R453) -/
  | pldmLogRead (first : U32) (count : Byte)
  /-- GLB_READ (R453) -/
  | glbRead (offset : Nat)
  /-- FW_UPDATE_COMPONENT (R454) -/
  | fwUpdateComponent (c : FwPayload)
  /-- SENSOR_REFRESH_TICK (R452) -/
  | sensorRefreshTick
  /-- SMBUS_TIMEOUT (R411) -/
  | smbusTimeout
  /-- POWER_CONNECT (R432) -/
  | powerConnect (mv : Nat) (reversed : Bool)
  /-- STANDBY_RAILS_UP (R432) -/
  | standbyRailsUp
  /-- COOLANT_CHECK_TICK (R432) -/
  | coolantCheckTick (c : Coolant)
  /-- RESET_RELEASE (R432): bank voltage in 10 mV, ESR in 0.1 mΩ, capacitance in mF (R428) -/
  | resetRelease (bankV esr cap : Nat)
  /-- START_PHASES_DONE (R409) -/
  | startPhasesDone (r : StartResult)
  /-- POWER_LOOP_PERIOD (R422) -/
  | powerLoopPeriod (avgW : U16)
  /-- THERMAL_SAMPLE (R424) -/
  | thermalSample (dies hbms : List Nat)
  /-- THERMAL_TRIP_TIMEOUT (R424) -/
  | thermalTripTimeout (isStack : Bool) (unit : Nat)
  /-- COOLANT_SAMPLE (R427) -/
  | coolantSample (c : Coolant)
  /-- COOLANT_CONDITION_TIMEOUT (R427) -/
  | coolantConditionTimeout (c : CoolantCond)
  /-- COOLANT_REVERSED_TIMEOUT (R427) -/
  | coolantReversedTimeout
  /-- SENSOR_DISAGREE_TIMEOUT (R426): a sensor of Table 16.5: 0 inlet, 1 outlet, 2 flow, 3 pressure, 4 leak rope -/
  | sensorDisagreeTimeout (sensor : Nat)
  /-- LEAK_DETECT (R427) -/
  | leakDetect
  /-- HOLDUP_MEASURE (R428): bank voltage in 10 mV, usable energy in 0.1 J -/
  | holdupMeasure (bankV usable : U16)
  /-- INPUT_VOLTAGE_EVENT (R417) -/
  | inputVoltageEvent (e : InputEvent)
  /-- RAIL_FAULT (R417) -/
  | railFault (die : Nat)
  /-- PWR_BRAKE_ASSERT (R423) -/
  | pwrBrakeAssert
  /-- PWR_BRAKE_DEASSERT (R423) -/
  | pwrBrakeDeassert
  /-- MOD_RESET_RELEASE (R433) -/
  | modResetRelease (us : Nat)
  /-- MOD_RESET_HELD_5S (R434) -/
  | modResetHeld5s
  /-- WATCHDOG_TIMEOUT (R434) -/
  | watchdogTimeout
  /-- SHUTDOWN_STEP_TIMEOUT (R433) -/
  | shutdownStepTimeout
  /-- SNAPSHOT_CHARGE_TIMEOUT (R433) -/
  | snapshotChargeTimeout
  /-- DURABLE_COMMIT_DONE (R429): a commit of Table 16.7: 0 manifest, 1 overlay, 2 snapshot -/
  | durableCommitDone (kind : Nat)
  /-- SNAPSHOT_WRITE_DONE (R436) -/
  | snapshotWriteDone
  /-- SELFTEST_PHASE_DONE (R402) -/
  | selftestPhaseDone (r : PhaseResult)
  /-- IDLE_FLIT (R295) -/
  | idleFlit (port : Nat) (flit : BitVec 2048)
  /-- MSI_X_UNMASK (R73) -/
  | msiXUnmask (a : Access) (vec : Nat)
  /-- GET_DEVICE_INTERFACE_REPORT (R359) -/
  | getDeviceInterfaceReport (p : Nat)
  /-- OVERVOLTAGE_RESTART (R416) -/
  | overvoltageRestart (mv : Nat)
  /-- PCIE_LINK_UP (R411) -/
  | pcieLinkUp (port width : Nat) (bad : List Nat)
  deriving DecidableEq, Repr

end Sys2Proof
end

