-- ==== Sys2Proof/Decode.lean ====
section
/-! DEFINITION. Words. The table of commands gives no row any bits, so no word spells a command. A descriptor does have
an encoding (03_rings_doorbells.md Table 03.3): it is decoded and encoded here, and Machine/Rings.lean uses both. -/

namespace Sys2Proof

/-- The command that a word spells by the table's bits: none, since no row of the table has any. -/
def decodeTableWord (_nbits _w : Nat) : Option Instr := none

/-- OPCODE and the rest of a fetched descriptor's 64 bytes (03 Table 03.3). -/
def decodeDesc (w : BitVec 512) : Byte × Desc :=
  (w.extractLsb' 0 8,
   { flags := w.extractLsb' 8 8, rsv := w.extractLsb' 16 16, tag := w.extractLsb' 32 32,
     target := w.extractLsb' 64 64, body := w.extractLsb' 128 384 })

/-- The 64 bytes of a descriptor. -/
def encodeDesc (op : Byte) (d : Desc) : BitVec 512 :=
  d.body ++ d.target ++ d.tag ++ d.rsv ++ d.flags ++ op

end Sys2Proof
end

