-- ==== Sys2Proof/Config.lean ====
section
/-! DEFINITION. What the specification leaves open: free values and uninterpreted functions.
None has a body, so nothing can be proved of a value of one; a theorem holds whatever they are. -/

namespace Sys2Proof

/-- A free value of 64 bits, one for each value of the counter `free` of the state (log 8). -/
opaque Config.freeValue : Nat → BitVec 64
/-- Byte offset in HBM of T1 frame `n` (05_state_tiers_peat.md R458: the layout is not specified; log 9). -/
opaque Config.frameOffset : Nat → BitVec 48
/-- Byte offset in HBM of system area `n`: 0 Tussock table, 1 KVA count array, 2 frame-header array (R458; log 9). -/
opaque Config.areaOffset : Nat → BitVec 48
/-- Byte offset in HBM of a page-table structure of a session: local number, structure number (R458; log 9). -/
opaque Config.tableOffset : Nat → Nat → BitVec 48
/-- Whether the Tussock cache holds a descriptor (04_sessions_tussock_yoyo.md R87: the policy is not specified; log 10). -/
opaque Config.tussockHit : Nat → Bool

/-- Low byte of the fault code of a status that the manual gives no code for (03 R71; log 15). -/
opaque Config.faultLow : BitVec 8 → BitVec 8

/-- exp2 of an FP32 value (07_narrow_arithmetic.md R180: deterministic, precision not stated; log 11). -/
opaque Config.exp2 : BitVec 32 → BitVec 32
/-- FP32 reciprocal (R180; log 11). -/
opaque Config.recip : BitVec 32 → BitVec 32
/-- FP32 reciprocal square root (R180, 10_reed_vector_search.md R270; log 11). -/
opaque Config.rsqrt : BitVec 32 → BitVec 32

/-- Code lengths that the PEAT encoder picks for the symbols 0 to n − 1 of a stream (05 R145; log 12). -/
opaque Config.codeLengths : Nat → List Nat → List Nat

/-- BAN_STATE after a generation's tokens (09_token_engine.md Table 09.4: its encoding is not given; log 24). -/
opaque Config.banState : List Nat → BitVec 32
/-- Bytes of a compiled list: kind and records (09 R254, R262: its form is not given; log 24). -/
opaque Config.listImage : Nat → List (Nat × List Nat) → List Byte

/-- Bytes of the header tile of an index, from its parameters and state (10 R272: its form is not given; log 31). -/
opaque Config.reedHeader : List Nat → List Byte

/-- Hop count between two devices (11 R306): the roles and peers of every device's ports fix it, and their layout in the
slice map is not given (log 33). -/
opaque Config.hops : Nat → Nat → Nat

/-- Whether a device's port is the link that crosses its ring's dateline (11 R301; log 33). -/
opaque Config.dateline : Nat → Nat → Bool
/-- Whether the CDAT read latency of a page of an appliance space exceeds 5 µs: home, space, page (11 R310; log 33). -/
opaque Config.cdatSlow : Nat → Nat → Nat → Bool
/-- Core and tile slot that the ADDRESS of a TILE frame names (11 R297: its form is not given; log 35). -/
opaque Config.tileSlot : BitVec 64 → Nat × Nat
/-- The code of a generation state in KEY_INSTALL's RESULT (13 R362: not given; log 36). -/
opaque Config.keyStateCode : Nat → BitVec 64
/-- RD, WR and CTL bits that firmware gives a master in a target's access table: TARGET value, master ID (13 R346: the manual lists
them for some masters only; log 39). -/
opaque Config.aclKinds : Nat → Nat → BitVec 3

/-- SHA-384 (13 R342; log 7). -/
opaque Config.sha384 : List Byte → Digest
/-- HMAC-SHA-384 under a derived key (14_checkpoint_shrink.md R371; log 7). -/
opaque Config.hmac384 : BitVec 256 → List Byte → Digest
/-- AES Key Wrap unwrapping under a KEK (13 R349, RFC 3394); none when the integrity check fails (log 7). -/
opaque Config.aesUnwrap : BitVec 256 → BitVec 320 → Option (BitVec 256)
/-- AES-256-GCM tag of a frame: key, IV, header, payload (13 R352; log 7). -/
opaque Config.gcmTag : BitVec 256 → BitVec 96 → List Byte → List Byte → BitVec 128
/-- AES-256-GCM keystream byte: key, IV, index (13 R352; log 7). -/
opaque Config.gcmStream : BitVec 256 → BitVec 96 → Nat → Byte
/-- XTS-AES-256 encryption of a sector: key, tweak, bytes (13 R353; log 7). -/
opaque Config.xtsEncrypt : BitVec 256 → Nat → List Byte → List Byte
/-- XTS-AES-256 decryption of a sector (13 R353; log 7). -/
opaque Config.xtsDecrypt : BitVec 256 → Nat → List Byte → List Byte
/-- Key unwrapped at start for KEY_ID 0, the system key (13 R349; log 7). -/
opaque Config.systemKey : Nat → BitVec 256
/-- ECDSA P-384 signature that the device makes with key slot `k` over a digest (13 R359; log 7). -/
opaque Config.sign : Nat → Digest → BitVec 768
/-- Digest of certificate slot `k` (13 R359; log 7). -/
opaque Config.certDigest : Nat → Digest
/-- Bytes of certificate slot `k` (13 R359; log 7). -/
opaque Config.certChain : Nat → List Byte

/-- Time that the calibration job takes on C-die `d` in mode `m` at point `n`, ns (07 R202; log 13). -/
opaque Config.calNs : Nat → Nat → Nat → BitVec 16
/-- t_re seed of partition `p` at a depth, ns: how the calibration table seeds it is not stated (07 R202; log 23). -/
opaque Config.reSeed : Nat → Nat → BitVec 32
/-- The same seed scaled by the core time of the last step: partition, depth, STEP_NS (07 R202; log 23). -/
opaque Config.reScaled : Nat → Nat → Nat → BitVec 32
/-- Low 32 bits of the module serial number (17_registers_connectors.md R442; log 13). -/
opaque Config.serial : BitVec 32
/-- FRU record bytes (17 R442, R452; log 13). -/
opaque Config.fru : List Byte
/-- Digest of a partition's slice record: digest of the slice map, partition (13 R360: the record's bytes are not given; log 7). -/
opaque Config.recordDigest : Digest → Nat → Digest
/-- Digest of the boot ROM (13 R360; log 7). -/
opaque Config.bootRomDigest : Digest
/-- Worst measured ESR limit: 1.5 times the factory value, 0.1 mΩ (16_power_cooling_holdup.md R430; log 13). -/
opaque Config.esrLimit : Nat

end Sys2Proof
end

