-- ==== Sys2Proof/Machine/State.lean ====
section
/-! DEFINITION. The state of the block as plain data, block by block in the order of the manual's files; the reasons a
step can stop; and the state right after reset. A default value is the value right after reset. -/

namespace Sys2Proof.Machine

/-- No command of this block stops it with a fault: 03_rings_doorbells.md R69 answers every wrong request. -/
inductive Fault where
  deriving DecidableEq, Repr

/-- Why a command has no meaning. -/
inductive Refusal where
  /-- Raised by exec for a command that the model does not reach yet; safe: nothing is claimed of it. -/
  | notModelled (mnemonic : String)
  /-- Raised by a meaning whose operand lies outside the row's range (a partition above 7, a port above 31), which no
  row of the table spells; safe: nothing is claimed of it. -/
  | operandRange
  deriving DecidableEq, Repr

/-! ### Records that the device writes -/

/-- A completion (03 Table 03.7). -/
structure Completion where
  result   : U64
  time     : U64
  tag      : U32
  detail   : U32
  ring     : Nat
  sqHead   : Nat
  status   : Byte
  opcode   : Byte
  phase    : Bool
  final    : Bool
  logged   : Bool
  replaced : Nat
  deriving DecidableEq, Repr

/-- A fault record (03 Table 03.10), less its PHASE bit. -/
structure FaultRec where
  addr   : U64
  step   : U64
  time   : U64
  code   : Nat
  master : Nat
  target : Nat
  space  : Nat
  system : Bool
  part   : Nat
  comp   : Byte
  deriving DecidableEq, Repr

/-- A telemetry record (03 Table 03.13), less its PHASE bit. -/
structure TelemRec where
  step    : U64
  time    : U64
  payload : List Byte
  type    : Nat
  source  : Nat
  inst    : Nat
  seq     : U16
  part    : Nat
  deriving DecidableEq, Repr

/-! ### Clock and pins (00 R15, 02 R45; 17 Table 17.5) -/

/-- The timestamp counter and how much of a negative correction is still to be absorbed at half rate (02 R45). -/
structure Clock where
  now  : U64 := 0
  slew : Nat := 0
  deriving DecidableEq, Repr

/-- Levels of the sideband pins (17 Table 17.5). STEP_SYNC and STEP_MARK pulse within one command: between commands both are low. -/
structure Pins where
  stepSync  : Bool := false
  stepMark  : Bool := false
  modReady  : Bool := false
  modReset  : Bool := true
  pwrBrake  : Bool := true
  leakAlert : Bool := true
  smbAlert  : Bool := true
  deriving DecidableEq, Repr

/-! ### Rings, descriptors, interrupts (03) -/

/-- Ring states (03 Table 03.1). -/
inductive RingState where
  | disabled
  | active
  | error
  | draining
  deriving DecidableEq, Repr

/-- A ring number: its submission ring and, when cqLog2 is not 0, its completion ring (03 R48, Table 03.5, R53–R59).
`issued` counts descriptor reads sent and not yet answered. -/
structure Ring where
  st       : RingState := .disabled
  sqBase   : U64 := 0
  sqLog2   : Nat := 0
  cqBase   : U64 := 0
  cqLog2   : Nat := 0
  cqTarget : Nat := 0
  vector   : Nat := 0
  priority : Nat := 0
  policer  : Nat := 0xFFFF
  tail     : U32 := 0
  fetched  : U32 := 0
  issued   : Nat := 0
  cqHead   : U32 := 0
  written  : U32 := 0
  reserved : Nat := 0
  deriving DecidableEq, Repr

/-- What a descriptor whose opcode has been applied still waits for before its final completion. -/
inductive Wait where
  | hostRead
  | ringDown (ring : Nat)
  | boundary
  | boundaryRead
  | boundaryFlush
  | generation (loc : Nat)
  | tokenise (loc : Nat)
  | park (loc : Nat)
  | revive (loc : Nat)
  | close (loc : Nat)
  | requests (left : Nat)
  | tileHeld
  | copy (first : Nat) (count : Nat)
  | destroyed (region : Nat)
  | semaphore (sem : Nat)
  | switch
  | checkpoint
  | merge (index : Nat)
  | query (index : Nat)
  | mutation (index : Nat)
  | indexDown (index : Nat)
  | drain
  | extent (handle : U64)
  | lines (window : Nat) (tags pages : List Nat)
  | offer (txn : U32)
  | accept (src : Nat) (txn : U32)
  deriving DecidableEq, Repr

/-- Where a fetched descriptor stands (03 R57, R59, R61): arrived and held, started, or applied and waiting. -/
inductive DescState where
  | held
  | started
  | waiting (w : Wait)
  deriving DecidableEq, Repr

/-- A descriptor fetched and not completed (03 R57, R67, R79). The table of these is keyed by fetch number, so that
its order is the order of fetch. `silent`: a function-level reset discards its completion (17 R444); `data`: bytes read from
host memory or from a tile that the opcode has not used up yet; `failAt`: host address whose read failed (R457). -/
structure DescEntry where
  ring     : Nat
  part     : Nat
  addr     : U64
  op       : Byte
  d        : Desc
  st       : DescState := .held
  result   : U64 := 0
  detail   : U32 := 0
  status   : Byte := 0
  progress : Option (U64 × U32) := none
  replaced : Nat := 0
  silent   : Bool := false
  data     : List Byte := []
  failAt   : Option U64 := none
  deriving DecidableEq, Repr

/-- An interrupt vector (03 R73); the Mask bit of the PCIe MSI-X capability is 1 after reset (log 20). -/
structure Vec where
  count   : Nat := 0
  modCnt  : Nat := 1
  modTime : Nat := 0
  timer   : Bool := false
  mask    : Bool := true
  pend    : Bool := false
  deriving DecidableEq, Repr

/-- The error-log or telemetry ring of a partition (03 R72, R81); its base and size stand in its register. -/
structure LogRing where
  written : U32 := 0
  head    : U32 := 0
  stopped : Bool := false
  deriving DecidableEq, Repr

/-- Doorbell scanning, error log and telemetry of one partition (03 R55, R56, R72, R81, R82). -/
structure PartRing where
  scan     : List Nat := []
  pending  : Bool := false
  timer    : Bool := false
  errlog   : LogRing := {}
  buffer   : List FaultRec := []
  seen     : List Nat := []
  telem    : LogRing := {}
  typeMask : BitVec 256 := 0
  period   : Nat := 1
  seq      : U16 := 0
  deriving DecidableEq, Repr

structure Rings where
  ring  : Tbl Ring := []
  descs : Tbl DescEntry := []
  next  : Nat := 0
  vec   : Tbl Vec := []
  part  : Tbl PartRing := []
  deriving DecidableEq, Repr

/-! ### Steps (02) -/

/-- A completion that a boundary owes after its E12 (03 R77, 09 R261): descriptor, status, RESULT, DETAIL, final or progress. -/
structure Due where
  desc   : Nat
  st     : Byte
  result : U64
  detail : U32
  final  : Bool
  deriving DecidableEq, Repr

/-- Where a commit is suspended inside E6–E12: in the drain of E9, before E12 for the mirror peer, or at E12 under the
power cap (02 R37, 04 R112, 16 R422). -/
inductive CommitStage where
  | none
  | drain
  | mirror
  | power
  deriving DecidableEq, Repr

/-- The step of one partition (02 R36–R46, 07 R197, R198, 08 R218, 14 R364, R377). `number` is the number of the step
most recently released or being committed; `reports` the positions whose safe reports the root holds; `early`: an edge held for the
next ESP (R41); `late`: boundaries in a row that committed at the window's end (15 R411); `due`: what follows E12; `eccAt`: step
whose data an uncorrectable error damaged (15 R399); `noRung`: the job
halted because no rung fits a loss (14 R380); `lossHeld`: it is held until CKPT_RESTORE (14 R379). -/
structure StepP where
  number   : U64 := 0
  released : U64 := 0
  reports  : List Nat := []
  failed   : Bool := false
  esp      : Option U64 := none
  held     : Bool := false
  syncWait : Nat := 0
  stepNs   : Nat := 0
  escReq   : List Nat := []
  clears   : List (Option Nat) := []
  switchTo : Option (Option Nat) := none
  cut      : Bool := false
  stage    : CommitStage := .none
  token    : Option CommitToken := none
  early    : Bool := false
  late     : Nat := 0
  due      : List Due := []
  eccAt    : Option U64 := none
  noRung   : Bool := false
  lossHeld : Bool := false
  deriving DecidableEq, Repr

/-! ### Sessions (04) -/

/-- Session states (04 Table 04.3). -/
inductive SState where
  | free
  | idle
  | ready
  | resident
  | waiting
  | parking
  | parked
  | reviving
  | closing
  | faulted
  deriving DecidableEq, Repr

/-- An armed or awaited generation: the body of STEP_REQUEST or TOOL_WAIT (04 Table 04.5, R96, R97). -/
structure Gen where
  desc    : Nat
  tool    : Bool
  stream  : Bool
  profile : Nat
  listSet : Nat
  maxTok  : Nat
  outAddr : U64
  outSize : Nat
  park    : Bool
  depth   : Nat
  peat    : Nat
  deriving DecidableEq, Repr

/-- A page-table entry (06 Table 06.3). `tier`: 0 T1 frame `frame`, 1 T1 sector run, 2 T2, 3 T3. `data` holds the
stored bytes where they lie in T1, `off` the sector of a run within its frame. -/
structure Page where
  tier     : Nat := 0
  frame    : Nat := 0
  storedAt : U64 := 0
  off      : Nat := 0
  sectors  : Nat := 128
  form     : Nat := 0
  format   : Nat := 0
  rows     : Nat := 0
  gen      : Nat := 1
  digest   : U64 := 0
  crc      : U32 := 0
  keyId    : U16 := 0
  dropped  : Bool := false
  poison   : Bool := false
  data     : List Byte := []
  deriving DecidableEq, Repr

/-- A session slot: the Tussock descriptor (04 Table 04.2) and what the engines hold beside it. `hist` holds the token
history's entries, staged ones included, token in [19:0] and epoch in [31:20] (04 R88, 07 R199); `pages` the newest
version of the page table by page index, `pub` the published one while a step edits it (06 R155, R159); `heldFor` the
layer and level for which an entry is held (07 R194); `writing` the PTEs of pages whose writes below T1 are in flight,
`cursor` where the next run of a park goes, `blocks` the runs of page-table blocks below T1 (06 R157). -/
structure Session where
  gen       : Nat := 0
  st        : SState := .free
  depth     : Nat := 0
  pin       : Bool := false
  genArmed  : Bool := false
  waitArmed : Bool := false
  wake      : Bool := false
  linger    : Bool := false
  cls       : Nat := 0
  prio      : Nat := 0
  positions : Nat := 0
  ptRoot    : U64 := 0
  ptVersion : Nat := 0
  dropped   : Nat := 0
  keyId     : U16 := 0
  histAddr  : U64 := 0
  stateTime : U64 := 0
  staged    : Nat := 0
  memIndex  : U32 := 0xFFFFFFFF
  listSet   : Nat := 0xFFFF
  profile   : Nat := 0
  carry     : List Byte := []
  histReg   : Nat := 0
  hist      : List U32 := []
  armed     : Option Gen := none
  inBatch   : Bool := false
  fromIdle  : Bool := false
  heldStep  : Bool := false
  heldFor   : Option (Nat × Nat) := none
  ended     : Bool := false
  wanted    : Nat := 0
  fetching  : List Nat := []
  writing   : Tbl Page := []
  cursor    : Option (U64 × Nat) := none
  blocks    : List U64 := []
  parkTier  : Nat := 0
  parkPeat  : Nat := 0
  leftInT1  : Nat := 0
  recount   : Nat := 0
  reviveAll : Bool := false
  lossHold  : Bool := false
  pages     : Tbl Page := []
  pub       : Option (Tbl Page) := none
  tables    : Nat := 0
  deriving DecidableEq, Repr

/-- Numbers of one kind in the order a partition takes them: never used ones ascending, then freed ones in the order
they were freed (04 R85). -/
structure Numbers where
  fresh : Nat := 0
  freed : List Nat := []
  deriving DecidableEq, Repr

/-- Sessions of the device, the free slots of each partition, mean recompute times (04 R107) and the mirror (04
R111–R113): records held for a peer by partition, partitions whose acknowledgement is awaited, records sent by local number; `base`: generation
of a slot that has no entry (16 R436). -/
structure Sessions where
  slot    : Tbl Session := []
  numbers : Tbl Numbers := []
  tRe     : Tbl (List (Nat × Nat)) := []
  mirror  : Tbl (List (BitVec 512)) := []
  awaited : List Nat := []
  sent    : Tbl (BitVec 512) := []
  base    : Nat := 0
  deriving DecidableEq, Repr

/-! ### Tiers, regions, frames (05) -/

/-- A tile of a region: its header (05 Table 05.2) and payload. `owner` is the session whose history the tile holds, or 0 for the
region; `tier` is the home's (1 T1, 2 T2, 3 T3); `data` the RAW
payload of a T1 home; `cache` the T1 copy of a WBACK tile with its DIRTY flag; `gen` 0: never written; `bad`: status that
every reader gets (05 R133), 0 for none. -/
structure Tile where
  format   : Nat := 0
  form     : Nat := 0
  kind     : Nat := 0
  sectors  : Nat := 128
  layout   : Nat := 0
  validRows : Nat := 0
  rows     : Nat := 0
  cols     : Nat := 0
  index    : U32 := 0
  gen      : Nat := 0
  digest   : U64 := 0
  crc      : U32 := 0
  owner    : U64 := 0
  firstPos : Nat := 0
  storedAt : U64 := 0
  keyId    : U16 := 0
  tier     : Nat := 1
  data     : List Byte := []
  cache    : Option (List Byte × Bool) := none
  bad      : Byte := 0
  protect  : Bool := false
  restarts : Nat := 0
  deriving DecidableEq, Repr

/-- A region (05 Table 05.4). `bound` says which engine alone may write it (10 R271, 09 R250, R262, 14 R369); `offered`: fenced by a hand-over (11 R315). -/
structure Region where
  gen      : Nat
  part     : Nat
  tiles    : Nat
  homeTier : Nat
  wback    : Bool
  kind     : Nat
  peat     : Nat
  keyId    : U16
  weight   : Bool
  isSealed : Bool := false
  pin      : Bool
  replicas : List U64 := []
  extent   : U64
  bound    : Bool := false
  offered  : Bool := false
  tile     : Tbl Tile := []
  deriving DecidableEq, Repr

/-- T1 frames of one partition by place (15 Table 15.1 class 0x0); `freeing` become FREE at the next E8. -/
structure Frames where
  free     : Nat := 0
  kv       : Nat := 0
  region   : Nat := 0
  system   : Nat := 0
  reserved : Nat := 0
  retired  : Nat := 0
  freeKv     : Nat := 0
  freeRegion : Nat := 0
  freeMeta   : Nat := 0
  deriving DecidableEq, Repr

/-- A background copy or checkpoint copy (05 R148, R149): source and destination regions, tiles left, those protected
and not copied. -/
structure Copy where
  desc    : Nat
  src     : Nat
  dest    : Nat
  left    : List Nat
  flying  : List Nat := []
  started : Bool := false
  step    : U64 := 0
  copies  : Nat := 0
  deriving DecidableEq, Repr

/-- A switch that waits for its first layers (08 R217, J7): descriptor, FIRST_LAYERS, start of E9, credits re-issued, step
number of its boundary. -/
structure Filling where
  desc     : Option Nat
  first    : Nat
  since    : U64
  reissued : Nat
  step     : U64
  deriving DecidableEq, Repr

/-- The layer window of one partition and its degraded weight tiles (05 R137–R140): layer in each slot; slots and layers that
are due, and whose fetches have been issued; frames that the window has and frames of one slot. -/
structure Window where
  holds    : Tbl Nat := []
  wanted   : List (Nat × Nat) := []
  asked    : List (Nat × Nat) := []
  frames   : Nat := 0
  each     : Nat := 0
  filling  : Option Filling := none
  degraded : List (Nat × Nat) := []
  failed   : Bool := false
  deriving DecidableEq, Repr

structure Tier where
  region  : Tbl Region := []
  numbers : Tbl Numbers := []
  frames  : Tbl Frames := []
  copy    : List Copy := []
  staged  : List (Nat × Nat) := []
  window  : Tbl Window := []
  nextFrame : Nat := 0
  gens    : Tbl Nat := []
  deriving DecidableEq, Repr

/-! ### KV (06) -/

/-- Partial statistics of a query row (06 R170): maximum, sum and weighted values. -/
structure RowStat where
  m : U32
  s : U32
  o : List U32
  deriving DecidableEq, Repr

/-- The partial statistics of one job: layer, head, chunk, core, one RowStat for each query row. -/
structure PartStat where
  layer : Nat
  head  : Nat
  chunk : Nat
  core  : Nat
  rows  : List RowStat
  deriving DecidableEq, Repr

/-- An entry of the length table (06 Table 06.5). `scattered`: layers whose rows are written; `logits`: shards in. -/
structure LenEntry where
  loc      : Nat
  ctx      : Nat
  new      : Nat
  version  : Nat
  root     : U64
  sample   : Bool
  linger   : Bool
  held     : Bool
  repeats  : Bool
  frames   : Nat
  scattered : List (Nat × Nat) := []
  shards   : Tbl (List U32) := []
  parts    : List PartStat := []
  tokens   : List U32 := []
  deriving DecidableEq, Repr

/-- The count array by frame (06 R163), frames whose count reached 0 since the last E8 with their partition (06 R164),
POISONED frames, frames whose memory is uncorrectable (15 R399), stored runs that are freed at the next E8 (partition, address, sectors),
and the length table of each partition's step. -/
structure Kva where
  count   : Tbl Nat := []
  zeroed  : Tbl Nat := []
  poison  : List Nat := []
  bad     : List Nat := []
  runs    : List (Nat × U64 × Nat) := []
  len     : Tbl (List LenEntry) := []
  deriving DecidableEq, Repr

/-! ### Narrow arithmetic (07) -/

/-- One layer of a partition's model (07 R191, R195–R197). -/
structure Layer where
  level   : Nat := 0
  top     : Nat := 1
  run     : Nat := 0
  jobs    : Nat := 0
  sat     : Nat := 0
  samples : Nat := 0
  skipped : Nat := 0
  err     : Nat := 0
  shadow  : Nat := 0
  deriving DecidableEq, Repr

/-- Arithmetic safeguards of one partition: layers, level vectors of every epoch (07 R199), ESC_EPOCH, and steps
since the model was loaded (07 R202). -/
structure AriP where
  layer : Tbl Layer := []
  epoch : Nat := 0
  steps : Nat := 0
  vecs  : List (List Nat) := []
  deriving DecidableEq, Repr

/-! ### Cores, jobs, semaphores (08) -/

/-- Tile slots of a core and what it runs (08 R205–R208): 48 slots by number, jobs done, saturations (07 R191). -/
structure Core where
  slots  : Tbl (List Byte) := []
  outRow : List U32 := []
  jobs   : Nat := 0
  sat    : Nat := 0
  deriving DecidableEq, Repr

/-- Job slot states (08 Table 08.5). -/
inductive JobState where
  | empty
  | loaded
  | pending
  | active
  deriving DecidableEq, Repr

/-- The header of a placement image (08 Table 08.2). -/
structure ImageHdr where
  assembly : Byte := 0
  devices  : Nat := 0
  rung     : Nat := 0
  rungs    : Nat := 0
  syncRoot : Nat := 0
  layers   : Nat := 0
  w        : Nat := 0
  ladder   : U64 := 0
  seed     : U64 := 0
  classes  : U64 := 0
  bMax     : Nat := 0
  posMax   : Nat := 0
  length   : Nat := 0
  kvFormat : Nat := 0
  group    : Nat := 0
  heads    : Nat := 0
  dim32    : Nat := 0
  qpk      : Nat := 0
  first    : Nat := 0
  chunk    : Nat := 0
  digest   : Digest := 0
  deriving DecidableEq, Repr

/-- A vocabulary (09 R238, R239): tokens as bytes with SPECIAL and NO_SAMPLE, merges in rank order, roles as prefix and
suffix IDs, character classes by code point where they are not 4. -/
structure Vocab where
  pretok  : Nat
  digits  : Nat
  eos     : Nat
  pieceMax : Nat
  tokens  : List (List Byte × Bool × Bool)
  merges  : List (Nat × Nat × Nat)
  roles   : List (List Nat × List Nat)
  classes : Tbl Nat
  frames  : Nat
  deriving DecidableEq, Repr

/-- Who holds or waits for tokens (08 R226, R229): a submission ring, a core, or another device of the job. -/
inductive Holder where
  | ring (n : Nat)
  | core (c : Nat)
  | remote (dev part : Nat)
  deriving DecidableEq, Repr

/-- A waiting ACQUIRE (08 R228): who, its descriptor number or the TAG of its message, and its count. -/
structure SemWait where
  who : Holder
  id  : Nat
  n   : Nat
  deriving DecidableEq, Repr

/-- A semaphore (08 R226–R228): tokens held, by holder; waiters in order of arrival, of which 256 are queued and later ones
wait at their source. -/
structure Sem where
  value : Nat := 0
  held  : List (Holder × Nat) := []
  queue : List SemWait := []
  deriving DecidableEq, Repr

/-- A semaphore group (08 R226); `job`: slot of the job that owns it; `home`: its home device. -/
structure SemGroup where
  part   : Nat
  first  : Nat
  count  : Nat
  total  : Nat
  domain : Bool := false
  job    : Option Nat := none
  home   : Nat
  deriving DecidableEq, Repr

/-- A job slot (08 R215, R223; 14 R364, R379). `saved`, `groups`: semaphores and groups parked at J2; `ari`: arithmetic state
of a job that has run and is not active (log 26); `full`: IMAGE_DIGEST of the full image, whatever the rung. -/
structure Job where
  st     : JobState := .empty
  gen    : Nat := 0
  hdr    : ImageHdr := {}
  full   : Digest := 0
  sect   : Option Sections := none
  rungs  : List (ImageHdr × Sections) := []
  vocab  : Option Vocab := none
  saved  : Tbl Sem := []
  groups : Tbl SemGroup := []
  ari    : Option AriP := none
  hasRun : Bool := false
  ended  : Bool := false
  deriving DecidableEq, Repr

/-- A job switch on its way to J4 (08 R218–R224): its descriptor at the root, outgoing slot, incoming slot (none: STOP),
positions that have not answered their probe, start of E9, credits re-issued, step number of its boundary. -/
structure Switch where
  desc     : Option Nat
  outgoing : Option Nat := none
  job      : Option Nat
  asked    : List Nat := []
  since    : U64 := 0
  reissued : Nat := 0
  step     : U64 := 0
  deriving DecidableEq, Repr

/-- Cores, job slots, semaphores, groups, switches in progress, and tokens that rings hold of semaphores on other devices
(ring, home, semaphore, count). -/
structure Plc where
  core   : Tbl Core := []
  job    : Tbl Job := []
  sem    : Tbl Sem := []
  group  : Tbl SemGroup := []
  switch : Tbl Switch := []
  remote : List (Nat × Nat × Nat × Nat) := []
  deriving DecidableEq, Repr

/-! ### Token engine (09) -/

/-- A session class record (09 Table 09.3). -/
structure ClassRec where
  contextMax : Nat := 0
  appendMax  : Nat := 0
  headKeep   : Nat := 0
  tailKeep   : Nat := 0
  elision    : Nat := 0
  deriving DecidableEq, Repr

/-- A sampling profile (09 R250, Table 09.5): TEMPERATURE and TOP_P as FP32 words. -/
structure Profile where
  temp  : U32 := 0
  topP  : U32 := 0x3F800000
  topK  : Nat := 0
  skip  : Bool := false
  deriving DecidableEq, Repr

/-- A loaded list (09 R262): kind 0 banned, 1 forced, 2 stop; records as TRIG with IDs or bytes. -/
structure TokList where
  kind    : Nat
  region  : Nat
  records : List (Nat × List Nat)
  deriving DecidableEq, Repr

/-- A generation record (09 Table 09.4); `gen` holds the generation's tokens, from which BAN_STATE is computed. -/
structure GenRec where
  outBytes : Nat := 0
  forced   : Option (Nat × Nat) := none
  seed     : U64 := 0
  held     : List Byte := []
  gen      : List Nat := []
  full     : Bool := false
  deriving DecidableEq, Repr

/-- The bound token region of a partition and what it holds (09 R250), with CLASS_SET and PROFILE_SET waiting for E11. -/
structure TokP where
  bound   : Option Nat := none
  cls     : Tbl ClassRec := []
  profile : Tbl Profile := []
  sets    : Tbl (Nat × Nat × Nat) := []
  lists   : Tbl TokList := []
  gens    : Tbl GenRec := []
  newCls  : List (Nat × ClassRec × Nat) := []
  newProf : List (Nat × Profile × Nat) := []
  deriving DecidableEq, Repr

/-! ### Reed (10) -/

/-- An entry record (10 Table 10.3) and its stored BF16 vector (R273). Epochs 0xFFFFFFFF stand for none. -/
structure Entry where
  born   : Nat
  dead   : Nat := 0xFFFFFFFF
  linked : Nat := 0xFFFFFFFF
  from0  : Nat := 0xFFFFFFFF
  from1  : Nat := 0xFFFFFFFF
  repaired : Bool := false
  label  : U64
  codes  : List Byte
  bank0  : List Nat := []
  bank1  : List Nat := []
  vec    : List U16
  deriving DecidableEq, Repr

/-- An index (10 Table 10.1, Table 10.2). `side`: ID, COMMIT, whether a delete; `listed`: slots and side entries that the
last merge listed; `entry0`, `entry1`: the two banks of ENTRY with their FROM; `mergeAt`: snapshot of a running merge. -/
structure Index where
  gen       : Nat
  part      : Nat
  memory    : Bool
  metric    : Nat
  dim       : Nat
  m         : Nat
  r         : Nat
  bits      : Nat
  alpha     : Nat
  mergeEf   : Nat
  capacity  : Nat
  sideMax   : Nat
  region    : Nat
  vecRegion : Option Nat
  codebook  : List U16 := []
  epoch     : Nat := 1
  lastCommit : Nat := 0
  high      : Nat := 0
  free      : List Nat := []
  entry0    : Option (Nat × Nat) := none
  entry1    : Option (Nat × Nat) := none
  side      : List (Nat × Nat × Bool) := []
  entries   : Tbl Entry := []
  listed    : List Nat := []
  listedSide : List (Nat × Nat × Bool) := []
  requested : Bool := false
  mergeAt   : Option Nat := none
  names     : Nat := 0
  dying     : Bool := false
  deriving DecidableEq, Repr

/-- A query that holds a reed (10 R274, R284): its descriptor, partition, index, snapshot and pages. -/
structure Query where
  desc  : Nat
  part  : Nat
  index : Nat
  snap  : Nat
  pages : Nat
  deriving DecidableEq, Repr

structure Reed where
  index   : Tbl Index := []
  numbers : Tbl Numbers := []
  query   : List Query := []
  gens    : Tbl Nat := []
  deriving DecidableEq, Repr

/-! ### Fabric and pool (11) -/

/-- A flit's worth of a frame on its way out of a port (11 R295): path queue of its frame (12 R334), channel, buffer class,
whether it starts the frame, destination, KEY_ID and generation that encrypt the frame (65,536 × KEY_ID + generation), frame bytes. -/
structure TxFlit where
  q     : Option Nat
  chan  : Nat
  cls   : Nat
  start : Bool
  dst   : Nat
  key   : Nat
  data  : List Byte
  deriving DecidableEq, Repr

/-- A DXL port (11 R293–R304); state, width, pairs and peer stand in FAB_PORT_n. Credits and frames being received are by channel
and class, numbered 2 × channel + class. `queue` holds flits that wait for a credit or for room in `replay`. -/
structure Port where
  txSeq    : BitVec 12 := 0
  rxSeq    : BitVec 12 := 0xFFF
  replay   : List (BitVec 12 × TxFlit) := []
  queue    : List TxFlit := []
  credits  : Tbl Nat := []
  nakSeq   : BitVec 12 := 0
  nakRun   : Nat := 0
  unacked  : Nat := 0
  failures : List U64 := []
  delay    : Nat := 0
  asm      : Tbl (List Byte × Nat) := []
  deriving DecidableEq, Repr

/-- Page states of a home's directory (11 R307). -/
inductive PageState where
  | free
  | owned
  | pending
  | frozen
  deriving DecidableEq, Repr

/-- A hand-over that a PENDING or FROZEN page waits for (11 R316, R318). -/
structure Hand where
  src      : Nat
  srcPart  : Nat
  dst      : Nat
  dstPart  : Nat
  txn      : U32
  anchor   : U64
  deadline : Nat
  deriving DecidableEq, Repr

/-- A directory entry (11 R307): owner device and partition (a host window: 8 + its number), state, POISONED, hand-over. -/
structure DirEntry where
  dev     : Nat := 0
  part    : Nat := 0
  st      : PageState := .free
  poison  : Bool := false
  hand    : Option Hand := none
  deriving DecidableEq, Repr

/-- An extent in a home's extent table (11 R307, R308). -/
structure Extent where
  gen    : Nat
  dev    : Nat
  part   : Nat
  window : Option Nat
  space  : Nat
  base   : Nat
  pages  : Nat
  shared : Bool
  park   : Bool
  cls    : Nat
  epoch  : U32
  fenced : Bool := false
  deriving DecidableEq, Repr

/-- What a DXL or CXL request of this device serves (11 R298). -/
inductive Purpose where
  | tileWrite (desc region tile : Nat)
  | tileRead (desc region tile : Nat)
  | tileMove (desc region tile tier : Nat) (dest : U64)
  | flush (desc region tile : Nat)
  | cacheFill (region tile : Nat)
  | copyTile (desc region tile : Nat)
  | replica (desc region tile source : Nat)
  | weight (region tile : Nat) (tried : Nat)
  | parkPage (loc page : Nat)
  | demotePage (loc page : Nat)
  | fetchPage (loc page : Nat)
  | poolWrite (desc page : Nat)
  | poolRead (desc page : Nat)
  | hostLine (fn : HostFn) (offset : Nat) (isWrite : Bool)
  | extentOp (desc : Nat)
  | history (loc : Nat) (desc : Option Nat)
  | shard (part tile : Nat)
  | shardGap (part off : Nat)
  | shardRead (desc tile : Nat)
  | histRead (desc part : Nat)
  | peer (f : Frame)
  deriving DecidableEq, Repr

/-- A request outstanding (11 R296–R298, R309). `stuck`: no frame could be sent for it (13 R352); `reset`: job slot
at whose pre-emption its frame was discarded (08 R225). -/
structure Req where
  purpose : Purpose
  addr    : U64
  len     : Nat
  isWrite : Bool
  home    : Nat
  refusals : Nat := 0
  sentAt  : U64 := 0
  payload : List Byte := []
  part    : Nat := 0
  stuck   : Bool := false
  reset   : Option Nat := none
  deriving DecidableEq, Repr

/-- A hand-over at its source (11 R315–R317): descriptor, whether a session, its local or region number, the message that names
the parties, pages and anchor, homes asked and homes that answered, whether OFFER is sent. -/
structure OfferTxn where
  desc      : Nat
  isSession : Bool
  obj       : Nat
  msg       : DirMsg
  homes     : List Nat
  prepared  : List Nat := []
  offered   : Bool := false
  deriving DecidableEq, Repr

/-- A hand-over at its destination (11 R317): descriptor, partition, Reed memory index, and the offer accepted with the number
and generation set aside for its object. -/
structure AcceptTxn where
  desc   : Nat
  part   : Nat
  memIdx : U32
  offer  : Option (DirMsg × OfferObj × Nat × Nat) := none
  deriving DecidableEq, Repr

/-- A host window (11 R312, R313): the extent granted, pages that the host has written since the last POOL_FLUSH, and pages written
while one runs. -/
structure HostWindow where
  extent  : U64
  written : List Nat := []
  again   : List Nat := []
  deriving DecidableEq, Repr

/-- A revocation in progress at the home (11 R314): descriptors, devices that have not answered, how many have. -/
structure Revoking where
  descs   : List Nat
  waiting : List Nat
  acked   : Nat := 0
  deriving DecidableEq, Repr

/-- The fabric. Of this device: ports, routes, its map of extents and the pages it takes of each, requests by TAG, windows by
16 × partition + window, hand-overs by TXN (as source) and 2³² × source + TXN (as destination), offers held, frames
numbered by key. As home: directory by 2³² × space + page, extents, appliance ranges (space, first page, pages), epoch, reads
that wait for FROZEN pages, decided hand-overs (source, TXN, 1 COMMITTED or 2 ABORTED), revocations by extent. -/
structure Fab where
  port    : Tbl Port := []
  route   : List RouteEnt := []
  dir     : Tbl DirEntry := []
  extent  : Tbl Extent := []
  numbers : Numbers := {}
  added   : List (Nat × Nat × Nat) := []
  retired : List Nat := []
  epoch   : U32 := 1
  map     : Tbl ExtentInfo := []
  taken   : Tbl (List Nat) := []
  req     : Tbl Req := []
  tag     : Nat := 0
  offer   : Tbl OfferTxn := []
  accept  : Tbl AcceptTxn := []
  hold    : List (DirMsg × OfferObj) := []
  decided : List (Nat × U32 × Nat) := []
  waiting : List Frame := []
  window  : Tbl HostWindow := []
  revoke  : Tbl Revoking := []
  nonce   : Tbl Nat := []
  nonceLow : List Nat := []
  gens    : Tbl Nat := []
  deriving DecidableEq, Repr

/-! ### Sluice (12) -/

/-- A policer (12 R325): tokens are kept in 1/10⁹ of a descriptor and 1/8000 of a byte, the time is that of `at_`. -/
structure Policer where
  descRate  : Nat
  descBurst : Nat
  byteRate  : Nat
  byteBurst : Nat
  descTok   : Nat
  byteTok   : Nat
  at_       : U64
  deriving DecidableEq, Repr

/-- A frame or CXL.mem request that waits at a shaper: TAG of its request, wire bytes, destination. -/
structure HeldFrame where
  tag  : Nat
  wire : Nat
  dst  : Nat
  cls  : Nat
  deriving DecidableEq, Repr

/-- A shaper (12 R327–R331); tokens in 1/65,536 byte, signed. -/
structure Shaper where
  part    : Nat
  egress  : Nat
  classes : BitVec 8
  rate    : Nat
  burst   : Nat
  tokens  : Int
  at_     : U64
  held    : List HeldFrame := []
  deriving DecidableEq, Repr

/-- A sampled path queue (12 R333–R336). -/
structure PathQ where
  delay   : List Nat := []
  depth   : List Nat := []
  lastDelay : List Nat := []
  lastDepth : List Nat := []
  maxDelay : Nat := 0
  maxDepth : Nat := 0
  lastMaxDelay : Nat := 0
  lastMaxDepth : Nat := 0
  p90     : Nat := 0
  binset  : Nat := 0
  lastSet : Nat := 0
  deriving DecidableEq, Repr

/-- Policers, shapers, path queues (numbered 4 × partition + kind); the bin sets and periods in force. -/
structure Sluice where
  policer : Tbl Policer := []
  shaper  : Tbl Shaper := []
  queue   : Tbl PathQ := []
  binset  : Tbl U64 := []
  sample  : U64 := 0x1003E8
  deriving DecidableEq, Repr

/-! ### Security (13) -/

/-- Generation states (13 Table 13.4). -/
inductive KeyState where
  | next
  | current
  | prior
  | retiring
  | empty
  deriving DecidableEq, Repr

structure KeyGen where
  gen : Nat
  st  : KeyState
  key : BitVec 256
  deriving DecidableEq, Repr

/-- A KEY_ID of a partition (13 R349–R351): usage, tenant, whether its tenant is removed, its live generations, the highest ever
held, late frames dropped. -/
structure Key where
  store   : Bool
  tenant  : Nat
  removed : Bool := false
  gens    : List KeyGen := []
  highest : Nat := 0
  late    : Nat := 0
  deriving DecidableEq, Repr

/-- A drain of a generation (13 R354): descriptors that wait for it, key, generation, whether its time is over. -/
structure Drain where
  descs   : List Nat
  key     : Nat
  gen     : Nat
  expired : Bool := false
  deriving DecidableEq, Repr

/-- TDI states (13 Table 13.6, Table 13.11). -/
inductive TdiState where
  | unlocked
  | locked
  | run
  | error
  | scrubbing
  deriving DecidableEq, Repr

/-- An SPDM session (13 R359): mailbox, whether FINISH has completed it, whether its requester was authenticated against
an owner key, key updates. -/
structure SpdmSession where
  mb      : Mailbox
  done    : Bool := false
  owner   : Bool := false
  updates : Nat := 0
  deriving DecidableEq, Repr

/-- KEKs by partition, keys by 65,536 × partition + KEY_ID, drains, TDIs, IDE stream keys by 16 × port + stream, SPDM sessions; the drop faults raised (key, code, step). -/
structure Sec where
  kek     : Tbl (BitVec 256) := []
  key     : Tbl Key := []
  drain   : List Drain := []
  tdi     : Tbl TdiState := []
  ide     : Tbl (BitVec 256) := []
  spdm    : Tbl SpdmSession := []
  spdmNext : Nat := 0
  system  : Bool := false
  raised  : List (Nat × Nat × U64) := []
  deriving DecidableEq, Repr

/-! ### Checkpoints (14) -/

/-- A checkpoint in progress on one device (14 R364–R376). At the root: descriptor, MAC key, host address of the manifest, positions
whose probe is not answered, shards reported (sessions, pool address, length, KEY_ID, digest). Of this device: position, shard
region, bytes of the shard once cut, gaps that reads from the pool still fill (offset: pool address and sectors), tiles left to write,
runs referenced (address: sectors). Phases as CKP_PROGRESS_p.PHASE. -/
structure Ckpt where
  desc     : Option Nat
  job      : Nat
  id       : Nat
  mode     : Nat
  peat     : Nat
  macKey   : Nat := 0
  manifest : U64 := 0
  extra    : List U64 := []
  asked    : List Nat := []
  shards   : Tbl (Nat × U64 × Nat × Nat × Digest) := []
  pos      : Nat
  region   : Nat
  step     : U64 := 0
  phase    : Nat := 1
  shard    : List Byte := []
  sessions : Nat := 0
  gaps     : Tbl (U64 × Nat) := []
  left     : List Nat := []
  held     : Tbl Nat := []
  deriving DecidableEq, Repr

/-- A finished checkpoint whose runs this device holds (14 R367): partition, ladder, CKPT_ID, runs. -/
structure Kept where
  part   : Nat
  ladder : U64
  id     : Nat
  held   : Tbl Nat
  deriving DecidableEq, Repr

/-- A CKPT_RESTORE under way (14 R381): job slot, WHAT, the shard's place, KEY_ID, length and digest, its tiles that have arrived;
sessions to restore as descriptor, HIST_ADDR and whether an ADOPT entry; status and bytes of each history's parts read, by
4,096 × entry + part. -/
structure Restore where
  part   : Nat
  slot   : Nat
  what   : Nat
  addr   : U64 := 0
  keyId  : Nat := 0
  len    : Nat := 0
  digest : Digest := 0
  tiles  : Tbl (List Byte) := []
  todo   : List (BitVec 512 × U64 × Bool) := []
  parts  : Tbl (Byte × List Byte) := []
  deriving DecidableEq, Repr

/-- A complete manifest in keeping flash (14 Table 14.4): CKPT_ID, STEP, bytes. -/
structure Manifest where
  id     : Nat
  step   : U64
  bytes  : List Byte
  deriving DecidableEq, Repr

/-- The checkpoint in progress of each partition, finished ones whose runs are held, pages homed here that are in a hold, restores
by descriptor. -/
structure Ckp where
  now     : Tbl Ckpt := []
  kept    : List Kept := []
  inHold  : List U64 := []
  restore : Tbl Restore := []
  deriving DecidableEq, Repr

/-! ### Ledger (15) -/

/-- A ledger instance (15 Table 15.2); `held` by place, `actual` what the engines hold. -/
structure Ledger where
  total  : Int := 0
  held   : List Int := []
  actual : List Int := []
  result : Nat := 0
  part   : Option Nat := none
  deriving DecidableEq, Repr

/-- Instances keyed by 2²⁴ × class + instance; records on their way; events of the step with class and instance;
corrected errors per 64 B location with the start of their scrub period; frames that the next E8 retires (partition, place); ports whose next flit has an injected CRC error; units that this self-test failed and passed. -/
structure Ldg where
  inst    : Tbl Ledger := []
  flying  : List Delta := []
  events  : List (Nat × Nat × Nat) := []
  ecc     : Tbl (Nat × U64) := []
  retiring : List (Nat × Nat) := []
  crcPorts : List Nat := []
  selftest : List TestUnit := []
  passed   : List TestUnit := []
  deriving DecidableEq, Repr

/-! ### Power, cooling, hold-up and keeping flash (16, 17) -/

/-- Points of the sequences of 16 Table 16.9–16.11 and 15 Table 15.6 between which the module waits. -/
inductive SeqPoint where
  | off
  | u1
  | u2
  | u4
  | u5
  | u6
  | x1
  | x5
  | z2
  | z3
  | z4
  | z5
  | z6
  | z7
  | x7
  | y1
  | y5
  | y7
  deriving DecidableEq, Repr

/-- Power and cooling beside the PWR registers (16): point reached; whether input is present; excursion, coolant and thermal episodes;
C-dies whose rail failed; rail limits in mV set by the cap and by heat (rails: 0–3 C-dies, 4 K-die, 5 L-dies); dies and stacks at or above
their throttle point (such a stack's refresh rate is doubled), 95 °C and 100 °C (stack s as 16 + s); caps that the device sets itself; sensors
ignored (Table 16.5 in order); E12 held for the cap, partitions whose E12 is held, the latest 100 loop periods with one held; what the path
in progress was started for, and whether it restarts; no snapshot is to be written (again); it waits for charge; energy of a full bank in 0.1 J;
leak rope wet; PLDM readings and the MCTP endpoint ID (17 R451, R452). -/
structure Pwr where
  seq      : SeqPoint := .u5
  input    : Bool := true
  excursion : Bool := false
  failed   : List Nat := []
  capLimit : List Nat := [850, 850, 850, 850, 850, 850]
  thLimit  : List Nat := [850, 850, 850, 850, 850, 850]
  hotDie   : List Nat := []
  hotStack : List Nat := []
  veryHot  : List Nat := []
  trip     : List Nat := []
  ownCaps  : List Nat := []
  coolBad  : Bool := false
  reversed : Bool := false
  lowFlow  : Bool := false
  hotInlet : Bool := false
  ignored  : List Nat := []
  capHold  : Bool := false
  held     : List Nat := []
  holds    : List Bool := []
  restart  : Bool := false
  reason   : Nat := 0
  noSnap   : Bool := true
  waitCharge : Bool := false
  fullJ    : Nat := 9000
  wet      : Bool := false
  pldm     : Tbl Int := []
  eid      : Byte := 0
  deriving DecidableEq, Repr

/-- A firmware slot (17 R454). -/
structure FwSlot where
  version : U32
  sec     : U16
  prod    : Bool
  ok      : Bool
  digest  : Digest
  deriving DecidableEq, Repr

/-- An overlay entry (15 R406). -/
structure OverlayEnt where
  kind   : Nat
  source : Nat
  passes : Nat
  unit   : Nat
  epoch  : Nat
  deriving DecidableEq, Repr

/-- A Tussock snapshot (16 R436). -/
structure Snapshot where
  epoch    : Nat
  map      : Digest
  sessions : Tbl Session
  deriving DecidableEq, Repr

/-- Keeping flash: firmware slots and the one running, slice maps, overlay with its state (0 absent, 1 valid, 2 stale) and the failures since
it was written, OVERRIDE requests, snapshots newest first, manifests by ladder, the fault log newest first with its next index and the times
of the latest copies, the boot epoch, stops recorded with the reason of the last, duration and failures of the last closing test. Beside it the fuses (13 R342, R360, 17 R454;
log 13): anti-rollback version, revoked owner keys, debug unlock. -/
structure Flash where
  slotA    : Option FwSlot := none
  slotB    : Option FwSlot := none
  running  : Bool := false
  map      : Option SliceMap := none
  staged   : Option SliceMap := none
  overlay  : List OverlayEnt := []
  overState : Nat := 0
  overEpoch : Nat := 0
  failed   : List TestUnit := []
  overrides : List (Nat × Nat × Nat) := []
  snaps    : List Snapshot := []
  ladders  : List (U64 × List Manifest) := []
  log      : List FaultRec := []
  next     : Nat := 0
  copies   : List U64 := []
  epoch    : Nat := 1
  shutdowns : Nat := 0
  reason   : Nat := 0
  testMs   : Nat := 0
  testFailed : Nat := 0
  fuseSec  : U16 := 1
  revoked  : BitVec 4 := 0
  debugOpen : Bool := false
  deriving DecidableEq, Repr

/-! ### What the device sends out (log 6) -/

/-- An answer to a sideband or mailbox request. -/
inductive Answer where
  | spdm (mb : Mailbox) (name : String) (data : List Byte) (sig : Option (BitVec 768))
  | spdmError (mb : Mailbox) (name : String)
  | tdisp (part : Nat) (name : String) (data : List U64)
  | tdispError (part : Nat) (name : String)
  | pldm (code : Nat) (value : Int)
  | pldmData (code : Nat) (data : List Byte)
  | pldmLog (records : List FaultRec)
  | mctp (eid : Byte)
  deriving DecidableEq, Repr

/-- A message of the system channel set or of a job's control channel to another device. -/
inductive Ctrl where
  | safeReport (part pos : Nat) (failed : Bool) (escalate : List Nat)
  | commitToken (part : Nat) (t : CommitToken)
  | retryToken (part : Nat)
  | shrinkToken (part : Nat) (lost : List Nat)
  | stepMark (port : Nat)
  | probe (part : Nat) (pr : Probe)
  | probeAnswer (part pos : Nat) (holds : Bool)
  | shardReport (part pos sessions length : Nat) (addr : U64) (keyId : Nat) (digest : Digest)
  | semOp (m : SemMsg)
  | semReply (m : SemMsg)
  | prepare (m : DirMsg)
  | prepared (m : DirMsg) (ok : Bool)
  | offer (m : DirMsg) (o : OfferObj)
  | commit (m : DirMsg)
  | committed (m : DirMsg) (handle : U64)
  | abort (m : DirMsg)
  | query (m : DirMsg)
  | mapUpdate (e : ExtentInfo)
  | poison (pages : List U64)
  | revoke (extent : U64)
  | revokeAck (extent : U64)
  | mirror (part : Nat) (descs : List (BitVec 512))
  | mirrorAck (part : Nat)
  | extentRequest (part space pages cls : Nat) (shared park : Bool) (window : Option Nat) (tag : Nat)
  | extentReturn (extent : U64) (tag : Nat)
  deriving DecidableEq, Repr

/-- What the device sends: reads and writes of host memory, register data, interrupts, frames and flits, pins. -/
inductive Out where
  | hostRead (part : Nat) (addr : U64) (len : Nat)
  | hostWrite (part : Nat) (addr : U64) (bytes : List Byte)
  | completion (addr : U64) (c : Completion)
  | faultRec (addr : U64) (phase : Bool) (r : FaultRec)
  | telemetry (addr : U64) (phase : Bool) (r : TelemRec)
  | msi (vec : Nat)
  | regData (offset : Nat) (v : U64)
  | lineData (fn : HostFn) (offset : Nat) (data : Option (List Byte))
  | frame (f : Frame)
  | error (f : Frame) (e : Option ExtentInfo)
  | cxlZero (addr : U64) (len : Nat)
  | cxl (tag : U32) (addr : U64) (write : Option (List Byte)) (len : Nat)
  | flit (port : Nat) (f : BitVec 2048)
  | ctrl (dev : Nat) (m : Ctrl)
  | pin (name : String) (level : Bool)
  | answer (a : Answer)
  deriving DecidableEq, Repr

/-- Everything but the hardware option, the pool memory homed here and the queue, block by block. `regs` holds the
registers that differ from their value at reset, `inForce` the values that BOUNDARY-APPLIED registers act with, `live`
the running values that STEP-LATCHED registers take at the next commit (02 R32). -/
structure Dev where
  clock   : Clock := {}
  pins    : Pins := {}
  regs    : Tbl U64 := []
  inForce : Tbl U64 := []
  live    : Tbl U64 := []
  rng     : Rings := {}
  step    : Tbl StepP := []
  tus     : Sessions := {}
  tier    : Tier := {}
  kva     : Kva := {}
  ari     : Tbl AriP := []
  plc     : Plc := {}
  tok     : Tbl TokP := []
  red     : Reed := {}
  fab     : Fab := {}
  slu     : Sluice := {}
  sec     : Sec := {}
  ckp     : Ckp := {}
  ldg     : Ldg := {}
  pwr     : Pwr := {}
  flash   : Flash := {}
  out     : List Out := []
  free    : Nat := 0
  deriving DecidableEq, Repr

/-- The assembly option (00 R1, Table 00.1). -/
structure Hw where
  hbms   : Nat
  ldies  : Nat
  deriving DecidableEq, Repr

/-- The state. `mem` holds the bytes of the HBM that this device lends to the pool (11 R307, R308), keyed by
byte offset in space 0, addresses rising, no byte 0. `pending` is the queue of commands, first in first out. -/
structure State where
  hw      : Hw
  mem     : List Host.Cell
  dev     : Dev
  pending : List Instr
  deriving DecidableEq, Repr

/-- The slice map that keeping flash holds at reset (log 4): whole-device mode, device 0x000 alone in its domain, the
port of L-die 0 in the host role, every resource given to partition 0. -/
def State.resetMap : SliceMap :=
  { whole := true, deviceId := 0, chain := false, sizeM1 := 0, position := 0, hostRole := 1, perStack := 16384,
    lent := 65536, roles := [], routes := [], mirrorB := 0, sigOk := 1, digest := 0,
    parts := [{ p := 0, cores := [0xFFFFFFFFFFFFFFFF, 0xFFFFFFFFFFFFFFFF, 0xFFFFFFFFFFFFFFFF, 0xFFFFFFFFFFFFFFFF],
                stackMask := 0xFFF, frames := 12386304, ringFirst := 0, ringCount := 4096, vecFirst := 0,
                vecCount := 2048, localFirst := 0, localCount := 4194304, indexFirst := 0, indexCount := 4194304,
                reeds := 4096, pages := 3072, bankFirst := 0, banks := 128, shaperFirst := 0, shaperCount := 16384,
                portMask := 0xFFFFFFFF, weight := 1, keyQuota := 4096, hostPorts := 1 }] }

/-- The module right after reset is released (U5): every register at its reset value, keeping flash as log 4 says,
nothing else held. -/
def State.reset : State :=
  { hw := { hbms := 12, ldies := 4 }, mem := [], pending := [],
    dev := { flash := { slotA := some { version := 0x01000000, sec := 1, prod := true, ok := true, digest := 0 },
                        map := some State.resetMap } } }

end Sys2Proof.Machine
end

