-- ==== Sys2Proof/WellFormed.lean ====
section
/-! DEFINITION. Well-formed commands: every operand lies in the range that its row of the manual gives it (partitions
0–7, rings 0–4,095, vectors 0–2,047, DXL ports 0–31, host ports 0–3, local numbers below 2²², device IDs below 4,096).
A meaning refuses what is not well formed, and nothing else. -/

namespace Sys2Proof

/-- A function of a host port (17 R443): VF 1–8, L-die 0–3. -/
def HostFn.wf : HostFn → Bool
  | .pf0 l => decide (l < 4)
  | .vf n l => decide (1 ≤ n) && decide (n ≤ 8) && decide (l < 4)

/-- An access by such a function. -/
def Access.wf (a : Access) : Bool := a.fn.wf

/-- A mailbox of PF0, of a partition function or of MCTP (13 R359). -/
def Mailbox.wf : Mailbox → Bool
  | .pf0 => true
  | .func p => decide (p < 8)
  | .mctp => true

/-- A frame between devices 0–4,095 (11 Table 11.2). -/
def Frame.wf (f : Frame) : Bool := decide (f.src < 4096) && decide (f.dst < 4096) && decide (f.chan < 64)

/-- A DIR frame between partitions of devices (11 R316). -/
def DirMsg.wf (m : DirMsg) : Bool :=
  decide (m.src < 4096) && decide (m.dst < 4096) && decide (m.srcPart < 8) && decide (m.dstPart < 8)

/-- A well-formed command. -/
def Instr.wf : Instr → Bool
  | .registerWrite a _ _ _ => a.wf
  | .rngWake a p => a.wf && decide (p < 8)
  | .rngDbBaseWrite a p _ => a.wf && decide (p < 8)
  | .rngAdminRingWrite a p _ _ => a.wf && decide (p < 8)
  | .rngErrlogWrite a p _ => a.wf && decide (p < 8)
  | .rngTelemWrite a p _ => a.wf && decide (p < 8)
  | .escClearLayer a p _ => a.wf && decide (p < 8)
  | .escClearAll a p => a.wf && decide (p < 8)
  | .shutdown a _ => a.wf
  | .restart a _ => a.wf
  | .beatRateRead a d => a.wf && decide (d < 9)
  | .pwrThermalRead a => a.wf
  | .scanTimerExpiry p => decide (p < 8)
  | .doorbellRecordArrival p _ _ => decide (p < 8)
  | .descriptorArrival ring _ => decide (ring < 4096)
  | .errlogBufferDrain p => decide (p < 8)
  | .hostReadDataArrival _ _ => true
  | .irqModCountReached vec => decide (vec < 2048)
  | .irqModTimerExpiry vec => decide (vec < 2048)
  | .nop ring _ => decide (ring < 4096)
  | .ringCreate ring _ => decide (ring < 4096)
  | .ringDestroy ring _ => decide (ring < 4096)
  | .ringReset ring _ => decide (ring < 4096)
  | .irqCfg ring _ => decide (ring < 4096)
  | .telemCfg ring _ => decide (ring < 4096)
  | .stateRead ring _ => decide (ring < 4096)
  | .sessionOpen ring _ => decide (ring < 4096)
  | .append ring _ => decide (ring < 4096)
  | .stepRequest ring _ => decide (ring < 4096)
  | .toolWait ring _ => decide (ring < 4096)
  | .park ring _ => decide (ring < 4096)
  | .revive ring _ => decide (ring < 4096)
  | .close ring _ => decide (ring < 4096)
  | .regionCreate ring _ => decide (ring < 4096)
  | .regionDestroy ring _ => decide (ring < 4096)
  | .regionAttr ring _ => decide (ring < 4096)
  | .regionFlush ring _ => decide (ring < 4096)
  | .regionMove ring _ => decide (ring < 4096)
  | .tileWrite ring _ => decide (ring < 4096)
  | .tileRead ring _ => decide (ring < 4096)
  | .replicaSet ring _ => decide (ring < 4096)
  | .replicaRebuild ring _ => decide (ring < 4096)
  | .bgCopy ring _ => decide (ring < 4096)
  | .ptShare ring _ => decide (ring < 4096)
  | .ptTruncate ring _ => decide (ring < 4096)
  | .kvDrop ring _ => decide (ring < 4096)
  | .imageLoad ring _ => decide (ring < 4096)
  | .jobSwitch ring _ => decide (ring < 4096)
  | .jobUnload ring _ => decide (ring < 4096)
  | .semGroupCreate ring _ => decide (ring < 4096)
  | .semGroupDestroy ring _ => decide (ring < 4096)
  | .semOp ring _ => decide (ring < 4096)
  | .tokBind ring _ => decide (ring < 4096)
  | .vocabLoad ring _ => decide (ring < 4096)
  | .classSet ring _ => decide (ring < 4096)
  | .profileSet ring _ => decide (ring < 4096)
  | .listLoad ring _ => decide (ring < 4096)
  | .listsetDefine ring _ => decide (ring < 4096)
  | .listFree ring _ => decide (ring < 4096)
  | .tokSeed ring _ => decide (ring < 4096)
  | .indexCreate ring _ => decide (ring < 4096)
  | .indexDestroy ring _ => decide (ring < 4096)
  | .vecInsert ring _ => decide (ring < 4096)
  | .vecDelete ring _ => decide (ring < 4096)
  | .vecQuery ring _ => decide (ring < 4096)
  | .indexMerge ring _ => decide (ring < 4096)
  | .indexStat ring _ => decide (ring < 4096)
  | .queryReedAssign p => decide (p < 8)
  | .mergeStart idx => decide (idx < 4194304)
  | .mergeCommit idx => decide (idx < 4194304)
  | .extentRequest ring _ => decide (ring < 4096)
  | .extentReturn ring _ => decide (ring < 4096)
  | .extentRevoke ring _ => decide (ring < 4096)
  | .poolFlush ring _ => decide (ring < 4096)
  | .poolPageWrite ring _ => decide (ring < 4096)
  | .poolPageRead ring _ => decide (ring < 4096)
  | .ownOffer ring _ => decide (ring < 4096)
  | .ownAccept ring _ => decide (ring < 4096)
  | .ownResolve ring _ => decide (ring < 4096)
  | .shaperSet ring _ => decide (ring < 4096)
  | .shaperClear ring _ => decide (ring < 4096)
  | .policerSet ring _ => decide (ring < 4096)
  | .policerClear ring _ => decide (ring < 4096)
  | .shaperEligible shaper => decide (shaper < 16384)
  | .keyInstall ring _ => decide (ring < 4096)
  | .keyActivate ring _ => decide (ring < 4096)
  | .keyRetire ring _ => decide (ring < 4096)
  | .tenantRemove ring _ => decide (ring < 4096)
  | .aclRead ring _ => decide (ring < 4096)
  | .keyDrainComplete p _ _ => decide (p < 8)
  | .keyDrainTimeout p _ _ => decide (p < 8)
  | .ckptStart ring _ => decide (ring < 4096)
  | .ckptRelease ring _ => decide (ring < 4096)
  | .ckptRestore ring _ => decide (ring < 4096)
  | .manifestSeal ring _ => decide (ring < 4096)
  | .shardReport p pos _ _ _ _ _ => decide (p < 8) && decide (pos < 256)
  | .holdupWaitExpiry p => decide (p < 8)
  | .manifestWriteDone p => decide (p < 8)
  | .logRead ring _ => decide (ring < 4096)
  | .partReset ring _ => decide (ring < 4096)
  | .faultInject ring _ => decide (ring < 4096)
  | .overlayRead ring _ => decide (ring < 4096)
  | .ledgerDelta _ => true
  | .localSafePoint p => decide (p < 8)
  | .safeReport p pos _ _ => decide (p < 8) && decide (pos < 256)
  | .stepSyncEdge => true
  | .stepMarkToken port => decide (port < 32)
  | .syncWindowExpiry p => decide (p < 8)
  | .stepSyncStuckCount p => decide (p < 8)
  | .idleBoundaryTimer p => decide (p < 8)
  | .commitToken p _ => decide (p < 8)
  | .linkCreditDrained p => decide (p < 8)
  | .drainTimeout p _ => decide (p < 8)
  | .retryToken p => decide (p < 8)
  | .rebuildTimeout p => decide (p < 8)
  | .peerLossTimeout p pos => decide (p < 8) && decide (pos < 256)
  | .shrinkToken p _ => decide (p < 8)
  | .switchProbe p src _ => decide (p < 8) && decide (src < 4096)
  | .probeAnswer p pos _ => decide (p < 8) && decide (pos < 256)
  | .switchProbeTimeout p => decide (p < 8)
  | .layerFinished p _ => decide (p < 8)
  | .windowSlotFilled p _ => decide (p < 8)
  | .coreTileJobDone core _ => decide (core < 256)
  | .shadowSampleSelect p _ core => decide (p < 8) && decide (core < 256)
  | .shadowJobDone p _ _ _ => decide (p < 8)
  | .consecSamplesExceeded p _ => decide (p < 8)
  | .recomputeJobDone loc range _ _ _ _ => decide (loc < 4194304) && decide (range < 65536)
  | .logitsShardArrival loc _ _ => decide (loc < 4194304)
  | .revivalStart loc => decide (loc < 4194304)
  | .peatDecodeDone loc _ => decide (loc < 4194304)
  | .parkWritesStart loc => decide (loc < 4194304)
  | .demotionTimer loc => decide (loc < 4194304)
  | .mirror f _ => f.wf
  | .mirrorAck p => decide (p < 8)
  | .mirrorAckTimeout p => decide (p < 8)
  | .dataFlit port _ => decide (port < 32)
  | .nak port _ => decide (port < 32)
  | .ackTimer port => decide (port < 32)
  | .portRetrainStart port => decide (port < 32)
  | .portRetrainDone port _ => decide (port < 32)
  | .portTrainingDone port _ => decide (port < 32)
  | .read f => f.wf
  | .readData f => f.wf
  | .write f => f.wf
  | .nonceThreshold p _ _ => decide (p < 8)
  | .writeAck f => f.wf
  | .cxlMemResponse _ _ _ => true
  | .tile f => f.wf
  | .errorResponse f _ => f.wf
  | .staleMapRetryLimit _ => true
  | .requestTimeout _ => true
  | .semaphoreOperation _ => true
  | .semaphoreReply _ => true
  | .prepare m => m.wf
  | .prepared m _ => m.wf
  | .offer m _ => m.wf
  | .commit m => m.wf
  | .committed m _ => m.wf
  | .abort m => m.wf
  | .query m => m.wf
  | .mapUpdate home _ => decide (home < 4096)
  | .poison src _ => decide (src < 4096)
  | .revoke home _ => decide (home < 4096)
  | .revokeAck dev _ => decide (dev < 4096)
  | .revokeAckTimeout _ => true
  | .ownOfferTimeout _ => true
  | .offerHoldTimeout src _ => decide (src < 4096)
  | .ownAcceptTimeout src _ => decide (src < 4096)
  | .pendingPageDeadline _ => true
  | .hostLineAccess a window _ _ => a.wf && decide (window < 16)
  | .hostLinkLost port _ => decide (port < 4)
  | .functionLevelReset fn => fn.wf
  | .dcdCapacityAdd _ _ _ => true
  | .dcdCapacityRelease _ _ _ => true
  | .sluiceWindowClose => true
  | .depthSample => true
  | .beatSensorWindow d _ => decide (d < 9)
  | .patrolScrubTick _ _ => true
  | .frameRetire _ => true
  | .getVersion mb => mb.wf
  | .getCapabilities mb => mb.wf
  | .negotiateAlgorithms mb => mb.wf
  | .getDigests mb => mb.wf
  | .getCertificate mb _ _ _ => mb.wf
  | .challenge mb _ _ => mb.wf
  | .getMeasurements mb _ _ => mb.wf
  | .keyExchange mb _ _ => mb.wf
  | .finish mb _ => mb.wf
  | .heartbeat mb _ => mb.wf
  | .keyUpdate mb _ => mb.wf
  | .endSession mb _ => mb.wf
  | .kekSet mb _ _ => mb.wf
  | .ideKm mb _ port _ _ => mb.wf && decide (port < 4)
  | .lockInterfaceRequest p => decide (p < 8)
  | .startInterfaceRequest p => decide (p < 8)
  | .stopInterfaceRequest p => decide (p < 8)
  | .scrubComplete p => decide (p < 8)
  | .tdiErrorTrigger p _ => decide (p < 8)
  | .setEndpointId _ => true
  | .pldmGetSensorReading _ => true
  | .pldmSetPowerCap _ => true
  | .pldmFruRead => true
  | .pldmShutdown _ => true
  | .overlayOverride _ _ _ _ => true
  | .pldmLogRead _ _ => true
  | .glbRead _ => true
  | .fwUpdateComponent _ => true
  | .sensorRefreshTick => true
  | .smbusTimeout => true
  | .powerConnect _ _ => true
  | .standbyRailsUp => true
  | .coolantCheckTick _ => true
  | .resetRelease v e c => decide (v < 65536) && decide (e < 65536) && decide (c < 65536)
  | .startPhasesDone _ => true
  | .powerLoopPeriod _ => true
  | .thermalSample ds hs => decide (ds.length ≤ 9) && decide (hs.length ≤ 12)
  | .thermalTripTimeout st u => decide (u < (if st then 12 else 9))
  | .coolantSample _ => true
  | .coolantConditionTimeout _ => true
  | .coolantReversedTimeout => true
  | .sensorDisagreeTimeout n => decide (n < 5)
  | .leakDetect => true
  | .holdupMeasure _ _ => true
  | .inputVoltageEvent _ => true
  | .railFault die => decide (die < 9)
  | .pwrBrakeAssert => true
  | .pwrBrakeDeassert => true
  | .modResetRelease _ => true
  | .modResetHeld5s => true
  | .watchdogTimeout => true
  | .shutdownStepTimeout => true
  | .snapshotChargeTimeout => true
  | .durableCommitDone k => decide (k < 3)
  | .snapshotWriteDone => true
  | .selftestPhaseDone _ => true
  | .idleFlit port _ => decide (port < 32)
  | .msiXUnmask a vec => a.wf && decide (vec < 2048)
  | .getDeviceInterfaceReport p => decide (p < 8)
  | .overvoltageRestart _ => true
  | .pcieLinkUp port _ _ => decide (port < 4)

end Sys2Proof
end

