-- ==== Sys2Proof/Machine/Ops.lean ====
section
/-! DEFINITION. The named operations that every meaning rests on: sparse tables, bytes, pool memory, and how an effect on
the device becomes the outcome of a command. -/

namespace Sys2Proof.Machine

/-! ### Sparse tables -/

/-- The entry at a key. -/
def tget {α : Type} : Tbl α → Nat → Option α
  | [], _ => none
  | (a, v) :: r, k => if a = k then some v else tget r k

/-- The entry at a key, or a default. -/
def tgetD {α : Type} (t : Tbl α) (k : Nat) (d : α) : α := (tget t k).getD d

/-- The table with a key's entry set, keys rising. -/
def tput {α : Type} : Tbl α → Nat → α → Tbl α
  | [], k, v => [(k, v)]
  | (a, w) :: r, k, v =>
    if a = k then (k, v) :: r else if k < a then (k, v) :: (a, w) :: r else (a, w) :: tput r k v

/-- The table without a key. -/
def tdel {α : Type} : Tbl α → Nat → Tbl α
  | [], _ => []
  | (a, w) :: r, k => if a = k then tdel r k else (a, w) :: tdel r k

/-- The table with a key's entry changed, a missing one counting as the default. -/
def tmod {α : Type} (t : Tbl α) (k : Nat) (d : α) (f : α → α) : Tbl α := tput t k (f (tgetD t k d))

/-- The table with a key's entry changed where it has one. -/
def tupd {α : Type} (t : Tbl α) (k : Nat) (f : α → α) : Tbl α :=
  match tget t k with
  | some v => tput t k (f v)
  | none => t

/-- Values of a table. -/
def tvals {α : Type} (t : Tbl α) : List α := t.map fun e => e.2

/-- Keys whose entries satisfy a condition. -/
def tkeys {α : Type} (t : Tbl α) (c : Nat → α → Bool) : List Nat :=
  (t.filter fun e => c e.1 e.2).map fun e => e.1

/-! ### Bytes (00 R7: little-endian) -/

/-- The low `n` bytes of a number, lowest first. -/
def leBytes : Nat → Nat → List Byte
  | 0, _ => []
  | n + 1, v => BitVec.ofNat 8 v :: leBytes n (v / 256)

/-- The number that bytes spell, lowest first. -/
def leNat : List Byte → Nat
  | [] => 0
  | b :: r => b.toNat + 256 * leNat r

/-- The number in `n` bytes at an offset of a byte list; bytes beyond the list count as 0. -/
def leAt (bs : List Byte) (off n : Nat) : Nat := leNat ((bs.drop off).take n)

/-- Bytes padded with zeros, or cut, to a length. -/
def padTo (n : Nat) (bs : List Byte) : List Byte := (bs ++ List.replicate (n - bs.length) 0).take n

/-- A number's bits from `lo`, `w` of them. -/
def bitsOf (v lo w : Nat) : Nat := v / 2 ^ lo % 2 ^ w

/-- Round up to whole units. -/
def ceilDiv (a b : Nat) : Nat := (a + b - 1) / b

/-- Cut a list into pieces of `n`; the fuel bounds the number of pieces. -/
def chunks {α : Type} (n : Nat) : Nat → List α → List (List α)
  | 0, _ => []
  | f + 1, l => if l.isEmpty then [] else l.take n :: chunks n f (l.drop n)

/-! ### Pool memory homed here (11 R307, R308) -/

/-- Canonical form: addresses strictly rising, no entry equal to the 0 that an unlisted byte reads as. -/
def Memory.wf : List Host.Cell → Bool
  | [] => true
  | [(_, b)] => b != 0
  | (a, b) :: (a', b') :: r => b != 0 && decide (a < a') && Memory.wf ((a', b') :: r)

/-- One byte. -/
def memRead : List Host.Cell → Nat → Byte
  | [], _ => 0
  | (a, v) :: r, k => if a = k then v else memRead r k

/-- One byte written; a 0 leaves no entry. -/
def memWrite : List Host.Cell → Nat → Byte → List Host.Cell
  | [], k, v => if v = 0 then [] else [(k, v)]
  | (a, w) :: r, k, v =>
    if a < k then (a, w) :: memWrite r k v
    else if a = k then (if v = 0 then r else (k, v) :: r)
    else if v = 0 then (a, w) :: r else (k, v) :: (a, w) :: r

/-- Bytes written upward from an address. -/
def memWriteL (m : List Host.Cell) (a : Nat) : List Byte → List Host.Cell
  | [] => m
  | b :: r => memWriteL (memWrite m a b) (a + 1) r

/-- Bytes read upward from an address. -/
def memReadL (m : List Host.Cell) (a : Nat) : Nat → List Byte
  | 0 => []
  | n + 1 => memRead m a :: memReadL m (a + 1) n

/-- A range zeroed. -/
def memZero (m : List Host.Cell) (a n : Nat) : List Host.Cell :=
  m.filter fun c => decide (c.1 < a ∨ a + n ≤ c.1)

/-- Bytes of a pool page. -/
def pageBytes : Nat := 65536

/-! ### Outcomes -/

/-- The outcome of a command: a next state, a fault or a refusal. -/
abbrev Res := Host.Outcome State Fault Refusal

/-- An effect on the device alone. -/
def onDev (s : State) (f : Dev → Dev) : Res := .next { s with dev := f s.dev }

/-- The outcome of a command whose operands lie in their ranges; any other is refused (WellFormed.lean). -/
def guarded (i : Instr) (k : Res) : Res := if i.wf then k else .refused .operandRange

/-- A partition whose TDI is in ERROR, or being scrubbed, makes no host access (13 R357). -/
def Dev.dmaStopped (d : Dev) (p : Nat) : Bool :=
  match tget d.sec.tdi p with
  | some .error => true
  | some .scrubbing => true
  | _ => false

/-- TEE_ONLY is set for a partition's masters: its TDI is in RUN (13 R357). -/
def Dev.teeOnly (d : Dev) (p : Nat) : Bool := tget d.sec.tdi p == some .run

/-- Something sent. -/
def Dev.emit (d : Dev) (o : Out) : Dev := { d with out := o :: d.out }

/-- Something that a partition sends to its host. -/
def Dev.emitFor (d : Dev) (p : Nat) (o : Out) : Dev := if d.dmaStopped p then d else d.emit o

/-- Several things sent, in order. -/
def Dev.emits (d : Dev) (os : List Out) : Dev := { d with out := os.reverse ++ d.out }

/-- A free value (log 8), and the device with the counter advanced. -/
def Dev.draw (d : Dev) : U64 × Dev := (Config.freeValue d.free, { d with free := d.free + 1 })

/-! ### The clock -/

/-- One tick of the 100 MHz reference (02 Table 02.3): the timestamp counter advances by 10 ns, or by 5 while a negative
correction is absorbed at half rate (02 R45). DESIGN CHOICE (log 1): time passes when nothing is commanded. -/
def tick (s : State) : State :=
  let c := s.dev.clock
  let c' : Clock := if c.slew = 0 then { c with now := c.now + 10 } else { now := c.now + 5, slew := c.slew - 5 }
  { s with dev := { s.dev with clock := c' } }

end Sys2Proof.Machine
end

