-- ==== Sys2Proof/Machine/Codes.lean ====
section
/-! DEFINITION. Check codes and field records: CRC-64/XZ and CRC-32C (05_state_tiers_peat.md R122), the frame header
(11_dxl_fabric_pool.md Table 11.2) and the bytes of the records that the device writes to host memory. -/

namespace Sys2Proof.Machine

/-- One step of a reflected CRC for one bit. -/
def crcBit {n : Nat} (poly : BitVec n) (c : BitVec n) : BitVec n := if c.getLsbD 0 then (c >>> 1) ^^^ poly else c >>> 1

/-- One byte of a reflected CRC. -/
def crcByte {n : Nat} (poly : BitVec n) (c : BitVec n) (b : Byte) : BitVec n :=
  (List.range 8).foldl (fun c _ => crcBit poly c) (c ^^^ b.setWidth n)

/-- CRC-64/XZ: ECMA-182 polynomial, reflected, initial and final XOR all ones (R122). -/
def crc64 (bs : List Byte) : U64 := ~~~(bs.foldl (crcByte 0xC96C5795D7870F42) (BitVec.allOnes 64))

/-- CRC-32C (R122). -/
def crc32c (bs : List Byte) : U32 := ~~~(bs.foldl (crcByte 0x82F63B78) (BitVec.allOnes 32))

/-- Bytes of a run of fields: size in bytes and value of each. -/
def record (fs : List (Nat × Nat)) : List Byte := fs.flatMap fun f => leBytes f.1 f.2

/-- The 48-byte header of a frame (11 Table 11.2); LENGTH counts the payload. -/
def frameHeader (f : Frame) : List Byte :=
  record [(1, f.type.toNat), (1, f.chan % 64), (2, (if f.enc then 1 else 0) + (if f.shared then 2 else 0)),
          (4, f.payload.length), (2, f.src % 4096), (2, f.dst % 4096), (2, f.master % 4096),
          (1, f.status.toNat), (1, f.sub.toNat), (2, f.keyId.toNat), (2, f.keyGen.toNat), (4, f.tag.toNat),
          (8, f.addr.toNat), (4, f.epoch.toNat), (4, 0), (8, f.nonce.toNat)]

/-- All bytes of a frame: header, payload and, when ENC is set, the GCM tag (11 R296). -/
def frameBytes (f : Frame) : List Byte :=
  frameHeader f ++ f.payload ++ (if f.enc then leBytes 16 f.gtag.toNat else [])

/-- The frame that bytes spell; none when reserved bits are set or the length does not fit (11 R296, Table 11.2). -/
def frameOfBytes (bs : List Byte) : Option Frame :=
  let len := leAt bs 4 4
  let flags := leAt bs 2 2
  let enc := flags % 2 == 1
  if bs.length < 48 + len + (if enc then 16 else 0) ∨ flags ≥ 4 ∨ leAt bs 1 1 ≥ 64 ∨ leAt bs 8 2 ≥ 4096 ∨
      leAt bs 10 2 ≥ 4096 ∨ len > 65536 then none
  else
    some { type := BitVec.ofNat 8 (leAt bs 0 1), chan := leAt bs 1 1, enc := enc, shared := flags / 2 % 2 == 1,
           src := leAt bs 8 2, dst := leAt bs 10 2, master := leAt bs 12 2 % 4096, status := BitVec.ofNat 8 (leAt bs 14 1),
           sub := BitVec.ofNat 8 (leAt bs 15 1), keyId := BitVec.ofNat 16 (leAt bs 16 2),
           keyGen := BitVec.ofNat 16 (leAt bs 18 2), tag := BitVec.ofNat 32 (leAt bs 20 4),
           addr := BitVec.ofNat 64 (leAt bs 24 8), epoch := BitVec.ofNat 32 (leAt bs 32 4),
           nonce := BitVec.ofNat 64 (leAt bs 40 8), payload := (bs.drop 48).take len,
           gtag := BitVec.ofNat 128 (if enc then leAt bs (48 + len) 16 else 0) }

/-- Bytes of a frame on the wire: whole 256 B flits of 240 frame bytes (11 R295, 12 R330). -/
def wireBytes (n : Nat) : Nat := ceilDiv n 240 * 256

end Sys2Proof.Machine
end

