-- ==== Sys2Proof/Machine/Regs.lean ====
section
/-! DEFINITION. The registers of BAR0: Table 17.1 (17_registers_connectors.md R441) with the field maps of the files
named in Table 00.4. A register is named by its BAR0 offset; a field by its register's offset, lowest bit and width. -/

namespace Sys2Proof.Machine

/-- Coherence class of a register (02_handshake_timing.md R32). -/
inductive RegClass where
  | live
  | stepLatched
  | boundaryApplied
  deriving DecidableEq, Repr

/-- One row of Table 17.1: offset of instance 0, number of instances 8 bytes apart, how many instances each partition
has (0: the register is global), class, value at reset, and the bits of each access type of Table 00.3. -/
structure RegInfo where
  base    : Nat
  count   : Nat
  perPart : Nat
  cls     : RegClass
  reset   : U64
  rw      : U64
  w1c     : U64
  rc      : U64
  wo      : U64
  deriving DecidableEq, Repr

/-- A field of a register. -/
structure Fld where
  off : Nat
  lo  : Nat
  w   : Nat
  deriving DecidableEq, Repr

/-- The GLB block. -/
def regsGLB : List RegInfo := [
  ⟨0x000000, 1, 0, .live, 0x71000, 0x0, 0x0, 0x0, 0x0⟩,  -- GLB_ID
  ⟨0x000008, 1, 0, .live, 0x0, 0x0, 0x0, 0x0, 0x0⟩,  -- GLB_ASSEMBLY
  ⟨0x000010, 1, 0, .live, 0x0, 0x0, 0x0, 0x0, 0x0⟩,  -- GLB_FW
  ⟨0x000018, 1, 0, .live, 0x0, 0x0, 0x3, 0x0, 0x0⟩,  -- GLB_STATUS
  ⟨0x000020, 1, 0, .live, 0x0, 0x0, 0x0, 0x0, 0x0⟩,  -- GLB_TIME
  ⟨0x000200, 8, 1, .boundaryApplied, 0x0, 0x3E7, 0x0, 0x0, 0x0⟩,  -- GLB_SYNC_CFG_p
  ⟨0x000240, 8, 1, .live, 0x0, 0x0, 0x3, 0x0, 0x0⟩,  -- GLB_STEP_STATUS_p
  ⟨0x000280, 8, 1, .stepLatched, 0x0, 0x0, 0x0, 0x0, 0x0⟩,  -- GLB_STEP_NUMBER_p
  ⟨0x0002C0, 8, 1, .stepLatched, 0x0, 0x0, 0x0, 0x0, 0x0⟩,  -- GLB_STEP_TIME_p
  ⟨0x000300, 9, 0, .live, 0xFFFF00000000, 0x0, 0x0, 0xFFFF00000000, 0x0⟩]  -- GLB_BEAT_RATE_d

/-- The RNG block. -/
def regsRNG : List RegInfo := [
  ⟨0x010000, 8, 1, .live, 0x0, 0x0, 0x0, 0x0, 0x0⟩,  -- RNG_PART_RINGS_p
  ⟨0x010040, 8, 1, .live, 0x0, 0x0, 0x0, 0x0, 0xFFFFFFFFFFFFFFFF⟩,  -- RNG_WAKE_p
  ⟨0x010080, 8, 1, .live, 0x0, 0xFFFFFFFFFFFFFFC1, 0x0, 0x0, 0x0⟩,  -- RNG_DB_BASE_p
  ⟨0x0100C0, 8, 1, .live, 0x8, 0x7F, 0x0, 0x0, 0x0⟩,  -- RNG_SCAN_CFG_p
  ⟨0x010100, 8, 1, .live, 0x0, 0xFFFFFFFFFFFFF01F, 0x0, 0x0, 0x0⟩,  -- RNG_ADMIN_SQ_p
  ⟨0x010140, 8, 1, .live, 0x0, 0xFFFFFFFFFFFFF01F, 0x0, 0x0, 0x0⟩,  -- RNG_ADMIN_CQ_p
  ⟨0x010180, 8, 1, .live, 0x0, 0xFFFFFFFFFFFFF01F, 0x0, 0x0, 0x0⟩,  -- RNG_ERRLOG_p
  ⟨0x0101C0, 8, 1, .live, 0x0, 0xFFFFFFFFFFFFF01F, 0x0, 0x0, 0x0⟩,  -- RNG_TELEM_p
  ⟨0x010200, 8, 1, .live, 0x0, 0x7FF07FF07FF, 0x0, 0x0, 0x0⟩,  -- RNG_EVENT_VEC_p
  ⟨0x010240, 8, 1, .live, 0x0, 0x0, 0xF, 0x0, 0x0⟩,  -- RNG_STATUS_p
  ⟨0x010280, 8, 1, .live, 0x0, 0x0, 0x0, 0x0, 0x0⟩]  -- RNG_FETCH_COUNT_p

/-- The TUS block. -/
def regsTUS : List RegInfo := [
  ⟨0x020000, 1, 0, .live, 0x8000000400000, 0x0, 0x0, 0x0, 0x0⟩,  -- TUS_CAPACITY
  ⟨0x020008, 1, 0, .live, 0x0, 0x0, 0x0, 0x0, 0x0⟩,  -- TUS_TABLE_BASE
  ⟨0x020010, 1, 0, .live, 0x0, 0x0, 0x0, 0x0, 0x0⟩,  -- TUS_CACHE_STATS
  ⟨0x020018, 1, 0, .live, 0x0, 0x0, 0x3, 0x0, 0x0⟩,  -- TUS_STATUS
  ⟨0x020040, 8, 1, .live, 0x0, 0x0, 0x0, 0x0, 0x0⟩,  -- TUS_PART_p
  ⟨0x020080, 8, 1, .boundaryApplied, 0x0, 0xFFF0001, 0x0, 0x0, 0x0⟩,  -- TUS_MIRROR_CFG_p
  ⟨0x0200C0, 8, 1, .stepLatched, 0x0, 0x0, 0x0, 0x0, 0x0⟩]  -- TUS_COUNT_p

/-- The YOY block. -/
def regsYOY : List RegInfo := [
  ⟨0x030000, 8, 1, .boundaryApplied, 0x6, 0xFFFF000F, 0x0, 0x0, 0x0⟩,  -- YOY_PARK_CFG_p
  ⟨0x030040, 8, 1, .boundaryApplied, 0x102, 0xFF7F, 0x0, 0x0, 0x0⟩,  -- YOY_RECOMP_CFG_p
  ⟨0x030080, 8, 1, .stepLatched, 0x0, 0x0, 0x0, 0x0, 0x0⟩,  -- YOY_BATCH_p
  ⟨0x0300C0, 8, 1, .stepLatched, 0x0, 0x0, 0x0, 0x0, 0x0⟩,  -- YOY_STATUS_p
  ⟨0x030100, 8, 1, .stepLatched, 0x0, 0x0, 0x0, 0x0, 0x0⟩]  -- YOY_QUEUE_p

/-- The TIER block. -/
def regsTIER : List RegInfo := [
  ⟨0x040000, 1, 0, .live, 0x1000000000000, 0x0, 0x0, 0x0, 0x0⟩,  -- TIER_CAPACITY
  ⟨0x040008, 1, 0, .live, 0x0, 0x0, 0x7, 0x0, 0x0⟩,  -- TIER_STATUS
  ⟨0x040010, 1, 0, .live, 0x0, 0x0, 0x0, 0x0, 0x0⟩,  -- TIER_PEAT_STATS
  ⟨0x040018, 1, 0, .live, 0x0, 0x0, 0x0, 0x0, 0x0⟩,  -- TIER_CBW
  ⟨0x040020, 1, 0, .live, 0x0, 0x0, 0x0, 0x0, 0x0⟩,  -- TIER_RESERVE
  ⟨0x040040, 8, 1, .stepLatched, 0x0, 0x0, 0x0, 0x0, 0x0⟩,  -- TIER_FRAMES_p
  ⟨0x040080, 8, 1, .stepLatched, 0x0, 0x0, 0x0, 0x0, 0x0⟩,  -- TIER_WINDOW_p
  ⟨0x0400C0, 8, 1, .boundaryApplied, 0xFFFF1E, 0xFF, 0x0, 0x0, 0x0⟩]  -- TIER_REBUILD_CFG_p

/-- The KVA block. -/
def regsKVA : List RegInfo := [
  ⟨0x050000, 1, 0, .live, 0x0, 0x0, 0x3, 0x0, 0x0⟩,  -- KVA_STATUS
  ⟨0x050008, 1, 0, .live, 0x0, 0x0, 0x0, 0x0, 0x0⟩,  -- KVA_COUNT_BASE
  ⟨0x050040, 8, 1, .stepLatched, 0x0, 0x0, 0x0, 0x0, 0x0⟩,  -- KVA_GEOM_p
  ⟨0x050080, 8, 1, .stepLatched, 0x0, 0x0, 0x0, 0x0, 0x0⟩,  -- KVA_STEP_p
  ⟨0x0500C0, 8, 1, .stepLatched, 0x0, 0x0, 0x0, 0x0, 0x0⟩,  -- KVA_FRAMES_p
  ⟨0x050100, 8, 1, .stepLatched, 0x0, 0x0, 0x0, 0x0, 0x0⟩]  -- KVA_RECLAIM_p

/-- The ARI block. -/
def regsARI : List RegInfo := [
  ⟨0x060000, 1, 0, .live, 0x800001003F, 0x0, 0x0, 0x0, 0x0⟩,  -- ARI_CAPS
  ⟨0x060008, 1, 0, .live, 0x0, 0x0, 0x7, 0x0, 0x0⟩,  -- ARI_STATUS
  ⟨0x060010, 1, 0, .live, 0x0, 0x0, 0x0, 0x0, 0x0⟩,  -- ARI_CAL
  ⟨0x060040, 8, 1, .boundaryApplied, 0x28F051F00000308, 0xFFFFFFFF00000F1F, 0x0, 0x0, 0x0⟩,  -- ARI_SHADOW_CFG_p
  ⟨0x060080, 8, 1, .stepLatched, 0xFF000000000000, 0x0, 0x0, 0x0, 0x0⟩,  -- ARI_ESC_p
  ⟨0x0600C0, 8, 1, .live, 0x0, 0x0, 0x0, 0x0, 0x1FF⟩,  -- ARI_ESC_CLEAR_p
  ⟨0x060100, 8, 1, .stepLatched, 0x0, 0x0, 0x0, 0x0, 0x0⟩,  -- ARI_SAT_p
  ⟨0x060140, 8, 1, .stepLatched, 0x0, 0x0, 0x0, 0x0, 0x0⟩,  -- ARI_SHADOW_p
  ⟨0x060180, 8, 1, .live, 0x0, 0x0, 0x0, 0x0, 0x0⟩]  -- ARI_ROUND_SEED_p

/-- The PLC block. -/
def regsPLC : List RegInfo := [
  ⟨0x070000, 1, 0, .live, 0x48020000100, 0x0, 0x0, 0x0, 0x0⟩,  -- PLC_CAPS
  ⟨0x070008, 1, 0, .live, 0x0, 0x0, 0x3, 0x0, 0x0⟩,  -- PLC_STATUS
  ⟨0x070010, 4, 0, .live, 0x0, 0x0, 0x0, 0x0, 0x0⟩,  -- PLC_CORE_MASK_d
  ⟨0x070040, 8, 1, .stepLatched, 0x0, 0x0, 0x0, 0x0, 0x0⟩,  -- PLC_JOB_p
  ⟨0x070080, 8, 1, .live, 0x0, 0x0, 0x0, 0x0, 0x0⟩,  -- PLC_SEM_p
  ⟨0x0700C0, 8, 1, .stepLatched, 0x0, 0x0, 0x0, 0x0, 0x0⟩,  -- PLC_SWITCH_p
  ⟨0x070100, 8, 1, .stepLatched, 0x0, 0x0, 0x0, 0x0, 0x0⟩,  -- PLC_CORE_p
  ⟨0x070200, 32, 4, .live, 0x0, 0x0, 0x0, 0x0, 0x0⟩]  -- PLC_PART_CORES_p_d

/-- The TOK block. -/
def regsTOK : List RegInfo := [
  ⟨0x080000, 1, 0, .live, 0x10000000402010, 0x0, 0x0, 0x0, 0x0⟩,  -- TOK_CAPS
  ⟨0x080008, 1, 0, .live, 0x0, 0x0, 0x1, 0x0, 0x0⟩,  -- TOK_STATUS
  ⟨0x080010, 1, 0, .live, 0x0, 0x0, 0x0, 0x0, 0x0⟩,  -- TOK_CACHE_STATS
  ⟨0x080040, 8, 1, .live, 0x0, 0x0, 0x0, 0x0, 0x0⟩,  -- TOK_BIND_p
  ⟨0x080080, 8, 1, .stepLatched, 0x0, 0x0, 0x0, 0x0, 0x0⟩,  -- TOK_INPUT_p
  ⟨0x0800C0, 8, 1, .stepLatched, 0x0, 0x0, 0x0, 0x0, 0x0⟩]  -- TOK_OUTPUT_p

/-- The RED block. -/
def regsRED : List RegInfo := [
  ⟨0x090000, 1, 0, .live, 0x1000C0021000, 0x0, 0x0, 0x0, 0x0⟩,  -- RED_CAPS
  ⟨0x090008, 1, 0, .live, 0x0, 0x0, 0x1, 0x0, 0x0⟩,  -- RED_STATUS
  ⟨0x090010, 1, 0, .live, 0x0, 0x0, 0x0, 0x0, 0x0⟩,  -- RED_STATS
  ⟨0x090040, 8, 1, .live, 0x0, 0x0, 0x0, 0x0, 0x0⟩,  -- RED_PART_p
  ⟨0x090080, 8, 1, .live, 0x0, 0x0, 0x0, 0x0, 0x0⟩,  -- RED_QUOTA_p
  ⟨0x0900C0, 8, 1, .live, 0x0, 0x0, 0x0, 0x0, 0x0⟩,  -- RED_LOAD_p
  ⟨0x090100, 8, 1, .live, 0xC01, 0x1F01, 0x0, 0x0, 0x0⟩]  -- RED_MERGE_CFG_p

/-- The FAB block. -/
def regsFAB : List RegInfo := [
  ⟨0x0A0000, 1, 0, .live, 0x0, 0x0, 0x0, 0x0, 0x0⟩,  -- FAB_ID
  ⟨0x0A0008, 1, 0, .live, 0x20000800, 0x0, 0x0, 0x0, 0x0⟩,  -- FAB_CAPS
  ⟨0x0A0010, 1, 0, .live, 0x0, 0x0, 0xF, 0x0, 0x0⟩,  -- FAB_STATUS
  ⟨0x0A0018, 1, 0, .live, 0x0, 0x0, 0x0, 0x0, 0x0⟩,  -- FAB_EVENTS
  ⟨0x0A0020, 1, 0, .live, 0x0, 0x0, 0x0, 0x0, 0x0⟩,  -- FAB_LEND
  ⟨0x0A0028, 1, 0, .live, 0x14003A, 0xFFFF0000, 0x0, 0x0, 0x0⟩,  -- FAB_POOL_CFG
  ⟨0x0A0030, 1, 0, .live, 0x100000000, 0x0, 0x0, 0x0, 0x0⟩,  -- FAB_DIR
  ⟨0x0A0100, 32, 0, .live, 0x0, 0x0, 0x0, 0x0, 0x0⟩,  -- FAB_PORT_n
  ⟨0x0A0200, 32, 0, .live, 0x0, 0x0, 0x0, 0x0, 0x0⟩,  -- FAB_PORT_CNT_n
  ⟨0x0A0300, 64, 0, .live, 0x0, 0x0, 0x0, 0x0, 0x0⟩]  -- FAB_ROUTE_k

/-- The SLU block. -/
def regsSLU : List RegInfo := [
  ⟨0x0B0000, 1, 0, .live, 0x400010000804, 0x0, 0x0, 0x0, 0x0⟩,  -- SLU_CAPS
  ⟨0x0B0008, 1, 0, .live, 0x0, 0x0, 0x1, 0x0, 0x0⟩,  -- SLU_STATUS
  ⟨0x0B0010, 1, 0, .live, 0x1003E8, 0xFFFFFF, 0x0, 0x0, 0x0⟩,  -- SLU_SAMPLE_CFG
  ⟨0x0B0040, 8, 0, .live, 0x800000FA00000000, 0x80FFFFFFFFFFFFFF, 0x0, 0x0, 0x0⟩,  -- SLU_BINSET_k
  ⟨0x0B0080, 8, 1, .live, 0x0, 0x0, 0x0, 0x0, 0x0⟩,  -- SLU_PART_p
  ⟨0x0B00C0, 8, 1, .live, 0x0, 0x7777, 0x0, 0x0, 0x0⟩,  -- SLU_QCFG_p
  ⟨0x0B0100, 8, 1, .live, 0x0, 0x0, 0x0, 0x0, 0x0⟩,  -- SLU_DQ_p
  ⟨0x0B0140, 8, 1, .live, 0x0, 0x0, 0x0, 0x0, 0x0⟩]  -- SLU_DROPS_p

/-- The SEC block. -/
def regsSEC : List RegInfo := [
  ⟨0x0C0000, 1, 0, .live, 0x910000000, 0x0, 0x0, 0x0, 0x0⟩,  -- SEC_CAPS
  ⟨0x0C0008, 1, 0, .live, 0x0, 0x0, 0x1F, 0x0, 0x0⟩,  -- SEC_STATUS
  ⟨0x0C0010, 1, 0, .live, 0x0, 0x0, 0x0, 0x0, 0x0⟩,  -- SEC_EVENTS
  ⟨0x0C0018, 1, 0, .live, 0x0, 0x0, 0x0, 0x0, 0x0⟩,  -- SEC_BOOT_EPOCH
  ⟨0x0C0040, 8, 1, .live, 0x0, 0x0, 0x0, 0x0, 0x0⟩,  -- SEC_PART_p
  ⟨0x0C0080, 8, 1, .live, 0x0, 0x0, 0x0, 0x0, 0x0⟩,  -- SEC_TDI_p
  ⟨0x0C00C0, 8, 1, .live, 0x0, 0x0, 0x0, 0x0, 0x0⟩]  -- SEC_DROPS_p

/-- The CKP block. -/
def regsCKP : List RegInfo := [
  ⟨0x0D0000, 1, 0, .live, 0x2001000010, 0x0, 0x0, 0x0, 0x0⟩,  -- CKP_CAPS
  ⟨0x0D0008, 1, 0, .live, 0x0, 0x0, 0x7, 0x0, 0x0⟩,  -- CKP_STATUS
  ⟨0x0D0040, 8, 1, .live, 0x640182, 0xFFFF01F7, 0x0, 0x0, 0x0⟩,  -- CKP_CFG_p
  ⟨0x0D0080, 8, 1, .stepLatched, 0x0, 0x0, 0x0, 0x0, 0x0⟩,  -- CKP_LAST_p
  ⟨0x0D00C0, 8, 1, .live, 0x0, 0x0, 0x0, 0x0, 0x0⟩]  -- CKP_PROGRESS_p

/-- The LDG block. -/
def regsLDG : List RegInfo := [
  ⟨0x0E0000, 1, 0, .live, 0x20000000000606, 0x0, 0x0, 0x0, 0x0⟩,  -- LDG_CAPS
  ⟨0x0E0008, 1, 0, .live, 0x0, 0x0, 0x3F, 0x0, 0x0⟩,  -- LDG_STATUS
  ⟨0x0E0010, 1, 0, .live, 0x0, 0x0, 0x0, 0x0, 0x0⟩,  -- LDG_EVENTS
  ⟨0x0E0018, 1, 0, .live, 0x0, 0x0, 0x0, 0x0, 0x0⟩,  -- LDG_GUARANTEE
  ⟨0x0E0020, 1, 0, .live, 0x0, 0x0, 0x0, 0x0, 0x0⟩,  -- LDG_ECC
  ⟨0x0E0028, 1, 0, .live, 0x20018, 0xFF00FF, 0x0, 0x0, 0x0⟩,  -- LDG_SCRUB_CFG
  ⟨0x0E0030, 1, 0, .live, 0x0, 0x0, 0x0, 0x0, 0x0⟩,  -- LDG_OVERLAY
  ⟨0x0E0038, 1, 0, .live, 0x0, 0x10, 0x0, 0x0, 0x0⟩,  -- LDG_SELFTEST
  ⟨0x0E0040, 1, 0, .live, 0x0, 0x0, 0x0, 0x0, 0x0⟩,  -- LDG_DBERR
  ⟨0x0E0048, 1, 0, .live, 0x0, 0x0, 0x0, 0x0, 0x0⟩,  -- LDG_FLASHLOG
  ⟨0x0E0080, 8, 1, .stepLatched, 0xFFFF0000, 0x0, 0x0, 0x0, 0x0⟩]  -- LDG_LAST_p

/-- The PWR block. -/
def regsPWR : List RegInfo := [
  ⟨0x0F0000, 1, 0, .live, 0x232804B000000000, 0x0, 0x0, 0x0, 0x0⟩,  -- PWR_CAPS
  ⟨0x0F0008, 1, 0, .live, 0x1, 0x0, 0x0, 0x0, 0x0⟩,  -- PWR_STATE
  ⟨0x0F0010, 1, 0, .live, 0x0, 0x0, 0xFF, 0x0, 0x0⟩,  -- PWR_STATUS
  ⟨0x0F0018, 1, 0, .live, 0x0, 0x0, 0x0, 0x0, 0x0⟩,  -- PWR_EVENTS
  ⟨0x0F0020, 1, 0, .live, 0x0, 0x0, 0x0, 0x0, 0x0⟩,  -- PWR_INPUT
  ⟨0x0F0028, 1, 0, .live, 0x0, 0xFFFF, 0x0, 0x0, 0x0⟩,  -- PWR_CAP
  ⟨0x0F0030, 1, 0, .live, 0x828282828282, 0x0, 0x0, 0x0, 0x0⟩,  -- PWR_RAILS
  ⟨0x0F0038, 1, 0, .live, 0x0, 0x0, 0x0, 0xFFFFFFFF, 0x0⟩,  -- PWR_THERMAL
  ⟨0x0F0040, 1, 0, .live, 0x555A, 0xFFFF, 0x0, 0x0, 0x0⟩,  -- PWR_TH_CFG
  ⟨0x0F0048, 1, 0, .live, 0x0, 0x0, 0x0, 0x0, 0x0⟩,  -- PWR_COOLANT
  ⟨0x0F0050, 1, 0, .live, 0x0, 0x0, 0x0, 0x0, 0x0⟩,  -- PWR_HOLDUP
  ⟨0x0F0058, 1, 0, .live, 0x28, 0xFF, 0x0, 0x0, 0x0⟩,  -- PWR_HOLDUP_CFG
  ⟨0x0F0060, 1, 0, .live, 0x0, 0x0, 0x0, 0x0, 0xFF03⟩,  -- PWR_CTL
  ⟨0x0F0080, 8, 1, .boundaryApplied, 0x20002, 0x3, 0x0, 0x0, 0x0⟩]  -- PWR_OP_p

/-- The registers of the block at index `b` (Table 00.4). -/
def regsOfBlock (b : Nat) : List RegInfo :=
  match b with
  | 0 => regsGLB
  | 1 => regsRNG
  | 2 => regsTUS
  | 3 => regsYOY
  | 4 => regsTIER
  | 5 => regsKVA
  | 6 => regsARI
  | 7 => regsPLC
  | 8 => regsTOK
  | 9 => regsRED
  | 10 => regsFAB
  | 11 => regsSLU
  | 12 => regsSEC
  | 13 => regsCKP
  | 14 => regsLDG
  | 15 => regsPWR
  | _ => []

/-- The register at a BAR0 offset and its instance number; none where the offset names no register (17 R440). -/
def regAt (off : Nat) : Option (RegInfo × Nat) :=
  match (regsOfBlock (off / 0x10000)).find? fun r => decide (r.base ≤ off ∧ off < r.base + 8 * r.count) with
  | some r => if off % 8 = 0 then some (r, (off - r.base) / 8) else none
  | none => none

/-- Value of the register at an offset right after reset. -/
def regReset (off : Nat) : U64 :=
  match regAt off with
  | some (r, _) => r.reset
  | none => 0

/-- The partition that a register belongs to (13 R347): that of its _p suffix; none for a global register. -/
def RegInfo.part (r : RegInfo) (inst : Nat) : Option Nat :=
  if r.perPart = 0 then none else some (inst / r.perPart)

/-- GLB_ID -/
def GLB_ID : Nat := 0x000000
/-- GLB_ASSEMBLY -/
def GLB_ASSEMBLY : Nat := 0x000008
/-- GLB_FW -/
def GLB_FW : Nat := 0x000010
/-- GLB_STATUS -/
def GLB_STATUS : Nat := 0x000018
/-- GLB_TIME -/
def GLB_TIME : Nat := 0x000020
/-- GLB_SYNC_CFG_p -/
def GLB_SYNC_CFG (p : Nat) : Nat := 0x000200 + 8 * p
/-- GLB_STEP_STATUS_p -/
def GLB_STEP_STATUS (p : Nat) : Nat := 0x000240 + 8 * p
/-- GLB_STEP_NUMBER_p -/
def GLB_STEP_NUMBER (p : Nat) : Nat := 0x000280 + 8 * p
/-- GLB_STEP_TIME_p -/
def GLB_STEP_TIME (p : Nat) : Nat := 0x0002C0 + 8 * p
/-- GLB_BEAT_RATE_d -/
def GLB_BEAT_RATE (d : Nat) : Nat := 0x000300 + 8 * d
/-- RNG_PART_RINGS_p -/
def RNG_PART_RINGS (p : Nat) : Nat := 0x010000 + 8 * p
/-- RNG_WAKE_p -/
def RNG_WAKE (p : Nat) : Nat := 0x010040 + 8 * p
/-- RNG_DB_BASE_p -/
def RNG_DB_BASE (p : Nat) : Nat := 0x010080 + 8 * p
/-- RNG_SCAN_CFG_p -/
def RNG_SCAN_CFG (p : Nat) : Nat := 0x0100C0 + 8 * p
/-- RNG_ADMIN_SQ_p -/
def RNG_ADMIN_SQ (p : Nat) : Nat := 0x010100 + 8 * p
/-- RNG_ADMIN_CQ_p -/
def RNG_ADMIN_CQ (p : Nat) : Nat := 0x010140 + 8 * p
/-- RNG_ERRLOG_p -/
def RNG_ERRLOG (p : Nat) : Nat := 0x010180 + 8 * p
/-- RNG_TELEM_p -/
def RNG_TELEM (p : Nat) : Nat := 0x0101C0 + 8 * p
/-- RNG_EVENT_VEC_p -/
def RNG_EVENT_VEC (p : Nat) : Nat := 0x010200 + 8 * p
/-- RNG_STATUS_p -/
def RNG_STATUS (p : Nat) : Nat := 0x010240 + 8 * p
/-- RNG_FETCH_COUNT_p -/
def RNG_FETCH_COUNT (p : Nat) : Nat := 0x010280 + 8 * p
/-- TUS_CAPACITY -/
def TUS_CAPACITY : Nat := 0x020000
/-- TUS_TABLE_BASE -/
def TUS_TABLE_BASE : Nat := 0x020008
/-- TUS_CACHE_STATS -/
def TUS_CACHE_STATS : Nat := 0x020010
/-- TUS_STATUS -/
def TUS_STATUS : Nat := 0x020018
/-- TUS_PART_p -/
def TUS_PART (p : Nat) : Nat := 0x020040 + 8 * p
/-- TUS_MIRROR_CFG_p -/
def TUS_MIRROR_CFG (p : Nat) : Nat := 0x020080 + 8 * p
/-- TUS_COUNT_p -/
def TUS_COUNT (p : Nat) : Nat := 0x0200C0 + 8 * p
/-- YOY_PARK_CFG_p -/
def YOY_PARK_CFG (p : Nat) : Nat := 0x030000 + 8 * p
/-- YOY_RECOMP_CFG_p -/
def YOY_RECOMP_CFG (p : Nat) : Nat := 0x030040 + 8 * p
/-- YOY_BATCH_p -/
def YOY_BATCH (p : Nat) : Nat := 0x030080 + 8 * p
/-- YOY_STATUS_p -/
def YOY_STATUS (p : Nat) : Nat := 0x0300C0 + 8 * p
/-- YOY_QUEUE_p -/
def YOY_QUEUE (p : Nat) : Nat := 0x030100 + 8 * p
/-- TIER_CAPACITY -/
def TIER_CAPACITY : Nat := 0x040000
/-- TIER_STATUS -/
def TIER_STATUS : Nat := 0x040008
/-- TIER_PEAT_STATS -/
def TIER_PEAT_STATS : Nat := 0x040010
/-- TIER_CBW -/
def TIER_CBW : Nat := 0x040018
/-- TIER_RESERVE -/
def TIER_RESERVE : Nat := 0x040020
/-- TIER_FRAMES_p -/
def TIER_FRAMES (p : Nat) : Nat := 0x040040 + 8 * p
/-- TIER_WINDOW_p -/
def TIER_WINDOW (p : Nat) : Nat := 0x040080 + 8 * p
/-- TIER_REBUILD_CFG_p -/
def TIER_REBUILD_CFG (p : Nat) : Nat := 0x0400C0 + 8 * p
/-- KVA_STATUS -/
def KVA_STATUS : Nat := 0x050000
/-- KVA_COUNT_BASE -/
def KVA_COUNT_BASE : Nat := 0x050008
/-- KVA_GEOM_p -/
def KVA_GEOM (p : Nat) : Nat := 0x050040 + 8 * p
/-- KVA_STEP_p -/
def KVA_STEP (p : Nat) : Nat := 0x050080 + 8 * p
/-- KVA_FRAMES_p -/
def KVA_FRAMES (p : Nat) : Nat := 0x0500C0 + 8 * p
/-- KVA_RECLAIM_p -/
def KVA_RECLAIM (p : Nat) : Nat := 0x050100 + 8 * p
/-- ARI_CAPS -/
def ARI_CAPS : Nat := 0x060000
/-- ARI_STATUS -/
def ARI_STATUS : Nat := 0x060008
/-- ARI_CAL -/
def ARI_CAL : Nat := 0x060010
/-- ARI_SHADOW_CFG_p -/
def ARI_SHADOW_CFG (p : Nat) : Nat := 0x060040 + 8 * p
/-- ARI_ESC_p -/
def ARI_ESC (p : Nat) : Nat := 0x060080 + 8 * p
/-- ARI_ESC_CLEAR_p -/
def ARI_ESC_CLEAR (p : Nat) : Nat := 0x0600C0 + 8 * p
/-- ARI_SAT_p -/
def ARI_SAT (p : Nat) : Nat := 0x060100 + 8 * p
/-- ARI_SHADOW_p -/
def ARI_SHADOW (p : Nat) : Nat := 0x060140 + 8 * p
/-- ARI_ROUND_SEED_p -/
def ARI_ROUND_SEED (p : Nat) : Nat := 0x060180 + 8 * p
/-- PLC_CAPS -/
def PLC_CAPS : Nat := 0x070000
/-- PLC_STATUS -/
def PLC_STATUS : Nat := 0x070008
/-- PLC_CORE_MASK_d -/
def PLC_CORE_MASK (d : Nat) : Nat := 0x070010 + 8 * d
/-- PLC_JOB_p -/
def PLC_JOB (p : Nat) : Nat := 0x070040 + 8 * p
/-- PLC_SEM_p -/
def PLC_SEM (p : Nat) : Nat := 0x070080 + 8 * p
/-- PLC_SWITCH_p -/
def PLC_SWITCH (p : Nat) : Nat := 0x0700C0 + 8 * p
/-- PLC_CORE_p -/
def PLC_CORE (p : Nat) : Nat := 0x070100 + 8 * p
/-- PLC_PART_CORES_p_d -/
def PLC_PART_CORES (p d : Nat) : Nat := 0x070200 + 32 * p + 8 * d
/-- TOK_CAPS -/
def TOK_CAPS : Nat := 0x080000
/-- TOK_STATUS -/
def TOK_STATUS : Nat := 0x080008
/-- TOK_CACHE_STATS -/
def TOK_CACHE_STATS : Nat := 0x080010
/-- TOK_BIND_p -/
def TOK_BIND (p : Nat) : Nat := 0x080040 + 8 * p
/-- TOK_INPUT_p -/
def TOK_INPUT (p : Nat) : Nat := 0x080080 + 8 * p
/-- TOK_OUTPUT_p -/
def TOK_OUTPUT (p : Nat) : Nat := 0x0800C0 + 8 * p
/-- RED_CAPS -/
def RED_CAPS : Nat := 0x090000
/-- RED_STATUS -/
def RED_STATUS : Nat := 0x090008
/-- RED_STATS -/
def RED_STATS : Nat := 0x090010
/-- RED_PART_p -/
def RED_PART (p : Nat) : Nat := 0x090040 + 8 * p
/-- RED_QUOTA_p -/
def RED_QUOTA (p : Nat) : Nat := 0x090080 + 8 * p
/-- RED_LOAD_p -/
def RED_LOAD (p : Nat) : Nat := 0x0900C0 + 8 * p
/-- RED_MERGE_CFG_p -/
def RED_MERGE_CFG (p : Nat) : Nat := 0x090100 + 8 * p
/-- FAB_ID -/
def FAB_ID : Nat := 0x0A0000
/-- FAB_CAPS -/
def FAB_CAPS : Nat := 0x0A0008
/-- FAB_STATUS -/
def FAB_STATUS : Nat := 0x0A0010
/-- FAB_EVENTS -/
def FAB_EVENTS : Nat := 0x0A0018
/-- FAB_LEND -/
def FAB_LEND : Nat := 0x0A0020
/-- FAB_POOL_CFG -/
def FAB_POOL_CFG : Nat := 0x0A0028
/-- FAB_DIR -/
def FAB_DIR : Nat := 0x0A0030
/-- FAB_PORT_n -/
def FAB_PORT (n : Nat) : Nat := 0x0A0100 + 8 * n
/-- FAB_PORT_CNT_n -/
def FAB_PORT_CNT (n : Nat) : Nat := 0x0A0200 + 8 * n
/-- FAB_ROUTE_k -/
def FAB_ROUTE (k : Nat) : Nat := 0x0A0300 + 8 * k
/-- SLU_CAPS -/
def SLU_CAPS : Nat := 0x0B0000
/-- SLU_STATUS -/
def SLU_STATUS : Nat := 0x0B0008
/-- SLU_SAMPLE_CFG -/
def SLU_SAMPLE_CFG : Nat := 0x0B0010
/-- SLU_BINSET_k -/
def SLU_BINSET (k : Nat) : Nat := 0x0B0040 + 8 * k
/-- SLU_PART_p -/
def SLU_PART (p : Nat) : Nat := 0x0B0080 + 8 * p
/-- SLU_QCFG_p -/
def SLU_QCFG (p : Nat) : Nat := 0x0B00C0 + 8 * p
/-- SLU_DQ_p -/
def SLU_DQ (p : Nat) : Nat := 0x0B0100 + 8 * p
/-- SLU_DROPS_p -/
def SLU_DROPS (p : Nat) : Nat := 0x0B0140 + 8 * p
/-- SEC_CAPS -/
def SEC_CAPS : Nat := 0x0C0000
/-- SEC_STATUS -/
def SEC_STATUS : Nat := 0x0C0008
/-- SEC_EVENTS -/
def SEC_EVENTS : Nat := 0x0C0010
/-- SEC_BOOT_EPOCH -/
def SEC_BOOT_EPOCH : Nat := 0x0C0018
/-- SEC_PART_p -/
def SEC_PART (p : Nat) : Nat := 0x0C0040 + 8 * p
/-- SEC_TDI_p -/
def SEC_TDI (p : Nat) : Nat := 0x0C0080 + 8 * p
/-- SEC_DROPS_p -/
def SEC_DROPS (p : Nat) : Nat := 0x0C00C0 + 8 * p
/-- CKP_CAPS -/
def CKP_CAPS : Nat := 0x0D0000
/-- CKP_STATUS -/
def CKP_STATUS : Nat := 0x0D0008
/-- CKP_CFG_p -/
def CKP_CFG (p : Nat) : Nat := 0x0D0040 + 8 * p
/-- CKP_LAST_p -/
def CKP_LAST (p : Nat) : Nat := 0x0D0080 + 8 * p
/-- CKP_PROGRESS_p -/
def CKP_PROGRESS (p : Nat) : Nat := 0x0D00C0 + 8 * p
/-- LDG_CAPS -/
def LDG_CAPS : Nat := 0x0E0000
/-- LDG_STATUS -/
def LDG_STATUS : Nat := 0x0E0008
/-- LDG_EVENTS -/
def LDG_EVENTS : Nat := 0x0E0010
/-- LDG_GUARANTEE -/
def LDG_GUARANTEE : Nat := 0x0E0018
/-- LDG_ECC -/
def LDG_ECC : Nat := 0x0E0020
/-- LDG_SCRUB_CFG -/
def LDG_SCRUB_CFG : Nat := 0x0E0028
/-- LDG_OVERLAY -/
def LDG_OVERLAY : Nat := 0x0E0030
/-- LDG_SELFTEST -/
def LDG_SELFTEST : Nat := 0x0E0038
/-- LDG_DBERR -/
def LDG_DBERR : Nat := 0x0E0040
/-- LDG_FLASHLOG -/
def LDG_FLASHLOG : Nat := 0x0E0048
/-- LDG_LAST_p -/
def LDG_LAST (p : Nat) : Nat := 0x0E0080 + 8 * p
/-- PWR_CAPS -/
def PWR_CAPS : Nat := 0x0F0000
/-- PWR_STATE -/
def PWR_STATE : Nat := 0x0F0008
/-- PWR_STATUS -/
def PWR_STATUS : Nat := 0x0F0010
/-- PWR_EVENTS -/
def PWR_EVENTS : Nat := 0x0F0018
/-- PWR_INPUT -/
def PWR_INPUT : Nat := 0x0F0020
/-- PWR_CAP -/
def PWR_CAP : Nat := 0x0F0028
/-- PWR_RAILS -/
def PWR_RAILS : Nat := 0x0F0030
/-- PWR_THERMAL -/
def PWR_THERMAL : Nat := 0x0F0038
/-- PWR_TH_CFG -/
def PWR_TH_CFG : Nat := 0x0F0040
/-- PWR_COOLANT -/
def PWR_COOLANT : Nat := 0x0F0048
/-- PWR_HOLDUP -/
def PWR_HOLDUP : Nat := 0x0F0050
/-- PWR_HOLDUP_CFG -/
def PWR_HOLDUP_CFG : Nat := 0x0F0058
/-- PWR_CTL -/
def PWR_CTL : Nat := 0x0F0060
/-- PWR_OP_p -/
def PWR_OP (p : Nat) : Nat := 0x0F0080 + 8 * p

/-- GLB_ID[63:32] -/
def GLB_ID_SERIAL : Fld := ⟨0x000000, 32, 32⟩
/-- GLB_ID[23:16] -/
def GLB_ID_FAMILY : Fld := ⟨0x000000, 16, 8⟩
/-- GLB_ID[15:8] -/
def GLB_ID_STEPPING : Fld := ⟨0x000000, 8, 8⟩
/-- GLB_ASSEMBLY[19:16] -/
def GLB_ASSEMBLY_HOST_ROLE : Fld := ⟨0x000008, 16, 4⟩
/-- GLB_ASSEMBLY[7:4] -/
def GLB_ASSEMBLY_L_DIES : Fld := ⟨0x000008, 4, 4⟩
/-- GLB_ASSEMBLY[3:0] -/
def GLB_ASSEMBLY_STACKS : Fld := ⟨0x000008, 0, 4⟩
/-- GLB_FW[63:32] -/
def GLB_FW_FW_VERSION : Fld := ⟨0x000010, 32, 32⟩
/-- GLB_FW[31:16] -/
def GLB_FW_SEC_VERSION : Fld := ⟨0x000010, 16, 16⟩
/-- GLB_FW[1] -/
def GLB_FW_SLOT : Fld := ⟨0x000010, 1, 1⟩
/-- GLB_FW[0] -/
def GLB_FW_PRODUCTION : Fld := ⟨0x000010, 0, 1⟩
/-- GLB_STATUS[63:48] -/
def GLB_STATUS_REG_INVALID_COUNT : Fld := ⟨0x000018, 48, 16⟩
/-- GLB_STATUS[47:32] -/
def GLB_STATUS_FN_RESET_COUNT : Fld := ⟨0x000018, 32, 16⟩
/-- GLB_STATUS[1] -/
def GLB_STATUS_FN_RESET : Fld := ⟨0x000018, 1, 1⟩
/-- GLB_STATUS[0] -/
def GLB_STATUS_REG_INVALID : Fld := ⟨0x000018, 0, 1⟩
/-- GLB_SYNC_CFG_p[27:16] -/
def GLB_SYNC_CFG_ROOT_DEVICE (p : Nat) : Fld := ⟨0x000200 + 8 * p, 16, 12⟩
/-- GLB_SYNC_CFG_p[9:5] -/
def GLB_SYNC_CFG_FEED_PORT (p : Nat) : Fld := ⟨0x000200 + 8 * p, 5, 5⟩
/-- GLB_SYNC_CFG_p[2] -/
def GLB_SYNC_CFG_MARK_EN (p : Nat) : Fld := ⟨0x000200 + 8 * p, 2, 1⟩
/-- GLB_SYNC_CFG_p[1:0] -/
def GLB_SYNC_CFG_MODE (p : Nat) : Fld := ⟨0x000200 + 8 * p, 0, 2⟩
/-- GLB_STEP_STATUS_p[47:32] -/
def GLB_STEP_STATUS_LATE_COUNT (p : Nat) : Fld := ⟨0x000240 + 8 * p, 32, 16⟩
/-- GLB_STEP_STATUS_p[31:16] -/
def GLB_STEP_STATUS_EXTRA_COUNT (p : Nat) : Fld := ⟨0x000240 + 8 * p, 16, 16⟩
/-- GLB_STEP_STATUS_p[7:4] -/
def GLB_STEP_STATUS_PHASE (p : Nat) : Fld := ⟨0x000240 + 8 * p, 4, 4⟩
/-- GLB_STEP_STATUS_p[1] -/
def GLB_STEP_STATUS_SYNC_EXTRA (p : Nat) : Fld := ⟨0x000240 + 8 * p, 1, 1⟩
/-- GLB_STEP_STATUS_p[0] -/
def GLB_STEP_STATUS_SYNC_LATE (p : Nat) : Fld := ⟨0x000240 + 8 * p, 0, 1⟩
/-- GLB_STEP_TIME_p[63:32] -/
def GLB_STEP_TIME_SYNC_WAIT_NS (p : Nat) : Fld := ⟨0x0002C0 + 8 * p, 32, 32⟩
/-- GLB_STEP_TIME_p[31:0] -/
def GLB_STEP_TIME_STEP_NS (p : Nat) : Fld := ⟨0x0002C0 + 8 * p, 0, 32⟩
/-- GLB_BEAT_RATE_d[47:32] -/
def GLB_BEAT_RATE_MIN_RATE (d : Nat) : Fld := ⟨0x000300 + 8 * d, 32, 16⟩
/-- GLB_BEAT_RATE_d[15:0] -/
def GLB_BEAT_RATE_RATE (d : Nat) : Fld := ⟨0x000300 + 8 * d, 0, 16⟩
/-- RNG_PART_RINGS_p[59:48] -/
def RNG_PART_RINGS_VEC_COUNT (p : Nat) : Fld := ⟨0x010000 + 8 * p, 48, 12⟩
/-- RNG_PART_RINGS_p[43:32] -/
def RNG_PART_RINGS_VEC_FIRST (p : Nat) : Fld := ⟨0x010000 + 8 * p, 32, 12⟩
/-- RNG_PART_RINGS_p[28:16] -/
def RNG_PART_RINGS_RING_COUNT (p : Nat) : Fld := ⟨0x010000 + 8 * p, 16, 13⟩
/-- RNG_PART_RINGS_p[11:0] -/
def RNG_PART_RINGS_RING_FIRST (p : Nat) : Fld := ⟨0x010000 + 8 * p, 0, 12⟩
/-- RNG_DB_BASE_p[63:6] -/
def RNG_DB_BASE_ADDR (p : Nat) : Fld := ⟨0x010080 + 8 * p, 6, 58⟩
/-- RNG_DB_BASE_p[0] -/
def RNG_DB_BASE_EN (p : Nat) : Fld := ⟨0x010080 + 8 * p, 0, 1⟩
/-- RNG_SCAN_CFG_p[63:32] -/
def RNG_SCAN_CFG_CQ_STALLS (p : Nat) : Fld := ⟨0x0100C0 + 8 * p, 32, 32⟩
/-- RNG_SCAN_CFG_p[6:0] -/
def RNG_SCAN_CFG_PERIOD_US (p : Nat) : Fld := ⟨0x0100C0 + 8 * p, 0, 7⟩
/-- RNG_ADMIN_SQ_p[63:12] -/
def RNG_ADMIN_SQ_BASE (p : Nat) : Fld := ⟨0x010100 + 8 * p, 12, 52⟩
/-- RNG_ADMIN_SQ_p[4:0] -/
def RNG_ADMIN_SQ_LOG2 (p : Nat) : Fld := ⟨0x010100 + 8 * p, 0, 5⟩
/-- RNG_ADMIN_CQ_p[63:12] -/
def RNG_ADMIN_CQ_BASE (p : Nat) : Fld := ⟨0x010140 + 8 * p, 12, 52⟩
/-- RNG_ADMIN_CQ_p[4:0] -/
def RNG_ADMIN_CQ_LOG2 (p : Nat) : Fld := ⟨0x010140 + 8 * p, 0, 5⟩
/-- RNG_ERRLOG_p[63:12] -/
def RNG_ERRLOG_BASE (p : Nat) : Fld := ⟨0x010180 + 8 * p, 12, 52⟩
/-- RNG_ERRLOG_p[4:0] -/
def RNG_ERRLOG_LOG2 (p : Nat) : Fld := ⟨0x010180 + 8 * p, 0, 5⟩
/-- RNG_TELEM_p[63:12] -/
def RNG_TELEM_BASE (p : Nat) : Fld := ⟨0x0101C0 + 8 * p, 12, 52⟩
/-- RNG_TELEM_p[4:0] -/
def RNG_TELEM_LOG2 (p : Nat) : Fld := ⟨0x0101C0 + 8 * p, 0, 5⟩
/-- RNG_EVENT_VEC_p[42:32] -/
def RNG_EVENT_VEC_ADMIN_VEC (p : Nat) : Fld := ⟨0x010200 + 8 * p, 32, 11⟩
/-- RNG_EVENT_VEC_p[26:16] -/
def RNG_EVENT_VEC_TELEM_VEC (p : Nat) : Fld := ⟨0x010200 + 8 * p, 16, 11⟩
/-- RNG_EVENT_VEC_p[10:0] -/
def RNG_EVENT_VEC_ERRLOG_VEC (p : Nat) : Fld := ⟨0x010200 + 8 * p, 0, 11⟩
/-- RNG_STATUS_p[63:48] -/
def RNG_STATUS_ERRLOG_LOST (p : Nat) : Fld := ⟨0x010240 + 8 * p, 48, 16⟩
/-- RNG_STATUS_p[47:32] -/
def RNG_STATUS_TELEM_LOST (p : Nat) : Fld := ⟨0x010240 + 8 * p, 32, 16⟩
/-- RNG_STATUS_p[31:16] -/
def RNG_STATUS_RING_ERRORS (p : Nat) : Fld := ⟨0x010240 + 8 * p, 16, 16⟩
/-- RNG_STATUS_p[3] -/
def RNG_STATUS_DB_READ_ERR (p : Nat) : Fld := ⟨0x010240 + 8 * p, 3, 1⟩
/-- RNG_STATUS_p[2] -/
def RNG_STATUS_RING_ERR (p : Nat) : Fld := ⟨0x010240 + 8 * p, 2, 1⟩
/-- RNG_STATUS_p[1] -/
def RNG_STATUS_TELEM_OVF (p : Nat) : Fld := ⟨0x010240 + 8 * p, 1, 1⟩
/-- RNG_STATUS_p[0] -/
def RNG_STATUS_ERRLOG_OVF (p : Nat) : Fld := ⟨0x010240 + 8 * p, 0, 1⟩
/-- TUS_CAPACITY[54:32] -/
def TUS_CAPACITY_CACHE_DESCRIPTORS : Fld := ⟨0x020000, 32, 23⟩
/-- TUS_CAPACITY[22:0] -/
def TUS_CAPACITY_SESSIONS : Fld := ⟨0x020000, 0, 23⟩
/-- TUS_CACHE_STATS[63:32] -/
def TUS_CACHE_STATS_MISSES : Fld := ⟨0x020010, 32, 32⟩
/-- TUS_CACHE_STATS[31:0] -/
def TUS_CACHE_STATS_HITS : Fld := ⟨0x020010, 0, 32⟩
/-- TUS_STATUS[63:48] -/
def TUS_STATUS_MIRROR_LOST_COUNT : Fld := ⟨0x020018, 48, 16⟩
/-- TUS_STATUS[47:32] -/
def TUS_STATUS_HISTORY_LOST_COUNT : Fld := ⟨0x020018, 32, 16⟩
/-- TUS_STATUS[1] -/
def TUS_STATUS_HISTORY_LOST : Fld := ⟨0x020018, 1, 1⟩
/-- TUS_STATUS[0] -/
def TUS_STATUS_MIRROR_LOST : Fld := ⟨0x020018, 0, 1⟩
/-- TUS_PART_p[54:32] -/
def TUS_PART_COUNT (p : Nat) : Fld := ⟨0x020040 + 8 * p, 32, 23⟩
/-- TUS_PART_p[21:0] -/
def TUS_PART_FIRST (p : Nat) : Fld := ⟨0x020040 + 8 * p, 0, 22⟩
/-- TUS_MIRROR_CFG_p[27:16] -/
def TUS_MIRROR_CFG_PEER (p : Nat) : Fld := ⟨0x020080 + 8 * p, 16, 12⟩
/-- TUS_MIRROR_CFG_p[0] -/
def TUS_MIRROR_CFG_EN (p : Nat) : Fld := ⟨0x020080 + 8 * p, 0, 1⟩
/-- TUS_COUNT_p[54:32] -/
def TUS_COUNT_PARKED (p : Nat) : Fld := ⟨0x0200C0 + 8 * p, 32, 23⟩
/-- TUS_COUNT_p[31:30] -/
def TUS_COUNT_MSTATE (p : Nat) : Fld := ⟨0x0200C0 + 8 * p, 30, 2⟩
/-- TUS_COUNT_p[22:0] -/
def TUS_COUNT_OPEN (p : Nat) : Fld := ⟨0x0200C0 + 8 * p, 0, 23⟩
/-- YOY_PARK_CFG_p[31:16] -/
def YOY_PARK_CFG_DEMOTE_S (p : Nat) : Fld := ⟨0x030000 + 8 * p, 16, 16⟩
/-- YOY_PARK_CFG_p[3:2] -/
def YOY_PARK_CFG_PEAT (p : Nat) : Fld := ⟨0x030000 + 8 * p, 2, 2⟩
/-- YOY_PARK_CFG_p[1:0] -/
def YOY_PARK_CFG_DEPTH (p : Nat) : Fld := ⟨0x030000 + 8 * p, 0, 2⟩
/-- YOY_RECOMP_CFG_p[15:8] -/
def YOY_RECOMP_CFG_MAX_DEPTH (p : Nat) : Fld := ⟨0x030040 + 8 * p, 8, 8⟩
/-- YOY_RECOMP_CFG_p[6:0] -/
def YOY_RECOMP_CFG_TAIL_RANGES (p : Nat) : Fld := ⟨0x030040 + 8 * p, 0, 7⟩
/-- YOY_BATCH_p[63:32] -/
def YOY_BATCH_POS_MAX (p : Nat) : Fld := ⟨0x030080 + 8 * p, 32, 32⟩
/-- YOY_BATCH_p[16:0] -/
def YOY_BATCH_B_MAX (p : Nat) : Fld := ⟨0x030080 + 8 * p, 0, 17⟩
/-- YOY_STATUS_p[63:48] -/
def YOY_STATUS_EVICTIONS (p : Nat) : Fld := ⟨0x0300C0 + 8 * p, 48, 16⟩
/-- YOY_STATUS_p[47:32] -/
def YOY_STATUS_RECOMPUTED (p : Nat) : Fld := ⟨0x0300C0 + 8 * p, 32, 16⟩
/-- YOY_STATUS_p[31:16] -/
def YOY_STATUS_REVIVALS (p : Nat) : Fld := ⟨0x0300C0 + 8 * p, 16, 16⟩
/-- YOY_STATUS_p[15:0] -/
def YOY_STATUS_PARKS (p : Nat) : Fld := ⟨0x0300C0 + 8 * p, 0, 16⟩
/-- YOY_QUEUE_p[63:32] -/
def YOY_QUEUE_T_RE_NS (p : Nat) : Fld := ⟨0x030100 + 8 * p, 32, 32⟩
/-- YOY_QUEUE_p[31:16] -/
def YOY_QUEUE_REVIVING (p : Nat) : Fld := ⟨0x030100 + 8 * p, 16, 16⟩
/-- YOY_QUEUE_p[15:0] -/
def YOY_QUEUE_READY (p : Nat) : Fld := ⟨0x030100 + 8 * p, 0, 16⟩
/-- TIER_CAPACITY[48:32] -/
def TIER_CAPACITY_REGIONS : Fld := ⟨0x040000, 32, 17⟩
/-- TIER_CAPACITY[31:0] -/
def TIER_CAPACITY_T1_FRAMES : Fld := ⟨0x040000, 0, 32⟩
/-- TIER_STATUS[63:48] -/
def TIER_STATUS_FAILOVER_COUNT : Fld := ⟨0x040008, 48, 16⟩
/-- TIER_STATUS[47:32] -/
def TIER_STATUS_DEGRADED_COUNT : Fld := ⟨0x040008, 32, 16⟩
/-- TIER_STATUS[31:16] -/
def TIER_STATUS_DIGEST_COUNT : Fld := ⟨0x040008, 16, 16⟩
/-- TIER_STATUS[2] -/
def TIER_STATUS_DIGEST_MISMATCH : Fld := ⟨0x040008, 2, 1⟩
/-- TIER_STATUS[1] -/
def TIER_STATUS_WEIGHT_DEGRADED : Fld := ⟨0x040008, 1, 1⟩
/-- TIER_STATUS[0] -/
def TIER_STATUS_REPLICA_FAILOVER : Fld := ⟨0x040008, 0, 1⟩
/-- TIER_PEAT_STATS[63:32] -/
def TIER_PEAT_STATS_DECODED : Fld := ⟨0x040010, 32, 32⟩
/-- TIER_PEAT_STATS[31:0] -/
def TIER_PEAT_STATS_ENCODED : Fld := ⟨0x040010, 0, 32⟩
/-- TIER_CBW[63:32] -/
def TIER_CBW_CBW_COPIES : Fld := ⟨0x040018, 32, 32⟩
/-- TIER_CBW[31:16] -/
def TIER_CBW_STAGING_STALLS : Fld := ⟨0x040018, 16, 16⟩
/-- TIER_CBW[3:0] -/
def TIER_CBW_COPIES_ACTIVE : Fld := ⟨0x040018, 0, 4⟩
/-- TIER_RESERVE[63:32] -/
def TIER_RESERVE_SYSTEM_FRAMES : Fld := ⟨0x040020, 32, 32⟩
/-- TIER_RESERVE[31:0] -/
def TIER_RESERVE_PER_STACK : Fld := ⟨0x040020, 0, 32⟩
/-- TIER_FRAMES_p[63:32] -/
def TIER_FRAMES_FREE (p : Nat) : Fld := ⟨0x040040 + 8 * p, 32, 32⟩
/-- TIER_FRAMES_p[31:0] -/
def TIER_FRAMES_QUOTA (p : Nat) : Fld := ⟨0x040040 + 8 * p, 0, 32⟩
/-- TIER_WINDOW_p[63:48] -/
def TIER_WINDOW_STALLS (p : Nat) : Fld := ⟨0x040080 + 8 * p, 48, 16⟩
/-- TIER_WINDOW_p[31:16] -/
def TIER_WINDOW_LAYERS (p : Nat) : Fld := ⟨0x040080 + 8 * p, 16, 16⟩
/-- TIER_WINDOW_p[15:0] -/
def TIER_WINDOW_W (p : Nat) : Fld := ⟨0x040080 + 8 * p, 0, 16⟩
/-- TIER_REBUILD_CFG_p[23:8] -/
def TIER_REBUILD_CFG_DEGRADED_LAYER (p : Nat) : Fld := ⟨0x0400C0 + 8 * p, 8, 16⟩
/-- TIER_REBUILD_CFG_p[7:0] -/
def TIER_REBUILD_CFG_TIMEOUT_S (p : Nat) : Fld := ⟨0x0400C0 + 8 * p, 0, 8⟩
/-- KVA_STATUS[63:48] -/
def KVA_STATUS_UNDERFLOW_COUNT : Fld := ⟨0x050000, 48, 16⟩
/-- KVA_STATUS[47:32] -/
def KVA_STATUS_UNCORR_COUNT : Fld := ⟨0x050000, 32, 16⟩
/-- KVA_STATUS[1] -/
def KVA_STATUS_KV_UNCORRECTABLE : Fld := ⟨0x050000, 1, 1⟩
/-- KVA_STATUS[0] -/
def KVA_STATUS_REF_UNDERFLOW : Fld := ⟨0x050000, 0, 1⟩
/-- KVA_GEOM_p[63:56] -/
def KVA_GEOM_KV_FORMAT (p : Nat) : Fld := ⟨0x050040 + 8 * p, 56, 8⟩
/-- KVA_GEOM_p[55:48] -/
def KVA_GEOM_LAYERS (p : Nat) : Fld := ⟨0x050040 + 8 * p, 48, 8⟩
/-- KVA_GEOM_p[40:32] -/
def KVA_GEOM_CHUNK_PAGES (p : Nat) : Fld := ⟨0x050040 + 8 * p, 32, 9⟩
/-- KVA_GEOM_p[27:24] -/
def KVA_GEOM_QPK (p : Nat) : Fld := ⟨0x050040 + 8 * p, 24, 4⟩
/-- KVA_GEOM_p[19:16] -/
def KVA_GEOM_DIM32 (p : Nat) : Fld := ⟨0x050040 + 8 * p, 16, 4⟩
/-- KVA_GEOM_p[12:8] -/
def KVA_GEOM_GROUP (p : Nat) : Fld := ⟨0x050040 + 8 * p, 8, 5⟩
/-- KVA_GEOM_p[6:0] -/
def KVA_GEOM_KV_HEADS (p : Nat) : Fld := ⟨0x050040 + 8 * p, 0, 7⟩
/-- KVA_STEP_p[63:32] -/
def KVA_STEP_ATTN_JOBS (p : Nat) : Fld := ⟨0x050080 + 8 * p, 32, 32⟩
/-- KVA_STEP_p[31:16] -/
def KVA_STEP_NEW_PAGES (p : Nat) : Fld := ⟨0x050080 + 8 * p, 16, 16⟩
/-- KVA_STEP_p[15:0] -/
def KVA_STEP_COW_COPIES (p : Nat) : Fld := ⟨0x050080 + 8 * p, 0, 16⟩
/-- KVA_FRAMES_p[63:32] -/
def KVA_FRAMES_SHARED (p : Nat) : Fld := ⟨0x0500C0 + 8 * p, 32, 32⟩
/-- KVA_FRAMES_p[31:0] -/
def KVA_FRAMES_KV_FRAMES (p : Nat) : Fld := ⟨0x0500C0 + 8 * p, 0, 32⟩
/-- KVA_RECLAIM_p[63:32] -/
def KVA_RECLAIM_TABLE_FRAMES (p : Nat) : Fld := ⟨0x050100 + 8 * p, 32, 32⟩
/-- KVA_RECLAIM_p[31:0] -/
def KVA_RECLAIM_RECLAIMED (p : Nat) : Fld := ⟨0x050100 + 8 * p, 0, 32⟩
/-- ARI_CAPS[39:32] -/
def ARI_CAPS_ESC_MAX : Fld := ⟨0x060000, 32, 8⟩
/-- ARI_CAPS[23:8] -/
def ARI_CAPS_VEC_LANES : Fld := ⟨0x060000, 8, 16⟩
/-- ARI_CAPS[5:0] -/
def ARI_CAPS_MODES : Fld := ⟨0x060000, 0, 6⟩
/-- ARI_STATUS[63:48] -/
def ARI_STATUS_SATURATED_COUNT : Fld := ⟨0x060008, 48, 16⟩
/-- ARI_STATUS[47:32] -/
def ARI_STATUS_ESCALATED_COUNT : Fld := ⟨0x060008, 32, 16⟩
/-- ARI_STATUS[31:16] -/
def ARI_STATUS_NONFINITE_COUNT : Fld := ⟨0x060008, 16, 16⟩
/-- ARI_STATUS[2] -/
def ARI_STATUS_ESC_SATURATED : Fld := ⟨0x060008, 2, 1⟩
/-- ARI_STATUS[1] -/
def ARI_STATUS_ESCALATED : Fld := ⟨0x060008, 1, 1⟩
/-- ARI_STATUS[0] -/
def ARI_STATUS_NONFINITE : Fld := ⟨0x060008, 0, 1⟩
/-- ARI_CAL[63:48] -/
def ARI_CAL_N3_NS : Fld := ⟨0x060010, 48, 16⟩
/-- ARI_CAL[47:32] -/
def ARI_CAL_N2_NS : Fld := ⟨0x060010, 32, 16⟩
/-- ARI_CAL[31:16] -/
def ARI_CAL_N1_NS : Fld := ⟨0x060010, 16, 16⟩
/-- ARI_CAL[0] -/
def ARI_CAL_DONE : Fld := ⟨0x060010, 0, 1⟩
/-- ARI_SHADOW_CFG_p[63:48] -/
def ARI_SHADOW_CFG_THRESH2 (p : Nat) : Fld := ⟨0x060040 + 8 * p, 48, 16⟩
/-- ARI_SHADOW_CFG_p[47:32] -/
def ARI_SHADOW_CFG_THRESH1 (p : Nat) : Fld := ⟨0x060040 + 8 * p, 32, 16⟩
/-- ARI_SHADOW_CFG_p[11:8] -/
def ARI_SHADOW_CFG_CONSEC (p : Nat) : Fld := ⟨0x060040 + 8 * p, 8, 4⟩
/-- ARI_SHADOW_CFG_p[4:0] -/
def ARI_SHADOW_CFG_RATE_LOG2 (p : Nat) : Fld := ⟨0x060040 + 8 * p, 0, 5⟩
/-- ARI_ESC_p[55:48] -/
def ARI_ESC_LOWEST (p : Nat) : Fld := ⟨0x060080 + 8 * p, 48, 8⟩
/-- ARI_ESC_p[47:40] -/
def ARI_ESC_L2_LAYERS (p : Nat) : Fld := ⟨0x060080 + 8 * p, 40, 8⟩
/-- ARI_ESC_p[39:32] -/
def ARI_ESC_L1_LAYERS (p : Nat) : Fld := ⟨0x060080 + 8 * p, 32, 8⟩
/-- ARI_ESC_p[23:16] -/
def ARI_ESC_PENDING (p : Nat) : Fld := ⟨0x060080 + 8 * p, 16, 8⟩
/-- ARI_ESC_p[11:0] -/
def ARI_ESC_EPOCH (p : Nat) : Fld := ⟨0x060080 + 8 * p, 0, 12⟩
/-- ARI_ESC_CLEAR_p[8] -/
def ARI_ESC_CLEAR_ALL (p : Nat) : Fld := ⟨0x0600C0 + 8 * p, 8, 1⟩
/-- ARI_ESC_CLEAR_p[7:0] -/
def ARI_ESC_CLEAR_LAYER (p : Nat) : Fld := ⟨0x0600C0 + 8 * p, 0, 8⟩
/-- ARI_SAT_p[63:32] -/
def ARI_SAT_SATURATED (p : Nat) : Fld := ⟨0x060100 + 8 * p, 32, 32⟩
/-- ARI_SAT_p[31:16] -/
def ARI_SAT_NONFINITE_ROWS (p : Nat) : Fld := ⟨0x060100 + 8 * p, 16, 16⟩
/-- ARI_SAT_p[15:0] -/
def ARI_SAT_SAMPLES (p : Nat) : Fld := ⟨0x060100 + 8 * p, 0, 16⟩
/-- ARI_SHADOW_p[63:48] -/
def ARI_SHADOW_SKIPPED (p : Nat) : Fld := ⟨0x060140 + 8 * p, 48, 16⟩
/-- ARI_SHADOW_p[47:32] -/
def ARI_SHADOW_MAX_ERROR (p : Nat) : Fld := ⟨0x060140 + 8 * p, 32, 16⟩
/-- ARI_SHADOW_p[23:16] -/
def ARI_SHADOW_MAX_LAYER (p : Nat) : Fld := ⟨0x060140 + 8 * p, 16, 8⟩
/-- ARI_SHADOW_p[15:0] -/
def ARI_SHADOW_EXCEEDED (p : Nat) : Fld := ⟨0x060140 + 8 * p, 0, 16⟩
/-- PLC_CAPS[47:40] -/
def PLC_CAPS_JOB_SLOTS : Fld := ⟨0x070000, 40, 8⟩
/-- PLC_CAPS[39:32] -/
def PLC_CAPS_SEM_BANKS : Fld := ⟨0x070000, 32, 8⟩
/-- PLC_CAPS[31:16] -/
def PLC_CAPS_SEMAPHORES : Fld := ⟨0x070000, 16, 16⟩
/-- PLC_CAPS[8:0] -/
def PLC_CAPS_CORES : Fld := ⟨0x070000, 0, 9⟩
/-- PLC_STATUS[63:48] -/
def PLC_STATUS_DRAIN_TIMEOUT_COUNT : Fld := ⟨0x070008, 48, 16⟩
/-- PLC_STATUS[47:32] -/
def PLC_STATUS_OVER_RELEASE_COUNT : Fld := ⟨0x070008, 32, 16⟩
/-- PLC_STATUS[1] -/
def PLC_STATUS_SEM_OVER_RELEASE : Fld := ⟨0x070008, 1, 1⟩
/-- PLC_STATUS[0] -/
def PLC_STATUS_DRAIN_TIMEOUT : Fld := ⟨0x070008, 0, 1⟩
/-- PLC_JOB_p[63:48] -/
def PLC_JOB_SWITCHES (p : Nat) : Fld := ⟨0x070040 + 8 * p, 48, 16⟩
/-- PLC_JOB_p[18:16] -/
def PLC_JOB_RUNG (p : Nat) : Fld := ⟨0x070040 + 8 * p, 16, 3⟩
/-- PLC_JOB_p[15:8] -/
def PLC_JOB_SLOT_STATES (p : Nat) : Fld := ⟨0x070040 + 8 * p, 8, 8⟩
/-- PLC_JOB_p[2] -/
def PLC_JOB_ACTIVE_VALID (p : Nat) : Fld := ⟨0x070040 + 8 * p, 2, 1⟩
/-- PLC_JOB_p[1:0] -/
def PLC_JOB_ACTIVE_SLOT (p : Nat) : Fld := ⟨0x070040 + 8 * p, 0, 2⟩
/-- PLC_SEM_p[63:32] -/
def PLC_SEM_PARKED_TOKENS (p : Nat) : Fld := ⟨0x070080 + 8 * p, 32, 32⟩
/-- PLC_SEM_p[23:16] -/
def PLC_SEM_BANKS (p : Nat) : Fld := ⟨0x070080 + 8 * p, 16, 8⟩
/-- PLC_SEM_p[6:0] -/
def PLC_SEM_FIRST_BANK (p : Nat) : Fld := ⟨0x070080 + 8 * p, 0, 7⟩
/-- PLC_SWITCH_p[63:32] -/
def PLC_SWITCH_WINDOW_US (p : Nat) : Fld := ⟨0x0700C0 + 8 * p, 32, 32⟩
/-- PLC_SWITCH_p[31:16] -/
def PLC_SWITCH_DRAIN_US (p : Nat) : Fld := ⟨0x0700C0 + 8 * p, 16, 16⟩
/-- PLC_SWITCH_p[0] -/
def PLC_SWITCH_RESET_USED (p : Nat) : Fld := ⟨0x0700C0 + 8 * p, 0, 1⟩
/-- PLC_CORE_p[63:32] -/
def PLC_CORE_BG_JOBS (p : Nat) : Fld := ⟨0x070100 + 8 * p, 32, 32⟩
/-- PLC_CORE_p[31:16] -/
def PLC_CORE_SEM_WAITS (p : Nat) : Fld := ⟨0x070100 + 8 * p, 16, 16⟩
/-- PLC_CORE_p[8:0] -/
def PLC_CORE_CORES (p : Nat) : Fld := ⟨0x070100 + 8 * p, 0, 9⟩
/-- TOK_CAPS[52:32] -/
def TOK_CAPS_VOCAB_MAX : Fld := ⟨0x080000, 32, 21⟩
/-- TOK_CAPS[23:16] -/
def TOK_CAPS_LANES : Fld := ⟨0x080000, 16, 8⟩
/-- TOK_CAPS[15:8] -/
def TOK_CAPS_SEQ_LEN_MAX : Fld := ⟨0x080000, 8, 8⟩
/-- TOK_CAPS[7:0] -/
def TOK_CAPS_STOP_MAX : Fld := ⟨0x080000, 0, 8⟩
/-- TOK_STATUS[63:48] -/
def TOK_STATUS_ALL_MASKED_COUNT : Fld := ⟨0x080008, 48, 16⟩
/-- TOK_STATUS[0] -/
def TOK_STATUS_ALL_MASKED : Fld := ⟨0x080008, 0, 1⟩
/-- TOK_CACHE_STATS[63:32] -/
def TOK_CACHE_STATS_MISSES : Fld := ⟨0x080010, 32, 32⟩
/-- TOK_CACHE_STATS[31:0] -/
def TOK_CACHE_STATS_HITS : Fld := ⟨0x080010, 0, 32⟩
/-- TOK_INPUT_p[63:48] -/
def TOK_INPUT_TRUNCATED (p : Nat) : Fld := ⟨0x080080 + 8 * p, 48, 16⟩
/-- TOK_INPUT_p[47:32] -/
def TOK_INPUT_REPLACED (p : Nat) : Fld := ⟨0x080080 + 8 * p, 32, 16⟩
/-- TOK_INPUT_p[31:0] -/
def TOK_INPUT_TOKENS_IN (p : Nat) : Fld := ⟨0x080080 + 8 * p, 0, 32⟩
/-- TOK_OUTPUT_p[63:48] -/
def TOK_OUTPUT_STOPPED (p : Nat) : Fld := ⟨0x0800C0 + 8 * p, 48, 16⟩
/-- TOK_OUTPUT_p[47:32] -/
def TOK_OUTPUT_FORCED (p : Nat) : Fld := ⟨0x0800C0 + 8 * p, 32, 16⟩
/-- TOK_OUTPUT_p[31:0] -/
def TOK_OUTPUT_SAMPLED (p : Nat) : Fld := ⟨0x0800C0 + 8 * p, 0, 32⟩
/-- RED_CAPS[44:32] -/
def RED_CAPS_DIM_MAX : Fld := ⟨0x090000, 32, 13⟩
/-- RED_CAPS[31:20] -/
def RED_CAPS_PAGES : Fld := ⟨0x090000, 20, 12⟩
/-- RED_CAPS[17:13] -/
def RED_CAPS_PIPES : Fld := ⟨0x090000, 13, 5⟩
/-- RED_CAPS[12:0] -/
def RED_CAPS_REEDS : Fld := ⟨0x090000, 0, 13⟩
/-- RED_STATUS[63:48] -/
def RED_STATUS_UNREADABLE_COUNT : Fld := ⟨0x090008, 48, 16⟩
/-- RED_STATUS[0] -/
def RED_STATUS_ENTRY_UNREADABLE : Fld := ⟨0x090008, 0, 1⟩
/-- RED_STATS[63:48] -/
def RED_STATS_MERGES : Fld := ⟨0x090010, 48, 16⟩
/-- RED_STATS[47:0] -/
def RED_STATS_QUERIES : Fld := ⟨0x090010, 0, 48⟩
/-- RED_PART_p[54:32] -/
def RED_PART_COUNT (p : Nat) : Fld := ⟨0x090040 + 8 * p, 32, 23⟩
/-- RED_PART_p[21:0] -/
def RED_PART_FIRST (p : Nat) : Fld := ⟨0x090040 + 8 * p, 0, 22⟩
/-- RED_QUOTA_p[43:32] -/
def RED_QUOTA_PAGES (p : Nat) : Fld := ⟨0x090080 + 8 * p, 32, 12⟩
/-- RED_QUOTA_p[12:0] -/
def RED_QUOTA_REEDS (p : Nat) : Fld := ⟨0x090080 + 8 * p, 0, 13⟩
/-- RED_LOAD_p[63:48] -/
def RED_LOAD_WAITING (p : Nat) : Fld := ⟨0x0900C0 + 8 * p, 48, 16⟩
/-- RED_LOAD_p[47:44] -/
def RED_LOAD_MERGING (p : Nat) : Fld := ⟨0x0900C0 + 8 * p, 44, 4⟩
/-- RED_LOAD_p[43:32] -/
def RED_LOAD_PAGES_BUSY (p : Nat) : Fld := ⟨0x0900C0 + 8 * p, 32, 12⟩
/-- RED_LOAD_p[12:0] -/
def RED_LOAD_REEDS_BUSY (p : Nat) : Fld := ⟨0x0900C0 + 8 * p, 0, 13⟩
/-- RED_MERGE_CFG_p[12:8] -/
def RED_MERGE_CFG_MERGE_LOG2 (p : Nat) : Fld := ⟨0x090100 + 8 * p, 8, 5⟩
/-- RED_MERGE_CFG_p[0] -/
def RED_MERGE_CFG_AUTO (p : Nat) : Fld := ⟨0x090100 + 8 * p, 0, 1⟩
/-- FAB_ID[40] -/
def FAB_ID_CHAIN : Fld := ⟨0x0A0000, 40, 1⟩
/-- FAB_ID[39:32] -/
def FAB_ID_SIZE_M1 : Fld := ⟨0x0A0000, 32, 8⟩
/-- FAB_ID[31:24] -/
def FAB_ID_POSITION : Fld := ⟨0x0A0000, 24, 8⟩
/-- FAB_ID[11:0] -/
def FAB_ID_DEVICE_ID : Fld := ⟨0x0A0000, 0, 12⟩
/-- FAB_CAPS[47:40] -/
def FAB_CAPS_PORTS : Fld := ⟨0x0A0008, 40, 8⟩
/-- FAB_CAPS[39:32] -/
def FAB_CAPS_PCIE_PORTS : Fld := ⟨0x0A0008, 32, 8⟩
/-- FAB_CAPS[31:16] -/
def FAB_CAPS_BUF_KIB : Fld := ⟨0x0A0008, 16, 16⟩
/-- FAB_CAPS[15:0] -/
def FAB_CAPS_REPLAY_FLITS : Fld := ⟨0x0A0008, 0, 16⟩
/-- FAB_STATUS[3] -/
def FAB_STATUS_PAGE_FROZEN : Fld := ⟨0x0A0010, 3, 1⟩
/-- FAB_STATUS[2] -/
def FAB_STATUS_EXTENT_FENCED : Fld := ⟨0x0A0010, 2, 1⟩
/-- FAB_STATUS[1] -/
def FAB_STATUS_HOST_LOST : Fld := ⟨0x0A0010, 1, 1⟩
/-- FAB_STATUS[0] -/
def FAB_STATUS_PORT_FAILED : Fld := ⟨0x0A0010, 0, 1⟩
/-- FAB_EVENTS[63:48] -/
def FAB_EVENTS_FROZEN_COUNT : Fld := ⟨0x0A0018, 48, 16⟩
/-- FAB_EVENTS[47:32] -/
def FAB_EVENTS_FENCED_COUNT : Fld := ⟨0x0A0018, 32, 16⟩
/-- FAB_EVENTS[31:16] -/
def FAB_EVENTS_HOST_LOST_COUNT : Fld := ⟨0x0A0018, 16, 16⟩
/-- FAB_EVENTS[15:0] -/
def FAB_EVENTS_PORT_FAILED_COUNT : Fld := ⟨0x0A0018, 0, 16⟩
/-- FAB_LEND[63:32] -/
def FAB_LEND_LENT_FRAMES : Fld := ⟨0x0A0020, 32, 32⟩
/-- FAB_LEND[31:0] -/
def FAB_LEND_FREE_FRAMES : Fld := ⟨0x0A0020, 0, 32⟩
/-- FAB_POOL_CFG[31:16] -/
def FAB_POOL_CFG_T2_BUDGET_US : Fld := ⟨0x0A0028, 16, 16⟩
/-- FAB_POOL_CFG[7:0] -/
def FAB_POOL_CFG_HOP_LIMIT : Fld := ⟨0x0A0028, 0, 8⟩
/-- FAB_DIR[63:32] -/
def FAB_DIR_EPOCH : Fld := ⟨0x0A0030, 32, 32⟩
/-- FAB_DIR[31:16] -/
def FAB_DIR_PENDING : Fld := ⟨0x0A0030, 16, 16⟩
/-- FAB_DIR[15:0] -/
def FAB_DIR_FROZEN : Fld := ⟨0x0A0030, 0, 16⟩
/-- FAB_PORT_n[63:52] -/
def FAB_PORT_PEER_DEVICE (n : Nat) : Fld := ⟨0x0A0100 + 8 * n, 52, 12⟩
/-- FAB_PORT_n[51:47] -/
def FAB_PORT_PEER_PORT (n : Nat) : Fld := ⟨0x0A0100 + 8 * n, 47, 5⟩
/-- FAB_PORT_n[31:28] -/
def FAB_PORT_ROLE (n : Nat) : Fld := ⟨0x0A0100 + 8 * n, 28, 4⟩
/-- FAB_PORT_n[15:12] -/
def FAB_PORT_PAIRS (n : Nat) : Fld := ⟨0x0A0100 + 8 * n, 12, 4⟩
/-- FAB_PORT_n[11:8] -/
def FAB_PORT_WIDTH (n : Nat) : Fld := ⟨0x0A0100 + 8 * n, 8, 4⟩
/-- FAB_PORT_n[3:0] -/
def FAB_PORT_STATE (n : Nat) : Fld := ⟨0x0A0100 + 8 * n, 0, 4⟩
/-- FAB_PORT_CNT_n[63:32] -/
def FAB_PORT_CNT_REPLAYED (n : Nat) : Fld := ⟨0x0A0200 + 8 * n, 32, 32⟩
/-- FAB_PORT_CNT_n[31:16] -/
def FAB_PORT_CNT_RETRAINS (n : Nat) : Fld := ⟨0x0A0200 + 8 * n, 16, 16⟩
/-- FAB_PORT_CNT_n[15:0] -/
def FAB_PORT_CNT_DOWN_EVENTS (n : Nat) : Fld := ⟨0x0A0200 + 8 * n, 0, 16⟩
/-- FAB_ROUTE_k[63:52] -/
def FAB_ROUTE_LAST_ID (k : Nat) : Fld := ⟨0x0A0300 + 8 * k, 52, 12⟩
/-- FAB_ROUTE_k[51:40] -/
def FAB_ROUTE_FIRST_ID (k : Nat) : Fld := ⟨0x0A0300 + 8 * k, 40, 12⟩
/-- FAB_ROUTE_k[32] -/
def FAB_ROUTE_VALID (k : Nat) : Fld := ⟨0x0A0300 + 8 * k, 32, 1⟩
/-- FAB_ROUTE_k[31:0] -/
def FAB_ROUTE_PORT_MASK (k : Nat) : Fld := ⟨0x0A0300 + 8 * k, 0, 32⟩
/-- SLU_CAPS[47:32] -/
def SLU_CAPS_SHAPERS : Fld := ⟨0x0B0000, 32, 16⟩
/-- SLU_CAPS[31:16] -/
def SLU_CAPS_POLICERS : Fld := ⟨0x0B0000, 16, 16⟩
/-- SLU_CAPS[15:8] -/
def SLU_CAPS_BINSETS : Fld := ⟨0x0B0000, 8, 8⟩
/-- SLU_CAPS[7:0] -/
def SLU_CAPS_QUEUE_KINDS : Fld := ⟨0x0B0000, 0, 8⟩
/-- SLU_STATUS[63:48] -/
def SLU_STATUS_BIN_SAT_COUNT : Fld := ⟨0x0B0008, 48, 16⟩
/-- SLU_STATUS[0] -/
def SLU_STATUS_BIN_SAT : Fld := ⟨0x0B0008, 0, 1⟩
/-- SLU_SAMPLE_CFG[23:16] -/
def SLU_SAMPLE_CFG_MIN_SAMPLES : Fld := ⟨0x0B0010, 16, 8⟩
/-- SLU_SAMPLE_CFG[15:0] -/
def SLU_SAMPLE_CFG_PERIOD_US : Fld := ⟨0x0B0010, 0, 16⟩
/-- SLU_BINSET_k[63] -/
def SLU_BINSET_MODE (k : Nat) : Fld := ⟨0x0B0040 + 8 * k, 63, 1⟩
/-- SLU_BINSET_k[55:32] -/
def SLU_BINSET_WIDTH_NS (k : Nat) : Fld := ⟨0x0B0040 + 8 * k, 32, 24⟩
/-- SLU_BINSET_k[31:0] -/
def SLU_BINSET_OFFSET_NS (k : Nat) : Fld := ⟨0x0B0040 + 8 * k, 0, 32⟩
/-- SLU_PART_p[46:32] -/
def SLU_PART_SHAPER_COUNT (p : Nat) : Fld := ⟨0x0B0080 + 8 * p, 32, 15⟩
/-- SLU_PART_p[13:0] -/
def SLU_PART_SHAPER_FIRST (p : Nat) : Fld := ⟨0x0B0080 + 8 * p, 0, 14⟩
/-- SLU_QCFG_p[14:12] -/
def SLU_QCFG_BINSET3 (p : Nat) : Fld := ⟨0x0B00C0 + 8 * p, 12, 3⟩
/-- SLU_QCFG_p[10:8] -/
def SLU_QCFG_BINSET2 (p : Nat) : Fld := ⟨0x0B00C0 + 8 * p, 8, 3⟩
/-- SLU_QCFG_p[6:4] -/
def SLU_QCFG_BINSET1 (p : Nat) : Fld := ⟨0x0B00C0 + 8 * p, 4, 3⟩
/-- SLU_QCFG_p[2:0] -/
def SLU_QCFG_BINSET0 (p : Nat) : Fld := ⟨0x0B00C0 + 8 * p, 0, 3⟩
/-- SLU_DQ_p[63:48] -/
def SLU_DQ_DQ3 (p : Nat) : Fld := ⟨0x0B0100 + 8 * p, 48, 16⟩
/-- SLU_DQ_p[47:32] -/
def SLU_DQ_DQ2 (p : Nat) : Fld := ⟨0x0B0100 + 8 * p, 32, 16⟩
/-- SLU_DQ_p[31:16] -/
def SLU_DQ_DQ1 (p : Nat) : Fld := ⟨0x0B0100 + 8 * p, 16, 16⟩
/-- SLU_DQ_p[15:0] -/
def SLU_DQ_DQ0 (p : Nat) : Fld := ⟨0x0B0100 + 8 * p, 0, 16⟩
/-- SLU_DROPS_p[63:32] -/
def SLU_DROPS_POLICED_BYTES (p : Nat) : Fld := ⟨0x0B0140 + 8 * p, 32, 32⟩
/-- SLU_DROPS_p[31:0] -/
def SLU_DROPS_POLICED_DESC (p : Nat) : Fld := ⟨0x0B0140 + 8 * p, 0, 32⟩
/-- SEC_CAPS[39:32] -/
def SEC_CAPS_IDE_STREAMS : Fld := ⟨0x0C0000, 32, 8⟩
/-- SEC_CAPS[31:16] -/
def SEC_CAPS_KEY_SLOTS : Fld := ⟨0x0C0000, 16, 16⟩
/-- SEC_CAPS[3:0] -/
def SEC_CAPS_PARTITIONS : Fld := ⟨0x0C0000, 0, 4⟩
/-- SEC_STATUS[4] -/
def SEC_STATUS_DRAIN_ABORT : Fld := ⟨0x0C0008, 4, 1⟩
/-- SEC_STATUS[3] -/
def SEC_STATUS_NONCE_EXHAUSTED : Fld := ⟨0x0C0008, 3, 1⟩
/-- SEC_STATUS[2] -/
def SEC_STATUS_TDI_ERROR : Fld := ⟨0x0C0008, 2, 1⟩
/-- SEC_STATUS[1] -/
def SEC_STATUS_LATE_GENERATION : Fld := ⟨0x0C0008, 1, 1⟩
/-- SEC_STATUS[0] -/
def SEC_STATUS_TAG_MISMATCH : Fld := ⟨0x0C0008, 0, 1⟩
/-- SEC_EVENTS[63:52] -/
def SEC_EVENTS_DRAIN_ABORT_COUNT : Fld := ⟨0x0C0010, 52, 12⟩
/-- SEC_EVENTS[51:40] -/
def SEC_EVENTS_NONCE_EX_COUNT : Fld := ⟨0x0C0010, 40, 12⟩
/-- SEC_EVENTS[39:28] -/
def SEC_EVENTS_TDI_ERROR_COUNT : Fld := ⟨0x0C0010, 28, 12⟩
/-- SEC_EVENTS[27:14] -/
def SEC_EVENTS_LATE_COUNT : Fld := ⟨0x0C0010, 14, 14⟩
/-- SEC_EVENTS[13:0] -/
def SEC_EVENTS_TAG_COUNT : Fld := ⟨0x0C0010, 0, 14⟩
/-- SEC_PART_p[63:51] -/
def SEC_PART_KEY_QUOTA (p : Nat) : Fld := ⟨0x0C0040 + 8 * p, 51, 13⟩
/-- SEC_PART_p[50:47] -/
def SEC_PART_HOST_PORTS (p : Nat) : Fld := ⟨0x0C0040 + 8 * p, 47, 4⟩
/-- SEC_PART_p[46:35] -/
def SEC_PART_STACKS (p : Nat) : Fld := ⟨0x0C0040 + 8 * p, 35, 12⟩
/-- SEC_PART_p[32] -/
def SEC_PART_WHOLE (p : Nat) : Fld := ⟨0x0C0040 + 8 * p, 32, 1⟩
/-- SEC_PART_p[31:0] -/
def SEC_PART_PORT_MASK (p : Nat) : Fld := ⟨0x0C0040 + 8 * p, 0, 32⟩
/-- SEC_TDI_p[63:32] -/
def SEC_TDI_KEYS_LIVE (p : Nat) : Fld := ⟨0x0C0080 + 8 * p, 32, 32⟩
/-- SEC_TDI_p[3] -/
def SEC_TDI_KEK_SET (p : Nat) : Fld := ⟨0x0C0080 + 8 * p, 3, 1⟩
/-- SEC_TDI_p[2:0] -/
def SEC_TDI_STATE (p : Nat) : Fld := ⟨0x0C0080 + 8 * p, 0, 3⟩
/-- SEC_DROPS_p[63:32] -/
def SEC_DROPS_LATE_DROPS (p : Nat) : Fld := ⟨0x0C00C0 + 8 * p, 32, 32⟩
/-- SEC_DROPS_p[31:0] -/
def SEC_DROPS_TAG_DROPS (p : Nat) : Fld := ⟨0x0C00C0 + 8 * p, 0, 32⟩
/-- CKP_CAPS[39:32] -/
def CKP_CAPS_SLOTS : Fld := ⟨0x0D0000, 32, 8⟩
/-- CKP_CAPS[31:16] -/
def CKP_CAPS_SHARDS_MAX : Fld := ⟨0x0D0000, 16, 16⟩
/-- CKP_CAPS[7:0] -/
def CKP_CAPS_EXTRA_MAX : Fld := ⟨0x0D0000, 0, 8⟩
/-- CKP_STATUS[63:48] -/
def CKP_STATUS_ABANDON_COUNT : Fld := ⟨0x0D0008, 48, 16⟩
/-- CKP_STATUS[47:32] -/
def CKP_STATUS_DEFER_COUNT : Fld := ⟨0x0D0008, 32, 16⟩
/-- CKP_STATUS[31:16] -/
def CKP_STATUS_SHRINK_COUNT : Fld := ⟨0x0D0008, 16, 16⟩
/-- CKP_STATUS[2] -/
def CKP_STATUS_SHRINK : Fld := ⟨0x0D0008, 2, 1⟩
/-- CKP_STATUS[1] -/
def CKP_STATUS_HOLDUP_DEFER : Fld := ⟨0x0D0008, 1, 1⟩
/-- CKP_STATUS[0] -/
def CKP_STATUS_ABANDONED : Fld := ⟨0x0D0008, 0, 1⟩
/-- CKP_CFG_p[31:16] -/
def CKP_CFG_HOLDUP_WAIT_MS (p : Nat) : Fld := ⟨0x0D0040 + 8 * p, 16, 16⟩
/-- CKP_CFG_p[8] -/
def CKP_CFG_HOLD_AFTER_LOSS (p : Nat) : Fld := ⟨0x0D0040 + 8 * p, 8, 1⟩
/-- CKP_CFG_p[7:4] -/
def CKP_CFG_COPY_LANES (p : Nat) : Fld := ⟨0x0D0040 + 8 * p, 4, 4⟩
/-- CKP_CFG_p[2:0] -/
def CKP_CFG_RETAIN (p : Nat) : Fld := ⟨0x0D0040 + 8 * p, 0, 3⟩
/-- CKP_LAST_p[63:32] -/
def CKP_LAST_CKPT_ID (p : Nat) : Fld := ⟨0x0D0080 + 8 * p, 32, 32⟩
/-- CKP_LAST_p[31:0] -/
def CKP_LAST_STEP_LO (p : Nat) : Fld := ⟨0x0D0080 + 8 * p, 0, 32⟩
/-- CKP_PROGRESS_p[63:32] -/
def CKP_PROGRESS_TILES_COPIED (p : Nat) : Fld := ⟨0x0D00C0 + 8 * p, 32, 32⟩
/-- CKP_PROGRESS_p[31:16] -/
def CKP_PROGRESS_SHARDS_DONE (p : Nat) : Fld := ⟨0x0D00C0 + 8 * p, 16, 16⟩
/-- CKP_PROGRESS_p[3:0] -/
def CKP_PROGRESS_PHASE (p : Nat) : Fld := ⟨0x0D00C0 + 8 * p, 0, 4⟩
/-- LDG_CAPS[63:32] -/
def LDG_CAPS_LOG_RECORDS : Fld := ⟨0x0E0000, 32, 32⟩
/-- LDG_CAPS[15:8] -/
def LDG_CAPS_PLACES_MAX : Fld := ⟨0x0E0000, 8, 8⟩
/-- LDG_CAPS[7:0] -/
def LDG_CAPS_CLASSES : Fld := ⟨0x0E0000, 0, 8⟩
/-- LDG_STATUS[5] -/
def LDG_STATUS_SIDEBAND_STUCK : Fld := ⟨0x0E0008, 5, 1⟩
/-- LDG_STATUS[4] -/
def LDG_STATUS_SELFTEST_FAIL : Fld := ⟨0x0E0008, 4, 1⟩
/-- LDG_STATUS[3] -/
def LDG_STATUS_PAGE_RETIRED : Fld := ⟨0x0E0008, 3, 1⟩
/-- LDG_STATUS[2] -/
def LDG_STATUS_COPY_REPAIRED : Fld := ⟨0x0E0008, 2, 1⟩
/-- LDG_STATUS[1] -/
def LDG_STATUS_ECC_UNCORRECTABLE : Fld := ⟨0x0E0008, 1, 1⟩
/-- LDG_STATUS[0] -/
def LDG_STATUS_MISMATCH : Fld := ⟨0x0E0008, 0, 1⟩
/-- LDG_EVENTS[59:50] -/
def LDG_EVENTS_SIDEBAND_COUNT : Fld := ⟨0x0E0010, 50, 10⟩
/-- LDG_EVENTS[49:40] -/
def LDG_EVENTS_SELFTEST_COUNT : Fld := ⟨0x0E0010, 40, 10⟩
/-- LDG_EVENTS[39:30] -/
def LDG_EVENTS_RETIRED_COUNT : Fld := ⟨0x0E0010, 30, 10⟩
/-- LDG_EVENTS[29:20] -/
def LDG_EVENTS_REPAIRED_COUNT : Fld := ⟨0x0E0010, 20, 10⟩
/-- LDG_EVENTS[19:10] -/
def LDG_EVENTS_UNCORR_COUNT : Fld := ⟨0x0E0010, 10, 10⟩
/-- LDG_EVENTS[9:0] -/
def LDG_EVENTS_MISMATCH_COUNT : Fld := ⟨0x0E0010, 0, 10⟩
/-- LDG_GUARANTEE[4] -/
def LDG_GUARANTEE_INJECTED : Fld := ⟨0x0E0018, 4, 1⟩
/-- LDG_GUARANTEE[3] -/
def LDG_GUARANTEE_GUARANTEE : Fld := ⟨0x0E0018, 3, 1⟩
/-- LDG_GUARANTEE[2] -/
def LDG_GUARANTEE_SUPPORTED : Fld := ⟨0x0E0018, 2, 1⟩
/-- LDG_GUARANTEE[1] -/
def LDG_GUARANTEE_NO_OVERRIDE : Fld := ⟨0x0E0018, 1, 1⟩
/-- LDG_GUARANTEE[0] -/
def LDG_GUARANTEE_PRODUCTION_FW : Fld := ⟨0x0E0018, 0, 1⟩
/-- LDG_ECC[63:32] -/
def LDG_ECC_CORRECTED : Fld := ⟨0x0E0020, 32, 32⟩
/-- LDG_ECC[31:0] -/
def LDG_ECC_UNCORRECTABLE : Fld := ⟨0x0E0020, 0, 32⟩
/-- LDG_SCRUB_CFG[23:16] -/
def LDG_SCRUB_CFG_RETIRE_LIMIT : Fld := ⟨0x0E0028, 16, 8⟩
/-- LDG_SCRUB_CFG[7:0] -/
def LDG_SCRUB_CFG_SCRUB_HOURS : Fld := ⟨0x0E0028, 0, 8⟩
/-- LDG_OVERLAY[63:32] -/
def LDG_OVERLAY_ENTRIES : Fld := ⟨0x0E0030, 32, 32⟩
/-- LDG_OVERLAY[31:8] -/
def LDG_OVERLAY_EPOCH : Fld := ⟨0x0E0030, 8, 24⟩
/-- LDG_OVERLAY[1:0] -/
def LDG_OVERLAY_STATE : Fld := ⟨0x0E0030, 0, 2⟩
/-- LDG_SELFTEST[63:32] -/
def LDG_SELFTEST_DURATION_MS : Fld := ⟨0x0E0038, 32, 32⟩
/-- LDG_SELFTEST[31:16] -/
def LDG_SELFTEST_FAILED : Fld := ⟨0x0E0038, 16, 16⟩
/-- LDG_SELFTEST[4] -/
def LDG_SELFTEST_FULL_HBM : Fld := ⟨0x0E0038, 4, 1⟩
/-- LDG_SELFTEST[3:0] -/
def LDG_SELFTEST_PHASE : Fld := ⟨0x0E0038, 0, 4⟩
/-- LDG_DBERR[63:56] -/
def LDG_DBERR_DBERR_7 : Fld := ⟨0x0E0040, 56, 8⟩
/-- LDG_DBERR[55:48] -/
def LDG_DBERR_DBERR_6 : Fld := ⟨0x0E0040, 48, 8⟩
/-- LDG_DBERR[47:40] -/
def LDG_DBERR_DBERR_5 : Fld := ⟨0x0E0040, 40, 8⟩
/-- LDG_DBERR[39:32] -/
def LDG_DBERR_DBERR_4 : Fld := ⟨0x0E0040, 32, 8⟩
/-- LDG_DBERR[31:24] -/
def LDG_DBERR_DBERR_3 : Fld := ⟨0x0E0040, 24, 8⟩
/-- LDG_DBERR[23:16] -/
def LDG_DBERR_DBERR_2 : Fld := ⟨0x0E0040, 16, 8⟩
/-- LDG_DBERR[15:8] -/
def LDG_DBERR_DBERR_1 : Fld := ⟨0x0E0040, 8, 8⟩
/-- LDG_DBERR[7:0] -/
def LDG_DBERR_DBERR_0 : Fld := ⟨0x0E0040, 0, 8⟩
/-- LDG_FLASHLOG[63:32] -/
def LDG_FLASHLOG_NEXT : Fld := ⟨0x0E0048, 32, 32⟩
/-- LDG_FLASHLOG[31:0] -/
def LDG_FLASHLOG_LOST : Fld := ⟨0x0E0048, 0, 32⟩
/-- LDG_LAST_p[63:32] -/
def LDG_LAST_STEP_LO (p : Nat) : Fld := ⟨0x0E0080 + 8 * p, 32, 32⟩
/-- LDG_LAST_p[31:24] -/
def LDG_LAST_CLASS (p : Nat) : Fld := ⟨0x0E0080 + 8 * p, 24, 8⟩
/-- LDG_LAST_p[23:16] -/
def LDG_LAST_PLACE (p : Nat) : Fld := ⟨0x0E0080 + 8 * p, 16, 8⟩
/-- LDG_LAST_p[1:0] -/
def LDG_LAST_RESULT (p : Nat) : Fld := ⟨0x0E0080 + 8 * p, 0, 2⟩
/-- PWR_CAPS[63:48] -/
def PWR_CAPS_HOLDUP_NOM : Fld := ⟨0x0F0000, 48, 16⟩
/-- PWR_CAPS[47:32] -/
def PWR_CAPS_CAP_MIN_W : Fld := ⟨0x0F0000, 32, 16⟩
/-- PWR_CAPS[15:0] -/
def PWR_CAPS_MAX_W : Fld := ⟨0x0F0000, 0, 16⟩
/-- PWR_STATE[63:32] -/
def PWR_STATE_SHUTDOWNS : Fld := ⟨0x0F0008, 32, 32⟩
/-- PWR_STATE[15:12] -/
def PWR_STATE_LAST_REASON : Fld := ⟨0x0F0008, 12, 4⟩
/-- PWR_STATE[3:0] -/
def PWR_STATE_STATE : Fld := ⟨0x0F0008, 0, 4⟩
/-- PWR_STATUS[7] -/
def PWR_STATUS_SENSOR_FAULT : Fld := ⟨0x0F0010, 7, 1⟩
/-- PWR_STATUS[6] -/
def PWR_STATUS_HOLDUP_DEGRADED : Fld := ⟨0x0F0010, 6, 1⟩
/-- PWR_STATUS[5] -/
def PWR_STATUS_HOLDUP_SHORT : Fld := ⟨0x0F0010, 5, 1⟩
/-- PWR_STATUS[4] -/
def PWR_STATUS_LEAK : Fld := ⟨0x0F0010, 4, 1⟩
/-- PWR_STATUS[3] -/
def PWR_STATUS_COOLANT_FAULT : Fld := ⟨0x0F0010, 3, 1⟩
/-- PWR_STATUS[2] -/
def PWR_STATUS_THERMAL : Fld := ⟨0x0F0010, 2, 1⟩
/-- PWR_STATUS[1] -/
def PWR_STATUS_STEP_HELD : Fld := ⟨0x0F0010, 1, 1⟩
/-- PWR_STATUS[0] -/
def PWR_STATUS_INPUT_EVENT : Fld := ⟨0x0F0010, 0, 1⟩
/-- PWR_EVENTS[63:56] -/
def PWR_EVENTS_SENSOR_COUNT : Fld := ⟨0x0F0018, 56, 8⟩
/-- PWR_EVENTS[55:48] -/
def PWR_EVENTS_DEGRADED_COUNT : Fld := ⟨0x0F0018, 48, 8⟩
/-- PWR_EVENTS[47:40] -/
def PWR_EVENTS_SHORT_COUNT : Fld := ⟨0x0F0018, 40, 8⟩
/-- PWR_EVENTS[39:32] -/
def PWR_EVENTS_LEAK_COUNT : Fld := ⟨0x0F0018, 32, 8⟩
/-- PWR_EVENTS[31:24] -/
def PWR_EVENTS_COOLANT_COUNT : Fld := ⟨0x0F0018, 24, 8⟩
/-- PWR_EVENTS[23:16] -/
def PWR_EVENTS_THERMAL_COUNT : Fld := ⟨0x0F0018, 16, 8⟩
/-- PWR_EVENTS[15:8] -/
def PWR_EVENTS_HELD_COUNT : Fld := ⟨0x0F0018, 8, 8⟩
/-- PWR_EVENTS[7:0] -/
def PWR_EVENTS_INPUT_COUNT : Fld := ⟨0x0F0018, 0, 8⟩
/-- PWR_INPUT[63:48] -/
def PWR_INPUT_AVG_W : Fld := ⟨0x0F0020, 48, 16⟩
/-- PWR_INPUT[47:32] -/
def PWR_INPUT_CURRENT : Fld := ⟨0x0F0020, 32, 16⟩
/-- PWR_INPUT[15:0] -/
def PWR_INPUT_VOLTAGE : Fld := ⟨0x0F0020, 0, 16⟩
/-- PWR_CAP[63:48] -/
def PWR_CAP_EFFECTIVE_W : Fld := ⟨0x0F0028, 48, 16⟩
/-- PWR_CAP[47:32] -/
def PWR_CAP_SIDEBAND_W : Fld := ⟨0x0F0028, 32, 16⟩
/-- PWR_CAP[31:16] -/
def PWR_CAP_HOLD_US : Fld := ⟨0x0F0028, 16, 16⟩
/-- PWR_CAP[15:0] -/
def PWR_CAP_CAP_W : Fld := ⟨0x0F0028, 0, 16⟩
/-- PWR_RAILS[60:56] -/
def PWR_RAILS_LIMITED_BY : Fld := ⟨0x0F0030, 56, 5⟩
/-- PWR_RAILS[47:40] -/
def PWR_RAILS_L_V : Fld := ⟨0x0F0030, 40, 8⟩
/-- PWR_RAILS[39:32] -/
def PWR_RAILS_K_V : Fld := ⟨0x0F0030, 32, 8⟩
/-- PWR_RAILS[31:24] -/
def PWR_RAILS_C3_V : Fld := ⟨0x0F0030, 24, 8⟩
/-- PWR_RAILS[23:16] -/
def PWR_RAILS_C2_V : Fld := ⟨0x0F0030, 16, 8⟩
/-- PWR_RAILS[15:8] -/
def PWR_RAILS_C1_V : Fld := ⟨0x0F0030, 8, 8⟩
/-- PWR_RAILS[7:0] -/
def PWR_RAILS_C0_V : Fld := ⟨0x0F0030, 0, 8⟩
/-- PWR_THERMAL[63:56] -/
def PWR_THERMAL_HBM_MAX : Fld := ⟨0x0F0038, 56, 8⟩
/-- PWR_THERMAL[51:48] -/
def PWR_THERMAL_HBM_STACK : Fld := ⟨0x0F0038, 48, 4⟩
/-- PWR_THERMAL[47:40] -/
def PWR_THERMAL_TJ_MAX : Fld := ⟨0x0F0038, 40, 8⟩
/-- PWR_THERMAL[35:32] -/
def PWR_THERMAL_TJ_DIE : Fld := ⟨0x0F0038, 32, 4⟩
/-- PWR_THERMAL[31:0] -/
def PWR_THERMAL_THROTTLE_US : Fld := ⟨0x0F0038, 0, 32⟩
/-- PWR_TH_CFG[15:8] -/
def PWR_TH_CFG_HBM_THROTTLE : Fld := ⟨0x0F0040, 8, 8⟩
/-- PWR_TH_CFG[7:0] -/
def PWR_TH_CFG_TJ_THROTTLE : Fld := ⟨0x0F0040, 0, 8⟩
/-- PWR_COOLANT[63:52] -/
def PWR_COOLANT_PRESSURE : Fld := ⟨0x0F0048, 52, 12⟩
/-- PWR_COOLANT[51:36] -/
def PWR_COOLANT_FLOW : Fld := ⟨0x0F0048, 36, 16⟩
/-- PWR_COOLANT[35:24] -/
def PWR_COOLANT_OUTLET : Fld := ⟨0x0F0048, 24, 12⟩
/-- PWR_COOLANT[23:12] -/
def PWR_COOLANT_INLET : Fld := ⟨0x0F0048, 12, 12⟩
/-- PWR_COOLANT[0] -/
def PWR_COOLANT_LEAK_NOW : Fld := ⟨0x0F0048, 0, 1⟩
/-- PWR_HOLDUP[63:48] -/
def PWR_HOLDUP_ESR : Fld := ⟨0x0F0050, 48, 16⟩
/-- PWR_HOLDUP[47:32] -/
def PWR_HOLDUP_BANK_V : Fld := ⟨0x0F0050, 32, 16⟩
/-- PWR_HOLDUP[31:16] -/
def PWR_HOLDUP_COMMITTED : Fld := ⟨0x0F0050, 16, 16⟩
/-- PWR_HOLDUP[15:0] -/
def PWR_HOLDUP_USABLE : Fld := ⟨0x0F0050, 0, 16⟩
/-- PWR_HOLDUP_CFG[7:0] -/
def PWR_HOLDUP_CFG_RESERVE_J : Fld := ⟨0x0F0058, 0, 8⟩
/-- PWR_CTL[15:8] -/
def PWR_CTL_KEY : Fld := ⟨0x0F0060, 8, 8⟩
/-- PWR_CTL[1] -/
def PWR_CTL_RESTART : Fld := ⟨0x0F0060, 1, 1⟩
/-- PWR_CTL[0] -/
def PWR_CTL_SHUTDOWN : Fld := ⟨0x0F0060, 0, 1⟩
/-- PWR_OP_p[17:16] -/
def PWR_OP_IN_FORCE (p : Nat) : Fld := ⟨0x0F0080 + 8 * p, 16, 2⟩
/-- PWR_OP_p[1:0] -/
def PWR_OP_REQ (p : Nat) : Fld := ⟨0x0F0080 + 8 * p, 0, 2⟩

end Sys2Proof.Machine
end

