-- ==== Sys2Proof/Machine/Flags.lean ====
section
/-! DEFINITION. The register file: reading and writing registers and their fields, counters that wrap or saturate, the
flag-and-counter pairs of 00_scope.md R10 and 15_ledger_faults_selftest.md R398, and the capture of STEP-LATCHED and the
release of BOUNDARY-APPLIED registers at a commit (02_handshake_timing.md R32). -/

namespace Sys2Proof.Machine

/-- A register's value. -/
def Dev.reg (d : Dev) (off : Nat) : U64 := (tget d.regs off).getD (regReset off)

/-- The device with a register set. -/
def Dev.setReg (d : Dev) (off : Nat) (v : U64) : Dev := { d with regs := tput d.regs off v }

/-- A number with a bit field replaced. -/
def putBits (x : U64) (lo w v : Nat) : U64 :=
  let m : U64 := BitVec.ofNat 64 ((2 ^ w - 1) * 2 ^ lo)
  (x &&& ~~~m) ||| (BitVec.ofNat 64 (v % 2 ^ w * 2 ^ lo))

/-- A field of a value. -/
def Fld.of (f : Fld) (x : U64) : Nat := x.toNat / 2 ^ f.lo % 2 ^ f.w

/-- A field's value. -/
def Dev.getF (d : Dev) (f : Fld) : Nat := f.of (d.reg f.off)

/-- The device with a field set. -/
def Dev.setF (d : Dev) (f : Fld) (v : Nat) : Dev := d.setReg f.off (putBits (d.reg f.off) f.lo f.w v)

/-- A counter raised, wrapping. -/
def Dev.incF (d : Dev) (f : Fld) : Dev := d.setF f (d.getF f + 1)

/-- A counter raised by an amount, wrapping. -/
def Dev.addF (d : Dev) (f : Fld) (n : Nat) : Dev := d.setF f (d.getF f + n)

/-- A W1C flag set and its companion counter raised, the counter first (15 R398). -/
def Dev.flag (d : Dev) (flag cnt : Fld) : Dev := (d.incF cnt).setF flag 1

/-- The running value of a STEP-LATCHED register. -/
def Dev.liveReg (d : Dev) (off : Nat) : U64 := (tget d.live off).getD (regReset off)

/-- A field of a running value. -/
def Dev.getL (d : Dev) (f : Fld) : Nat := f.of (d.liveReg f.off)

/-- The device with a field of a running value set. -/
def Dev.setL (d : Dev) (f : Fld) (v : Nat) : Dev :=
  { d with live := tput d.live f.off (putBits (d.liveReg f.off) f.lo f.w v) }

/-- A running counter raised, saturating. -/
def Dev.satL (d : Dev) (f : Fld) (n : Nat) : Dev := d.setL f (min (d.getL f + n) (2 ^ f.w - 1))

/-- The value a BOUNDARY-APPLIED register acts with. -/
def Dev.forceReg (d : Dev) (off : Nat) : U64 := (tget d.inForce off).getD (regReset off)

/-- A field of the value a BOUNDARY-APPLIED register acts with. -/
def Dev.getB (d : Dev) (f : Fld) : Nat := f.of (d.forceReg f.off)

/-- Offsets of the registers of one class that belong to a partition. -/
def classOffsets (c : RegClass) (p : Nat) : List Nat :=
  (List.range 16).flatMap fun b => ((regsOfBlock b).filter fun r => r.cls = c && r.perPart = 1).map fun r => r.base + 8 * p

/-- STEP-LATCHED registers of a partition capture their running values (02 R32). -/
def Dev.latch (d : Dev) (p : Nat) : Dev :=
  (classOffsets .stepLatched p).foldl (fun e off => e.setReg off (e.liveReg off)) d

/-- BOUNDARY-APPLIED registers of a partition take effect (02 R32). -/
def Dev.applyB (d : Dev) (p : Nat) : Dev :=
  (classOffsets .boundaryApplied p).foldl (fun e off => { e with inForce := tput e.inForce off (e.reg off) }) d

/-! ### Partitions, read from the registers that report them (13 R341, Table 13.1) -/

/-- A partition is present when the slice map defines it: it then owns rings (03 Table 03.15). -/
def Dev.present (d : Dev) (p : Nat) : Bool := decide (p < 8) && decide (d.getF (RNG_PART_RINGS_RING_COUNT p) > 0)

/-- The lead partition: the lowest-numbered present one (03 R72, 13 R347). -/
def Dev.lead (d : Dev) : Nat := ((List.range 8).find? fun p => d.present p).getD 0

/-- Partition that owns a ring number (03 R49). -/
def Dev.ringOwner (d : Dev) (n : Nat) : Option Nat :=
  (List.range 8).find? fun p => decide (d.getF (RNG_PART_RINGS_RING_FIRST p) ≤ n ∧
    n < d.getF (RNG_PART_RINGS_RING_FIRST p) + d.getF (RNG_PART_RINGS_RING_COUNT p))

/-- Partition that owns a vector (03 R49). -/
def Dev.vecOwner (d : Dev) (n : Nat) : Option Nat :=
  (List.range 8).find? fun p => decide (d.getF (RNG_PART_RINGS_VEC_FIRST p) ≤ n ∧
    n < d.getF (RNG_PART_RINGS_VEC_FIRST p) + d.getF (RNG_PART_RINGS_VEC_COUNT p))

/-- Partition that owns a local session number (04 R86). -/
def Dev.locOwner (d : Dev) (n : Nat) : Option Nat :=
  (List.range 8).find? fun p => decide (d.getF (TUS_PART_FIRST p) ≤ n ∧
    n < d.getF (TUS_PART_FIRST p) + d.getF (TUS_PART_COUNT p))

/-- Whole-device mode (13 R341). -/
def Dev.whole (d : Dev) : Bool := d.getF (SEC_PART_WHOLE 0) == 1

/-- This device's ID (11 R305). -/
def Dev.id (d : Dev) : Nat := d.getF FAB_ID_DEVICE_ID

/-- Step state of a partition. -/
def Dev.stepP (d : Dev) (p : Nat) : StepP := tgetD d.step p {}

/-- The device with a partition's step state changed. -/
def Dev.modStep (d : Dev) (p : Nat) (f : StepP → StepP) : Dev := { d with step := tmod d.step p {} f }

/-- PHASE of a partition's step (02 Table 02.7). -/
def Dev.phase (d : Dev) (p : Nat) : Nat := d.getF (GLB_STEP_STATUS_PHASE p)

/-- The device with PHASE set. -/
def Dev.setPhase (d : Dev) (p v : Nat) : Dev := d.setF (GLB_STEP_STATUS_PHASE p) v

/-- A partition is halted (02 R38). -/
def Dev.halted (d : Dev) (p : Nat) : Bool := d.phase p == 5

end Sys2Proof.Machine
end

