-- ==== Sys2Proof/Machine/Operands.lean ====
section
/-! DEFINITION. Operand forms: the fields of a descriptor (03_rings_doorbells.md R60), the opcode table with what each
opcode allows (R61–R63 and the body tables of files 04 to 15), handles, and who makes a host access (17 R443, 13 R347). -/

namespace Sys2Proof.Machine

/-- Field of a descriptor's body: byte offset in the descriptor (16 to 63) and size in bytes. -/
def fieldAt (d : Desc) (off size : Nat) : Nat := d.body.toNat / 2 ^ (8 * (off - 16)) % 2 ^ (8 * size)

/-- Body bits that an opcode uses, as byte offset and number of bits. -/
abbrev BodyMap := List (Nat × Nat)

/-- Mask of the bits that a body map lists. -/
def bodyMask (m : BodyMap) : BitVec 384 :=
  m.foldl (fun a f => a ||| BitVec.ofNat 384 ((2 ^ f.2 - 1) * 2 ^ (8 * (f.1 - 16)))) 0

/-- One opcode: number, accepted on admin rings only (R62), STREAM allowed (R61), TARGET named (R60), body bits used. -/
structure OpRow where
  op     : Byte
  admin  : Bool
  stream : Bool
  target : Bool
  body   : BodyMap
  deriving DecidableEq, Repr

/-- Classes 0x0 to 0x3 (Tables 03.5, 03.6, 04.5, 05.5, 06.6). -/
def opRowsA : List OpRow := [
  ⟨0x00, false, false, false, []⟩,
  ⟨0x01, true, false, false, [(16, 64), (24, 64), (32, 16), (34, 8), (35, 8), (36, 16), (38, 16), (40, 8), (42, 16)]⟩,
  ⟨0x02, true, false, false, [(16, 16)]⟩,
  ⟨0x03, true, false, false, [(16, 16), (20, 32)]⟩,
  ⟨0x04, true, false, false, [(16, 16), (18, 16), (20, 16)]⟩,
  ⟨0x05, true, false, false, [(16, 256), (48, 16)]⟩,
  ⟨0x06, false, false, true, [(16, 64), (24, 8), (25, 1), (26, 16), (28, 32)]⟩,
  ⟨0x10, false, false, false, [(16, 8), (17, 2), (18, 1), (20, 16), (24, 64), (32, 32)]⟩,
  ⟨0x11, false, false, true, [(16, 64), (24, 32), (28, 1), (29, 8)]⟩,
  ⟨0x12, false, true, true, [(16, 32), (20, 16), (22, 16), (24, 64), (32, 32)]⟩,
  ⟨0x13, false, true, true, [(16, 32), (20, 16), (22, 16), (24, 64), (32, 32), (36, 1), (37, 8), (38, 8)]⟩,
  ⟨0x14, false, false, true, [(16, 8), (17, 8)]⟩,
  ⟨0x15, false, false, true, [(16, 1)]⟩,
  ⟨0x16, false, false, true, []⟩,
  ⟨0x20, false, false, false, [(16, 32), (20, 8), (21, 8), (22, 8), (23, 8), (24, 16), (26, 2), (32, 64)]⟩,
  ⟨0x21, false, false, true, []⟩,
  ⟨0x22, false, false, true, [(16, 8), (17, 8)]⟩,
  ⟨0x23, false, false, true, [(16, 32), (20, 32), (24, 2)]⟩,
  ⟨0x24, false, false, true, [(16, 32), (20, 32), (24, 8), (32, 64)]⟩,
  ⟨0x25, false, false, true, [(16, 64), (24, 32), (28, 32), (32, 64)]⟩,
  ⟨0x26, false, false, true, [(16, 64), (24, 32), (28, 32), (32, 64)]⟩,
  ⟨0x27, false, false, true, [(16, 256), (48, 8)]⟩,
  ⟨0x28, false, false, true, [(16, 64), (24, 32), (28, 32), (32, 8)]⟩,
  ⟨0x29, false, false, true, [(16, 64), (24, 32), (28, 32)]⟩,
  ⟨0x30, false, false, true, [(16, 64), (24, 32)]⟩,
  ⟨0x31, false, false, true, [(16, 32)]⟩,
  ⟨0x32, false, false, true, [(16, 8), (17, 8), (18, 8)]⟩]

/-- Classes 0x4 to 0x7 (Tables 08.7, 09.5, 10.4, 11.6). -/
def opRowsB : List OpRow := [
  ⟨0x40, false, false, false, [(16, 64), (24, 64)]⟩,
  ⟨0x41, false, false, true, [(16, 1)]⟩,
  ⟨0x42, false, false, true, []⟩,
  ⟨0x43, false, false, false, [(16, 16), (18, 8), (20, 32)]⟩,
  ⟨0x44, false, false, false, [(16, 16)]⟩,
  ⟨0x45, false, false, false, [(16, 13), (18, 16), (20, 8), (21, 1), (24, 32)]⟩,
  ⟨0x50, false, false, false, [(16, 64)]⟩,
  ⟨0x51, false, false, true, [(16, 64), (24, 64)]⟩,
  ⟨0x52, false, false, false, [(16, 8), (20, 32), (24, 32), (28, 32), (32, 32), (36, 32)]⟩,
  ⟨0x53, false, false, false, [(16, 16), (20, 32), (24, 32), (28, 32), (32, 1)]⟩,
  ⟨0x54, false, false, false, [(16, 16), (18, 8), (20, 32), (24, 64), (32, 32), (40, 64)]⟩,
  ⟨0x55, false, false, false, [(16, 16), (18, 48)]⟩,
  ⟨0x56, false, false, false, [(16, 8), (18, 16)]⟩,
  ⟨0x57, false, false, true, [(16, 64)]⟩,
  ⟨0x60, false, false, false, [(16, 64), (24, 64), (32, 64), (40, 32), (44, 32), (48, 16), (50, 8), (51, 8), (52, 16),
    (54, 8), (55, 8), (56, 16), (58, 16)]⟩,
  ⟨0x61, false, false, true, []⟩,
  ⟨0x62, false, false, true, [(16, 64), (24, 64), (32, 32)]⟩,
  ⟨0x63, false, false, true, [(16, 64), (24, 32)]⟩,
  ⟨0x64, false, false, true, [(16, 64), (24, 64), (32, 16), (34, 16), (36, 16), (38, 16), (40, 1)]⟩,
  ⟨0x65, false, false, true, []⟩,
  ⟨0x66, false, false, true, []⟩,
  ⟨0x70, false, false, false, [(16, 12), (18, 8), (19, 3), (20, 32), (24, 8), (25, 8)]⟩,
  ⟨0x71, false, false, true, []⟩,
  ⟨0x72, true, false, true, []⟩,
  ⟨0x73, false, false, false, [(16, 8)]⟩,
  ⟨0x74, false, false, false, [(16, 64), (24, 64), (32, 32)]⟩,
  ⟨0x75, false, false, false, [(16, 64), (24, 64), (32, 32)]⟩,
  ⟨0x76, false, false, true, [(16, 12), (18, 8), (20, 32), (24, 16)]⟩,
  ⟨0x77, false, false, false, [(16, 12), (20, 32), (24, 16), (28, 32)]⟩,
  ⟨0x78, true, false, false, [(16, 64), (24, 32), (28, 8)]⟩]

/-- Classes 0x8 to 0xB (Tables 12.5, 13.8, 14.7, 15.11). -/
def opRowsC : List OpRow := [
  ⟨0x80, true, false, false, [(16, 16), (18, 8), (19, 8), (20, 32), (24, 32), (28, 8)]⟩,
  ⟨0x81, true, false, false, [(16, 16)]⟩,
  ⟨0x82, true, false, false, [(16, 16), (20, 32), (24, 32), (28, 32), (32, 32), (36, 8)]⟩,
  ⟨0x83, true, false, false, [(16, 16)]⟩,
  ⟨0x90, true, false, false, [(16, 16), (18, 16), (20, 8), (22, 16), (24, 320)]⟩,
  ⟨0x91, true, false, false, [(16, 16), (18, 16)]⟩,
  ⟨0x92, true, false, false, [(16, 16), (18, 16), (20, 16)]⟩,
  ⟨0x93, true, false, false, [(16, 16), (18, 16)]⟩,
  ⟨0x94, true, false, false, [(16, 64), (24, 16), (26, 16), (28, 16)]⟩,
  ⟨0xA0, true, false, true, [(16, 32), (20, 8), (21, 8), (22, 16), (24, 64), (32, 64), (40, 64), (48, 8)]⟩,
  ⟨0xA1, true, false, true, [(16, 32), (20, 1)]⟩,
  ⟨0xA2, true, false, true, [(16, 64), (24, 32), (28, 16), (30, 4), (32, 64), (40, 64), (48, 32)]⟩,
  ⟨0xA3, true, false, false, [(16, 64), (24, 32)]⟩,
  ⟨0xB0, true, false, false, [(16, 64), (24, 32), (28, 32)]⟩,
  ⟨0xB1, true, false, false, []⟩,
  ⟨0xB2, true, false, false, [(16, 8), (17, 8), (20, 32), (24, 64)]⟩,
  ⟨0xB3, true, false, false, [(16, 64), (24, 32)]⟩]

/-- The opcode table. -/
def opRow (op : Byte) : Option OpRow :=
  (if op.toNat < 0x40 then opRowsA else if op.toNat < 0x80 then opRowsB else opRowsC).find? fun r => r.op = op

/-- Block that acts on an opcode (Table 03.4, R71); RNG for a class that is not defined. -/
def opBlock (op : Byte) : Nat :=
  match op.toNat / 16 with
  | 0 => 0x01
  | 1 => 0x02
  | 2 => 0x04
  | 3 => 0x05
  | 4 => 0x07
  | 5 => 0x08
  | 6 => 0x09
  | 7 => 0x0A
  | 8 => 0x0B
  | 9 => 0x0C
  | 10 => 0x0D
  | 11 => 0x0E
  | _ => 0x01

/-! ### Statuses (Table 03.8) -/

/-- OK -/
def stOk : Byte := 0x00
/-- OK_TRUNCATED -/
def stTruncated : Byte := 0x01
/-- OK_STOPPED -/
def stStopped : Byte := 0x02
/-- OK_REPLACED_CHARS -/
def stReplaced : Byte := 0x03
/-- DROPPED_POLICED -/
def stPoliced : Byte := 0x10
/-- DEFERRED_HOLDUP -/
def stHoldup : Byte := 0x11
/-- RETRY_STALE_MAP -/
def stStale : Byte := 0x12
/-- ACCESS_DENIED -/
def stDenied : Byte := 0x20
/-- BAD_DESCRIPTOR -/
def stBad : Byte := 0x21
/-- NO_SUCH_SESSION -/
def stNoSession : Byte := 0x22
/-- WRONG_STATE -/
def stWrong : Byte := 0x23
/-- LIMIT_EXCEEDED -/
def stLimit : Byte := 0x24
/-- POISONED_DATA -/
def stPoison : Byte := 0x30
/-- UNCORRECTABLE_WEIGHT -/
def stWeight : Byte := 0x31
/-- EXTENT_REVOKED -/
def stExtent : Byte := 0x32
/-- TENANT_REVOKED -/
def stTenant : Byte := 0x33
/-- LEDGER_FAULT -/
def stLedger : Byte := 0x34
/-- PEER_LOST -/
def stPeer : Byte := 0x35
/-- INTERNAL -/
def stInternal : Byte := 0x3F

/-- A status whose completion is accompanied by a fault record (Table 03.8). -/
def stLogged (st : Byte) : Bool := st = stDenied || st = stBad || 0x30 ≤ st.toNat

/-- Low byte of the fault code of a status (R71); the manual gives none for some (log 15). -/
def stCode (st : Byte) : Nat :=
  if st = stDenied then 0x01 else if st = stBad then 0x02 else if st = stPoison then 0x05
  else if st = stInternal then 0x08 else (Config.faultLow st).toNat

/-! ### Host accesses (17 R443, R444; 13 R345–R347, R357) -/

/-- Partition that a function acts for; none for PF0 in partitioned mode. -/
def HostFnPart (d : Dev) : HostFn → Option Nat
  | .pf0 _ => if d.whole then some 0 else none
  | .vf n _ => some (n - 1)

/-- Host-role port that a function is on. -/
def HostFnPort : HostFn → Nat
  | .pf0 l => l
  | .vf _ l => l

/-- Master ID of a function (Table 13.2). -/
def HostFnMaster (d : Dev) (f : HostFn) : Nat :=
  match HostFnPart d f with
  | some p => 0x400 + 16 * p + HostFnPort f
  | none => 0x480 + HostFnPort f

/-- The function exists on its port (R443). -/
def HostFnExists (d : Dev) : HostFn → Bool
  | .pf0 l => decide (l < 4) && (d.getF GLB_ASSEMBLY_HOST_ROLE).testBit l
  | .vf n l => !d.whole && decide (1 ≤ n ∧ n ≤ 8) && d.present (n - 1) && (d.getF (SEC_PART_HOST_PORTS (n - 1))).testBit l

/-- The function is its partition's primary one (R444): that on the lowest-numbered port of HOST_PORTS. -/
def HostFnPrimary (d : Dev) (f : HostFn) : Bool :=
  match HostFnPart d f with
  | some p => ((List.range 4).find? fun l => (d.getF (SEC_PART_HOST_PORTS p)).testBit l) == some (HostFnPort f)
  | none => true

/-- Host ports carry accesses: reset is released and X4 or Y2 has not come (16 Tables 16.9–16.11). -/
def Dev.hostUp (d : Dev) : Bool :=
  match d.pwr.seq with
  | .u5 | .u6 | .x1 => true
  | _ => false

/-- The function of a partition is presented on some host port; in RECOVERY only PF0 is (16 R437). -/
def Dev.funcUp (d : Dev) (p : Nat) : Bool :=
  d.hostUp && d.getF PWR_STATE_STATE != 2 && d.present p && d.getF (SEC_PART_HOST_PORTS p) != 0

/-- A register access is admitted (17 R440, R443, R444; 13 R347, R348, R357); in RECOVERY PF0 of L-die 0 reads GLB and PWR registers and
nothing else is allowed (16 R437). -/
def Dev.admits (d : Dev) (a : Access) (off size : Nat) (isWrite : Bool) : Bool :=
  size == 8 &&
  match regAt off with
  | none => false
  | some (r, i) =>
    if d.getF PWR_STATE_STATE = 2 then a.fn == .pf0 0 && !isWrite && (off / 0x10000 == 0 || off / 0x10000 == 0xF)
    else HostFnExists d a.fn &&
    match HostFnPart d a.fn with
    | none => !isWrite
    | some p =>
      !d.dmaStopped p && (!d.teeOnly p || a.tee) &&
      (match r.part i with
       | some q => p == q
       | none => !isWrite || p == d.lead) &&
      (!isWrite || off / 0x10000 != 1 || HostFnPrimary d a.fn)

/-! ### Handles (04 R84, 05 R128, 08 R215, 10 R268, 11 R307) -/

/-- Device ID of any handle: [63:52]. -/
def hDevice (h : U64) : Nat := h.toNat / 2 ^ 52

/-- Partition of any handle: [51:49]. -/
def hPart (h : U64) : Nat := h.toNat / 2 ^ 49 % 8

/-- Generation of a session or index handle: [48:22]. -/
def hGen (h : U64) : Nat := h.toNat / 2 ^ 22 % 2 ^ 27

/-- Local or index number of a session or index handle: [21:0]. -/
def hLocal (h : U64) : Nat := h.toNat % 2 ^ 22

/-- Generation of a region handle: [48:16]. -/
def hRegionGen (h : U64) : Nat := h.toNat / 2 ^ 16 % 2 ^ 33

/-- Number of a region handle: [15:0]. -/
def hRegion (h : U64) : Nat := h.toNat % 2 ^ 16

/-- A session or index handle. -/
def mkHandle (dev part gen num : Nat) : U64 :=
  BitVec.ofNat 64 (dev * 2 ^ 52 + part * 2 ^ 49 + gen % 2 ^ 27 * 2 ^ 22 + num % 2 ^ 22)

/-- A region handle. -/
def mkRegionHandle (dev part gen num : Nat) : U64 :=
  BitVec.ofNat 64 (dev * 2 ^ 52 + part * 2 ^ 49 + gen % 2 ^ 33 * 2 ^ 16 + num % 2 ^ 16)

end Sys2Proof.Machine
end

