-- ==== Sys2Proof/Machine/Faults.lean ====
section
/-! DEFINITION. Interrupts, fault records with the error-log rings and the flash log, telemetry records
(03_rings_doorbells.md R69–R74, R81, R82; 15_ledger_faults_selftest.md R401). -/

namespace Sys2Proof.Machine

/-! ### Interrupts (03 R73) -/

/-- A vector's state. -/
def Dev.vec (d : Dev) (v : Nat) : Vec := tgetD d.rng.vec v {}

/-- The device with a vector's state set. -/
def Dev.setVec (d : Dev) (v : Nat) (x : Vec) : Dev := { d with rng := { d.rng with vec := tput d.rng.vec v x } }

/-- An interrupt: a message, or the pending bit of a masked vector; the count starts again. -/
def Dev.sendIrq (d : Dev) (v : Nat) : Dev :=
  let x := d.vec v
  let d := d.setVec v { x with count := 0, timer := false, pend := x.pend || x.mask }
  if x.mask || (d.vecOwner v).any d.dmaStopped then d else d.emit (.msi v)

/-- One more completion counted for a vector, and an interrupt at once where R73 asks for one: MOD_COUNT 1 or `now`. A
larger MOD_COUNT is reached by the row IRQ_MOD_COUNT_REACHED (log 17). -/
def Dev.countIrq (d : Dev) (v : Nat) (now : Bool) : Dev :=
  let x := d.vec v
  let d := d.setVec v { x with count := x.count + 1, timer := x.timer || x.modTime != 0 }
  if now || x.modCnt ≤ 1 then d.sendIrq v else d

/-! ### Partition state of the ring engine -/

/-- Ring-engine state of a partition. -/
def Dev.pr (d : Dev) (p : Nat) : PartRing := tgetD d.rng.part p {}

/-- The device with a partition's ring-engine state changed. -/
def Dev.modPr (d : Dev) (p : Nat) (f : PartRing → PartRing) : Dev :=
  { d with rng := { d.rng with part := tmod d.rng.part p {} f } }

/-- An error-log or telemetry ring of 2^`log2` records can take one more (R58, R72). -/
def LogRing.room (l : LogRing) (log2 : Nat) : Bool :=
  log2 != 0 && !l.stopped && decide ((l.written - l.head).toNat < 2 ^ log2)

/-- PHASE of a ring's next entry (R66): 1 on the first pass, inverted on each wrap. -/
def phaseOf (written : U32) (log2 : Nat) : Bool := written.toNat / 2 ^ log2 % 2 == 0

/-! ### Fault records (03 R70–R72) -/

/-- A record written into the partition's error-log ring, which has room; it interrupts at once. -/
def Dev.writeFault (d : Dev) (p : Nat) (r : FaultRec) : Dev :=
  let l := (d.pr p).errlog
  let log2 := d.getF (RNG_ERRLOG_LOG2 p)
  let addr := BitVec.ofNat 64 (d.getF (RNG_ERRLOG_BASE p) * 4096 + 32 * (l.written.toNat % 2 ^ log2))
  let d := d.emitFor p (.faultRec addr (phaseOf l.written log2) r)
  let d := d.modPr p fun x => { x with errlog := { x.errlog with written := l.written + 1 } }
  d.countIrq (d.getF (RNG_EVENT_VEC_ERRLOG_VEC p)) true

/-- A record to the ring, the buffer of 1,024, or lost and counted (R72). -/
def Dev.logFault (d : Dev) (p : Nat) (r : FaultRec) : Dev :=
  let x := d.pr p
  if x.buffer.isEmpty && x.errlog.room (d.getF (RNG_ERRLOG_LOG2 p)) then d.writeFault p r
  else if x.buffer.length < 1024 then d.modPr p fun x => { x with buffer := x.buffer ++ [r] }
  else d.flag (RNG_STATUS_ERRLOG_OVF p) (RNG_STATUS_ERRLOG_LOST p)

/-- Records of the flash log (15 R401). -/
def flashLogSize : Nat := 2097152

/-- A record copied to the flash log unless 256 were copied within the millisecond (15 R401). -/
def Dev.flashCopy (d : Dev) (r : FaultRec) : Dev :=
  let recent := d.flash.copies.filter fun t => decide (d.clock.now.toNat < t.toNat + 1000000)
  if recent.length < 256 then
    let nx := (d.flash.next + 1) % 2 ^ 32
    let d := { d with flash := { d.flash with log := (r :: d.flash.log).take flashLogSize, next := nx,
                                              copies := d.clock.now :: recent } }
    d.setF LDG_FLASHLOG_NEXT nx
  else { d.incF LDG_FLASHLOG_LOST with flash := { d.flash with copies := recent } }

/-- Record of the flash log at an index, if it has been written and not overwritten. -/
def Dev.logAt (d : Dev) (i : Nat) : Option FaultRec := d.flash.log[(d.flash.next + 2 ^ 32 - 1 - i) % 2 ^ 32]?

/-- A fault of partition `part`, or of none: then it is device-scope, and the lead partition's ring receives it (R72).
`comp` is 0xFF when no status was returned. -/
def Dev.raiseAt (d : Dev) (part : Option Nat) (code : Nat) (addr : U64) (space master target : Nat) (comp : Byte) : Dev :=
  let p := part.getD d.lead
  let r : FaultRec := { addr := addr, step := (d.stepP p).number, time := d.clock.now, code := code, master := master,
                        target := target, space := space, system := part.isNone, part := p, comp := comp }
  let fresh := part.isNone || !(d.pr p).seen.contains code
  let d := if part.isNone then d else d.modPr p fun x => { x with seen := code :: x.seen.filter (· != code) }
  let d := if fresh then d.flashCopy r else d
  d.logFault p r

/-- A fault that an engine raises with no status: TARGET is its own block, instance 0; MASTER is the engine `master`. -/
def Dev.raise (d : Dev) (part : Option Nat) (code : Nat) (addr : U64) (space master : Nat) : Dev :=
  d.raiseAt part code addr space master (code / 256 * 256) 0xFF

/-- A fault for which the manual states no address: ADDRESS is a free value (log 8). -/
def Dev.raiseOpen (d : Dev) (part : Option Nat) (code master : Nat) : Dev :=
  let (a, d) := d.draw
  d.raise part code a 2 master

/-! ### Telemetry (03 R81, R82) -/

/-- A telemetry record of a type that TELEM_CFG enables: written, or lost and counted; nothing while no ring is set. -/
def Dev.telem (d : Dev) (p type source inst : Nat) (step : U64) (payload : List Byte) : Dev :=
  let x := d.pr p
  let log2 := d.getF (RNG_TELEM_LOG2 p)
  if log2 = 0 || !x.typeMask.getLsbD type then d
  else
    let d := d.modPr p fun x => { x with seq := x.seq + 1 }
    if x.telem.room log2 then
      let r : TelemRec := { step := step, time := d.clock.now, payload := padTo 40 payload, type := type,
                            source := source, inst := inst, seq := x.seq, part := p }
      let addr := BitVec.ofNat 64 (d.getF (RNG_TELEM_BASE p) * 4096 + 64 * (x.telem.written.toNat % 2 ^ log2))
      let d := d.emitFor p (.telemetry addr (phaseOf x.telem.written log2) r)
      let d := d.modPr p fun x => { x with telem := { x.telem with written := x.telem.written + 1 } }
      d.countIrq (d.getF (RNG_EVENT_VEC_TELEM_VEC p)) false
    else d.flag (RNG_STATUS_TELEM_OVF p) (RNG_STATUS_TELEM_LOST p)

/-! ### TDI states (13 R357) -/

/-- TDI state of a partition. -/
def Dev.tdi (d : Dev) (p : Nat) : TdiState := (tget d.sec.tdi p).getD .unlocked

/-- Code of a TDI state (SEC_TDI_p.STATE). -/
def TdiState.code : TdiState → Nat
  | .unlocked => 0
  | .locked => 1
  | .run => 2
  | .error => 3
  | .scrubbing => 4

/-- The device with a partition's TDI state set. -/
def Dev.setTdi (d : Dev) (p : Nat) (x : TdiState) : Dev :=
  ({ d with sec := { d.sec with tdi := tput d.sec.tdi p x } }).setF (SEC_TDI_STATE p) x.code

/-- A TDI enters ERROR: scanning and DMA of the partition stop (R357). -/
def Dev.tdiFail (d : Dev) (p : Nat) : Dev :=
  let d := (d.setTdi p .error).flag SEC_STATUS_TDI_ERROR SEC_EVENTS_TDI_ERROR_COUNT
  d.modPr p fun x => { x with scan := [], pending := false, timer := false }

end Sys2Proof.Machine
end

