-- ==== Sys2Proof/Machine/Accounts.lean ====
section
/-! DEFINITION. The ledger (15_ledger_faults_selftest.md R388–R393): moves of counted units, the records that engines
send for them, and the check of E7. Places are those of Table 15.1, and 6 stands for OUTSIDE. -/

namespace Sys2Proof.Machine

/-- OUTSIDE (R389). -/
def outside : Nat := 6

/-- Key of an instance. -/
def ledgerKey (cls inst : Nat) : Nat := cls * 0x1000000 + inst

/-- Places that a class uses (Table 15.1). -/
def ledgerPlaces (cls : Nat) : Nat :=
  match cls with
  | 0 => 6
  | 1 => 1
  | 2 => 4
  | 3 => 2
  | 4 => 6
  | 5 => 3
  | _ => 0

/-- A sum changed at one place; OUTSIDE has none. -/
def addAt : List Int → Nat → Int → List Int
  | [], _, _ => []
  | x :: r, 0, a => (x + a) :: r
  | x :: r, n + 1, a => x :: addAt r n a

/-- An instance with nothing in it. -/
def Ledger.empty (part : Option Nat) : Ledger :=
  { held := List.replicate 6 0, actual := List.replicate 6 0, part := part }

/-- An instance. -/
def Dev.led (d : Dev) (cls inst : Nat) : Option Ledger := tget d.ldg.inst (ledgerKey cls inst)

/-- The device with an instance set. -/
def Dev.setLed (d : Dev) (cls inst : Nat) (l : Ledger) : Dev :=
  { d with ldg := { d.ldg with inst := tput d.ldg.inst (ledgerKey cls inst) l } }

/-- One move of a counted unit: what the engine holds changes at once, and a delta record with the number of the step in
progress is on its way (R389). A move out of OUTSIDE opens an instance; any other move needs one. -/
def Dev.move (d : Dev) (cls inst fromP toP amount : Nat) (part : Option Nat) : Dev :=
  match (match d.led cls inst with
         | some l => some l
         | none => if fromP = outside then some (Ledger.empty part) else none) with
  | none => d
  | some l =>
    if amount = 0 then d
    else
      let d := d.setLed cls inst
        { l with actual := addAt (addAt l.actual fromP (-(amount : Int))) toP (amount : Int) }
      let p := part.getD d.lead
      { d with ldg := { d.ldg with flying := d.ldg.flying ++
          [{ cls := cls, inst := inst, fromP := fromP, toP := toP, amount := amount,
             step := (d.stepP p).number.toNat, part := p }] } }

/-- A record applied to an instance: a move changes no sum, OUTSIDE changes TOTAL (R389). -/
def Ledger.apply (l : Ledger) (r : Delta) : Ledger :=
  { l with held := addAt (addAt l.held r.fromP (-r.amount)) r.toP r.amount,
           total := l.total + (if r.fromP = outside then r.amount else 0) - (if r.toP = outside then r.amount else 0) }

/-- A record applied by the ledger; one that names no instance is discarded. -/
def Dev.applyDelta (d : Dev) (r : Delta) : Dev :=
  match d.led r.cls r.inst with
  | none => d
  | some l => d.setLed r.cls r.inst (l.apply r)

/-- Records of steps up to `k` of partition `p` applied; later ones stay held (R391). -/
def Dev.applyDeltas (d : Dev) (p k : Nat) : Dev :=
  let due := fun (r : Delta) => r.part == p && decide (r.step ≤ k)
  let ds := d.ldg.flying.filter due
  let d := { d with ldg := { d.ldg with flying := d.ldg.flying.filter fun r => !due r } }
  ds.foldl (fun d r => d.applyDelta r) d

/-- An instance removed once nothing of it is left: its records are applied first. -/
def Dev.endLed (d : Dev) (cls inst : Nat) : Dev :=
  { d with ldg := { d.ldg with inst := tdel d.ldg.inst (ledgerKey cls inst),
                               flying := d.ldg.flying.filter fun r => !(r.cls == cls && r.inst == inst) } }

/-- Kinds of failure (R392): SUM, NEGATIVE, ACTUAL, EVENT. -/
structure LedgerFail where
  cls   : Nat
  inst  : Nat
  place : Nat
  kind  : Nat
  deriving DecidableEq, Repr

/-- First place of an instance that is negative, or differs from the actual figure (R391). -/
def Ledger.badPlace (l : Ledger) : Nat → List Int → List Int → Option (Nat × Nat)
  | _, [], _ => none
  | x, h :: hs, as =>
    if h < 0 then some (x, 1)
    else match as with
      | [] => Ledger.badPlace l (x + 1) hs []
      | a :: ar => if a ≠ h then some (x, 2) else Ledger.badPlace l (x + 1) hs ar

/-- The check of one instance (R391). -/
def Ledger.check (l : Ledger) (cls inst : Nat) : Option LedgerFail :=
  if l.held.sum ≠ l.total then some ⟨cls, inst, 0xFF, 0⟩
  else (l.badPlace 0 l.held l.actual).map fun x => ⟨cls, inst, x.1, x.2⟩

/-- The check of a step of partition `p` (R391): its instances in order, the device-scope ones with the lead partition,
then the events of the step. The first failure ends it (DEDUCED, log 18). -/
def Dev.ledgerCheck (d : Dev) (p : Nat) : Option LedgerFail :=
  let mine := d.ldg.inst.filter fun e => e.2.part == some p || (e.2.part.isNone && p == d.lead)
  match mine.findSome? fun e => e.2.check (e.1 / 0x1000000) (e.1 % 0x1000000) with
  | some f => some f
  | none => (d.ldg.events.find? fun e => e.2.2 == p).map fun e => ⟨e.1, e.2.1, 0xFF, 3⟩

/-- An instance failed for this partition or for the whole device (Table 15.3). -/
def Dev.ledgerScope (d : Dev) (f : LedgerFail) : Option Nat :=
  match d.led f.cls f.inst with
  | some l => l.part
  | none => none

/-- ADDRESS of a LEDGER_MISMATCH record (R392). -/
def LedgerFail.address (f : LedgerFail) : U64 :=
  BitVec.ofNat 64 (f.kind * 2 ^ 40 + f.place * 2 ^ 32 + f.cls * 2 ^ 24 + f.inst)

/-- Results of the last check written into the instances of a partition (Table 15.2). -/
def Dev.markChecked (d : Dev) (p : Nat) (fail : Option LedgerFail) : Dev :=
  let g := fun (e : Nat × Ledger) =>
    if e.2.part == some p || (e.2.part.isNone && p == d.lead) then
      (e.1, { e.2 with result := if fail.any (fun f => ledgerKey f.cls f.inst == e.1) then 2 else 1 })
    else e
  { d with ldg := { d.ldg with inst := d.ldg.inst.map g } }

/-- An event that fails the next check (R391): class and instance, for a partition. -/
def Dev.ledgerEvent (d : Dev) (cls inst p : Nat) : Dev :=
  { d with ldg := { d.ldg with events := d.ldg.events ++ [(cls, inst, p)] } }

/-! ### Frames of T1 (class 0x0) -/

/-- Frame counts of a partition. -/
def Dev.frames (d : Dev) (p : Nat) : Frames := tgetD d.tier.frames p {}

/-- One place of a partition's frames changed. -/
def Frames.add (f : Frames) (place : Nat) (n : Int) : Frames :=
  match place with
  | 0 => { f with free := (f.free + n).toNat }
  | 1 => { f with kv := (f.kv + n).toNat }
  | 2 => { f with region := (f.region + n).toNat }
  | 3 => { f with system := (f.system + n).toNat }
  | 4 => { f with reserved := (f.reserved + n).toNat }
  | _ => { f with retired := (f.retired + n).toNat }

/-- Frames moved between places: 0 FREE, 1 KV, 2 REGION, 3 META, 4 RESERVED, 5 RETIRED. -/
def Dev.moveFrames (d : Dev) (p fromP toP n : Nat) : Dev :=
  let g := fun (f : Frames) => (f.add fromP (-(n : Int))).add toP (n : Int)
  let d := { d with tier := { d.tier with frames := tmod d.tier.frames p {} g } }
  d.move 0 p fromP toP n (some p)

end Sys2Proof.Machine
end

