-- ==== Sys2Proof/Machine/Rings.lean ====
section
/-! DEFINITION. The life of a descriptor (03_rings_doorbells.md R50–R79): CQ slots, arrival and policing (12 R324–R326),
start order, the checks that every opcode shares (R60–R62, 15 R392), completions and their interrupts, draining rings. -/

namespace Sys2Proof.Machine

/-! ### Rings and their slots -/

/-- A ring. -/
def Dev.ring (d : Dev) (n : Nat) : Ring := tgetD d.rng.ring n {}

/-- The device with a ring set. -/
def Dev.setRing (d : Dev) (n : Nat) (r : Ring) : Dev := { d with rng := { d.rng with ring := tput d.rng.ring n r } }

/-- The ring that is the admin ring of a partition (R49). -/
def Dev.adminRing (d : Dev) (p : Nat) : Nat := d.getF (RNG_PART_RINGS_RING_FIRST p)

/-- A ring is its partition's admin ring. -/
def Dev.isAdmin (d : Dev) (n : Nat) : Bool :=
  match d.ringOwner n with
  | some p => d.adminRing p == n
  | none => false

/-- Slots of a CQ neither used nor reserved (R59). -/
def Ring.cqFree (q : Ring) : Nat := 2 ^ q.cqLog2 - (q.written - q.cqHead).toNat - q.reserved

/-- Slots of a CQ moved between FREE (0), IN_USE (1) and RESERVED (2) (15 Table 15.1 class 0x5). -/
def Dev.cqMove (d : Dev) (n fromP toP amount : Nat) : Dev :=
  d.move 5 (16 + n) fromP toP amount (some ((d.ringOwner n).getD 0))

/-- One slot of a CQ reserved for a final completion (R59). -/
def Dev.reserve (d : Dev) (n : Nat) : Dev :=
  let q := d.ring n
  (d.setRing n { q with reserved := q.reserved + 1 }).cqMove n 0 2 1

/-- Reserved slots of a CQ given back. -/
def Dev.unreserve (d : Dev) (n k : Nat) : Dev :=
  let q := d.ring n
  (d.setRing n { q with reserved := q.reserved - k }).cqMove n 2 0 k

/-- A ring DISABLED, its CQ's ledger instance ended (R51, 15 R389). A CQ that another ring still completes into outlives its ring: only the
admin ring can leave one so, through RNG_ADMIN_SQ_p (DESIGN CHOICE, log 54). -/
def Dev.disable (d : Dev) (n : Nat) : Dev :=
  let r := d.ring n
  if (d.rng.ring.any fun (e : Nat × Ring) => e.1 != n && e.2.st != .disabled && e.2.cqTarget == n) then
    d.setRing n { cqBase := r.cqBase, cqLog2 := r.cqLog2, cqTarget := n, vector := r.vector, cqHead := r.cqHead, written := r.written,
                  reserved := r.reserved }
  else (d.setRing n {}).endLed 5 (16 + n)

/-- Host address of the slot of descriptor number `n` of a ring (R53). -/
def Ring.slotAddr (r : Ring) (n : Nat) : U64 := r.sqBase + BitVec.ofNat 64 (64 * (n % 2 ^ r.sqLog2))

/-- Entries of a ring in flight. -/
def Dev.ringBusy (d : Dev) (n : Nat) : Bool := d.rng.descs.any fun e => e.2.ring == n

/-- An entry of the descriptor table changed. -/
def Dev.modDesc (d : Dev) (k : Nat) (f : DescEntry → DescEntry) : Dev :=
  { d with rng := { d.rng with descs := tupd d.rng.descs k f } }

/-- A descriptor waits for what `w` names. -/
def Dev.wait (d : Dev) (k : Nat) (w : Wait) : Dev := d.modDesc k fun e => { e with st := .waiting w }

/-! ### Completions (R65–R67, R73, R77) -/

/-- The ring whose CQ takes the completions of a descriptor (R59). -/
def Dev.cqOf (d : Dev) (e : DescEntry) : Nat := (d.ring e.ring).cqTarget

/-- Host address of the next slot of a descriptor's CQ (R65). -/
def Dev.completionAddr (d : Dev) (e : DescEntry) : U64 :=
  let q := d.ring (d.cqOf e)
  q.cqBase + BitVec.ofNat 64 (32 * (q.written.toNat % 2 ^ q.cqLog2))

/-- A completion of a descriptor (Table 03.7). -/
def Dev.completionFor (d : Dev) (e : DescEntry) (result : U64) (detail : U32) (status : Byte) (final logged : Bool)
    (replaced : Nat) : Completion :=
  let r := d.ring e.ring
  let q := d.ring (d.cqOf e)
  { result := result, time := d.clock.now, tag := e.d.tag, detail := detail, ring := e.ring,
    sqHead := r.fetched.toNat % 2 ^ r.sqLog2, status := status, opcode := e.op,
    phase := phaseOf q.written q.cqLog2, final := final, logged := logged, replaced := replaced }

/-- One more slot of a CQ used: a reserved one by a final completion, a free one by progress. -/
def Dev.useSlot (d : Dev) (n : Nat) (final : Bool) : Dev :=
  let q := d.ring n
  (d.setRing n { q with written := q.written + 1, reserved := if final then q.reserved - 1 else q.reserved }).cqMove n
    (if final then 2 else 0) 1 1

/-- One completion written into the CQ of a ring: bytes 0–23, then 24–31 (R65); it is counted for its vector (R73). -/
def Dev.writeCompletion (d : Dev) (e : DescEntry) (result : U64) (detail : U32) (status : Byte) (final logged : Bool)
    (replaced : Nat) : Dev :=
  ((d.emitFor e.part (.completion (d.completionAddr e) (d.completionFor e result detail status final logged replaced))).useSlot
    (d.cqOf e) final).countIrq (d.ring (d.cqOf e)).vector (final && (status.toNat / 16 ≥ 2 || e.d.flags.getLsbD 1))

/-- RESULT and DETAIL of a completion for which the manual states none: free values (log 8, log 43). -/
def Dev.openPair (d : Dev) : U64 × U32 × Dev :=
  ((Config.freeValue d.free), (Config.freeValue (d.free + 1)).setWidth 32, { d with free := d.free + 2 })

/-- The final completion of a descriptor, which then leaves the table; a function-level reset discards it (17 R444). -/
def Dev.finishRaw (d : Dev) (k : Nat) (status : Byte) (result : U64) (detail : U32) (logged : Bool) : Dev :=
  match tget d.rng.descs k with
  | none => d
  | some e =>
    let d := if e.silent then d else d.writeCompletion e result detail status true logged 0
    { d with rng := { d.rng with descs := tdel d.rng.descs k } }

/-- A DRAINING ring whose last final completion is written becomes DISABLED (Table 03.1). -/
def Dev.disableIf (d : Dev) (n : Nat) : Dev :=
  if (d.ring n).st = .draining && !d.ringBusy n then d.disable n else d

/-- The ring of a completed descriptor may have drained; then every RING_DESTROY that names it completes (R63). -/
def Dev.settle (d : Dev) (n : Nat) : Dev :=
  if (d.ring n).st = .draining && !d.ringBusy n then
    let ks := tkeys d.rng.descs fun _ e => e.st == .waiting (.ringDown n)
    let rs := ks.filterMap fun k => (tget d.rng.descs k).map fun e => e.ring
    let d := d.disable n
    let d := ks.foldl (fun d k =>
      let (r, x, d) := d.openPair
      d.finishRaw k stOk r x false) d
    rs.foldl (fun d r => d.disableIf r) d
  else d

/-- Session handles that a descriptor names, for the order of R76. -/
def DescEntry.sessions (e : DescEntry) : List U64 :=
  let o := e.op.toNat
  if o = 0x30 then [e.d.target, BitVec.ofNat 64 (fieldAt e.d 16 8)]
  else if (0x11 ≤ o ∧ o ≤ 0x16) ∨ o = 0x31 ∨ o = 0x32 ∨ o = 0x57 ∨ o = 0x76 ∨
      (o = 0x64 ∧ fieldAt e.d 40 1 % 2 = 1) ∨ (o = 0x06 ∧ fieldAt e.d 24 1 < 3) then [e.d.target]
  else []

/-- A held descriptor may start: fetch order within its ring (R75), FENCE (R61), and the order of descriptors that name
one session (R76). -/
def Dev.mayStart (d : Dev) (k : Nat) (e : DescEntry) : Bool :=
  d.rng.descs.all fun x =>
    !decide (x.1 < k) ||
    ((x.2.ring != e.ring || (x.2.st != .held && !e.d.flags.getLsbD 0)) &&
     ((match x.2.st with | .waiting _ => true | _ => false) || !(x.2.sessions.any fun h => e.sessions.contains h)))

/-- MASTER of a fault record about a descriptor: the ring and descriptor engine (Table 13.2; DEDUCED, log 16). -/
def ringMaster : Nat := 0x108

/-- The fault record of a descriptor's status: the host address of its slot, the block of `code` (R69, R71). -/
def Dev.raiseDesc (d : Dev) (e : DescEntry) (code : Nat) (status : Byte) : Dev :=
  d.raiseAt (some e.part) code e.addr 0 ringMaster (code / 256 * 256) status

/-- Held descriptors that may start do so; an opcode that is not defined completes with BAD_DESCRIPTOR (R62). -/
def Dev.startOne (d : Dev) (k : Nat) : Dev :=
  match tget d.rng.descs k with
  | none => d
  | some e =>
    if e.st = .held && d.mayStart k e then
      match opRow e.op with
      | some _ => d.modDesc k fun e => { e with st := .started }
      | none =>
        let (r, x, d) := (d.raiseDesc e 0x0102 stBad).openPair
        (d.finishRaw k stBad r x true).settle e.ring
    else d

/-- Every held descriptor that may start, in fetch order. -/
def Dev.sweep (d : Dev) : Dev := (d.rng.descs.map fun e => e.1).foldl (fun d k => d.startOne k) d

/-- The final completion of a descriptor, and what it releases. -/
def Dev.finish (d : Dev) (k : Nat) (status : Byte) (result : U64) (detail : U32) (logged : Bool) : Dev :=
  match tget d.rng.descs k with
  | none => d
  | some e => ((d.finishRaw k status result detail logged).settle e.ring).sweep

/-- Completion OK. -/
def Dev.ok (d : Dev) (k : Nat) (result : U64) (detail : U32) : Dev := d.finish k stOk result detail false

/-- Completion OK of an opcode for which the manual states no RESULT and no DETAIL. -/
def Dev.okOpen (d : Dev) (k : Nat) : Dev :=
  let (r, x, d) := d.openPair
  d.ok k r x

/-- A status that carries a fault record of code `code`. -/
def Dev.failCode (d : Dev) (k : Nat) (status : Byte) (code : Nat) (result : U64) (detail : U32) : Dev :=
  match tget d.rng.descs k with
  | none => d
  | some e => (d.raiseDesc e code status).finish k status result detail true

/-- A status, with the fault record that Table 03.8 gives it, of the block that acts on the opcode (R71). -/
def Dev.fail (d : Dev) (k : Nat) (status : Byte) (result : U64) (detail : U32) : Dev :=
  match tget d.rng.descs k with
  | none => d
  | some e =>
    if stLogged status then d.failCode k status (opBlock e.op * 256 + stCode status) result detail
    else d.finish k status result detail false

/-- A status whose RESULT, and DETAIL unless given, the manual does not state. -/
def Dev.failOpen (d : Dev) (k : Nat) (status : Byte) (detail : Option U32) : Dev :=
  let (r, x, d) := d.openPair
  d.fail k status r (detail.getD x)

/-- A request error: nothing else changes (R68). -/
def Dev.refuse (d : Dev) (k : Nat) (status : Byte) : Dev := d.failOpen k status none

/-- A status of the header or class checks, of block RNG (R71). -/
def Dev.refuseHdr (d : Dev) (k : Nat) (status : Byte) : Dev :=
  let (r, x, d) := d.openPair
  d.failCode k status (0x0100 + stCode status) r x

/-- LEDGER_FAULT with the record 0x0E15 PARTITION_HALTED (15 R392). -/
def Dev.refuseHalted (d : Dev) (k : Nat) : Dev :=
  let (r, x, d) := d.openPair
  d.failCode k stLedger 0x0E15 r x

/-- Progress of a streaming opcode (R67): written into a slot that is not reserved, or kept and counted as replaced. -/
def Dev.progress (d : Dev) (k : Nat) (result : U64) (detail : U32) : Dev :=
  match tget d.rng.descs k with
  | none => d
  | some e =>
    if !e.d.flags.getLsbD 2 || e.silent then d
    else if (d.ring (d.ring e.ring).cqTarget).cqFree > 0 then
      let lost := min 255 (e.replaced + (if e.progress.isSome then 1 else 0))
      (d.writeCompletion e result detail stOk false false lost).modDesc k fun e => { e with progress := none, replaced := 0 }
    else
      d.modDesc k fun e => { e with progress := some (result, detail),
                                    replaced := e.replaced + (if e.progress.isSome then 1 else 0) }

/-! ### Policers (12 R324–R326) -/

/-- Descriptor tokens of one descriptor: 10⁹ parts, so that DESC_RATE per second is DESC_RATE parts per nanosecond. -/
def descToken : Nat := 1000000000

/-- Byte tokens of one byte: 8,000 parts, so that BYTE_RATE Mbit/s is BYTE_RATE parts per nanosecond. -/
def byteToken : Nat := 8000

/-- Both buckets refilled up to now (R325). -/
def Policer.refill (q : Policer) (now : U64) : Policer :=
  let ns := (now - q.at_).toNat
  { q with descTok := min (q.descTok + ns * q.descRate) (q.descBurst * descToken),
           byteTok := min (q.byteTok + ns * q.byteRate) (q.byteBurst * byteToken), at_ := now }

/-- Bytes that an opcode is charged: LENGTH for an APPEND (R325). -/
def policedBytes (op : Byte) (x : Desc) : Nat := if op = 0x11 then fieldAt x 24 4 else 0

/-- The decision for one descriptor: whether it conforms, and the policer afterwards. -/
def Policer.decide (q : Policer) (now : U64) (bytes : Nat) : Bool × Policer :=
  let q := q.refill now
  if descToken ≤ q.descTok ∧ (q.byteRate = 0 ∨ bytes * byteToken ≤ q.byteTok) then
    (true, { q with descTok := q.descTok - descToken,
                    byteTok := if q.byteRate = 0 then q.byteTok else q.byteTok - bytes * byteToken })
  else (false, q)

/-- W6 of Table 03.12 for a fetched descriptor: one that does not conform completes with DROPPED_POLICED. -/
def Dev.police (d : Dev) (k : Nat) : Dev :=
  match tget d.rng.descs k with
  | none => d
  | some e =>
    let n := (d.ring e.ring).policer
    match (if d.isAdmin e.ring || n = 0xFFFF then none else tget d.slu.policer n) with
    | none => d
    | some q =>
      let b := policedBytes e.op e.d
      let d := { d with slu := { d.slu with policer := tput d.slu.policer n (q.decide d.clock.now b).2 } }
      if (q.decide d.clock.now b).1 then d
      else
        let d := (d.incF (SLU_DROPS_POLICED_DESC e.part)).addF (SLU_DROPS_POLICED_BYTES e.part) b
        let (r, x, d) := d.openPair
        d.finish k stPoliced r x false

/-! ### Fetch (R57, R59, R78, R79) -/

/-- Descriptors fetched or being fetched, of one partition and of the device (Table 03.11). -/
def Dev.inFlight (d : Dev) (p : Option Nat) : Nat :=
  (d.rng.descs.filter fun e => p.isNone || p == some e.2.part).length +
  (d.rng.ring.map fun e => if p.isNone || d.ringOwner e.1 == p then e.2.issued else 0).sum

/-- The device has begun to shut down: rings are no longer scanned, and unfetched descriptors stay in them (16 Table 16.10 X1). -/
def Dev.stopping (d : Dev) : Bool :=
  match d.pwr.seq with
  | .u5 | .u6 => false
  | _ => true

/-- One descriptor read issued for a ring, its CQ slot reserved first; a full CQ counts a stall (R59). -/
def Dev.issueOne (d : Dev) (n : Nat) : Dev :=
  let r := d.ring n
  match d.ringOwner n with
  | none => d
  | some p =>
    if r.st = .active && d.getF (RNG_DB_BASE_EN p) == 1 && !d.dmaStopped p && !d.stopping && r.issued < 64 &&
        (r.tail - r.fetched).toNat > r.issued && d.inFlight none < 262144 && d.inFlight (some p) < 65536 then
      if (d.ring r.cqTarget).cqFree = 0 then d
      else
        let d := d.setRing n { r with issued := r.issued + 1 }
        let d := d.reserve r.cqTarget
        d.emitFor p (.hostRead p (r.slotAddr (r.fetched.toNat + r.issued)) 64)
    else d

/-- Up to 8 reads for a ring's turn (R78). -/
def Dev.issueTurn (d : Dev) (n : Nat) : Dev := (List.range 8).foldl (fun d _ => d.issueOne n) d

/-- A ring still wants reads that only the want of CQ slots holds back: a stall (R59). -/
def Dev.countStall (d : Dev) (n : Nat) : Dev :=
  let r := d.ring n
  match d.ringOwner n with
  | none => d
  | some p =>
    if r.st = .active && d.getF (RNG_DB_BASE_EN p) == 1 && r.issued < 64 && (r.tail - r.fetched).toNat > r.issued &&
        (d.ring r.cqTarget).cqFree == 0 then d.incF (RNG_SCAN_CFG_CQ_STALLS p) else d

/-- Reads for a list of rings: PRIORITY 0 first, rings of one priority in turn, at most 8 each (R78), 64 per ring (W4). -/
def Dev.issue (d : Dev) (ns : List Nat) : Dev :=
  let prio := fun (d : Dev) (n : Nat) => if d.isAdmin n then 0 else (d.ring n).priority
  let d := (List.range 4).foldl (fun d q =>
    (List.range 8).foldl (fun d _ => (ns.filter fun n => prio d n == q).foldl (fun d n => d.issueTurn n) d) d) d
  ns.foldl (fun d n => d.countStall n) d

/-- A fetched descriptor copied to the K-die (R57) and policed; its number in the table. -/
def Dev.arrive (d : Dev) (n : Nat) (op : Byte) (x : Desc) : Dev × Nat :=
  let r := d.ring n
  let p := (d.ringOwner n).getD 0
  let k := d.rng.next
  let e : DescEntry := { ring := n, part := p, addr := r.slotAddr r.fetched.toNat, op := op, d := x }
  let d := d.setRing n { r with fetched := r.fetched + 1, issued := r.issued - 1 }
  let d := d.setReg (RNG_FETCH_COUNT p) (d.reg (RNG_FETCH_COUNT p) + 1)
  let d := { d with rng := { d.rng with descs := tput d.rng.descs k e, next := k + 1 } }
  ((d.police k).sweep, k)

/-- The descriptor that an opcode row names: the earliest of its ring that has started with that opcode and those
fields, or one that is fetched now (log 14): its ring must be ACTIVE and its CQ must have a free slot. -/
def Dev.claim (d : Dev) (op : Byte) (n : Nat) (x : Desc) : Dev × Option Nat :=
  match d.rng.descs.find? fun e => e.2.ring == n && e.2.op == op && e.2.d == x && e.2.st == .started with
  | some (k, _) => (d, some k)
  | none =>
    let r := d.ring n
    if (d.ringOwner n).isSome && r.st = .active then
      if r.issued > 0 then let (d, k) := d.arrive n op x; (d, some k)
      else if d.stopping then (d, none)
      else if (d.ring r.cqTarget).cqFree = 0 then (d.incF (RNG_SCAN_CFG_CQ_STALLS ((d.ringOwner n).getD 0)), none)
      else
        let d := d.setRing n { r with issued := 1, tail := if r.tail = r.fetched then r.tail + 1 else r.tail }
        let d := d.reserve r.cqTarget
        let (d, k) := d.arrive n op x
        (d, some k)
    else (d, none)

/-! ### What every opcode checks first (R11, R50, R60–R62; 15 R392) -/

/-- The header and class checks: BAD_DESCRIPTOR or ACCESS_DENIED of block RNG. A reserved bit, of the body too, comes before the class
check: R11 lets no other field act. -/
def Dev.headerStatus (d : Dev) (e : DescEntry) : Byte :=
  match opRow e.op with
  | none => stBad
  | some row =>
    if e.d.flags.toNat ≥ 8 || e.d.rsv != 0 || (e.d.flags.getLsbD 2 && !row.stream) ||
        (!row.target && e.d.target != 0) then stBad
    else if row.admin && !d.isAdmin e.ring then stDenied
    else stOk

/-- A reserved bit of the body is set (R11). -/
def bodyBad (e : DescEntry) : Bool :=
  match opRow e.op with
  | none => true
  | some row => (e.d.body &&& ~~~(bodyMask row.body)) != 0

/-- An opcode that a halted partition refuses (15 R392). -/
def haltRefuses (op : Byte) (x : Desc) : Bool :=
  if op.toNat < 0x06 then false
  else if op = 0x06 then fieldAt x 25 1 % 2 == 1
  else !(op = 0xB0 || op = 0xB1 || op = 0xB3)

/-- An opcode: the descriptor is claimed and checked; `chk` gives the range and R50 checks of the opcode (partition,
descriptor), `act` its effect (table number, entry). -/
def Dev.runOp (d : Dev) (op : Byte) (n : Nat) (x : Desc) (chk : Dev → Nat → Desc → Byte)
    (act : Dev → Nat → DescEntry → Dev) : Dev :=
  match d.claim op n x with
  | (d, none) => d
  | (d, some k) =>
    match tget d.rng.descs k with
    | none => d
    | some e =>
      if e.st != .started then d
      else if d.headerStatus e = stBad then d.refuseHdr k stBad
      else if bodyBad e then d.refuse k stBad
      else if d.headerStatus e != stOk then d.refuseHdr k (d.headerStatus e)
      else if chk d e.part x != stOk then d.refuse k (chk d e.part x)
      else if d.halted e.part && !(d.stepP e.part).noRung && haltRefuses op x then d.refuseHalted k
      else act d k e

end Sys2Proof.Machine
end

