-- ==== Sys2Proof/Machine/Links.lean ====
section
/-! DEFINITION. What leaves the device over DXL and the pool ports: pool addresses, routes, encryption, link credits,
shapers, and the requests that an engine waits for (11_dxl_fabric_pool.md R296–R309; 12_sluice_traffic.md R327–R331;
13_partitions_keys.md R352). -/

namespace Sys2Proof.Machine

/-! ### Pool addresses (11 R307, 05 R458) -/

/-- Home device of a pool address. -/
def poolHome (a : U64) : Nat := a.toNat / 2 ^ 52
/-- Space of a pool address. -/
def poolSpace (a : U64) : Nat := a.toNat / 2 ^ 48 % 16
/-- Byte offset of a pool address. -/
def poolOffset (a : U64) : Nat := a.toNat % 2 ^ 48
/-- A pool address. -/
def poolAddr (home space off : Nat) : U64 := BitVec.ofNat 64 (home * 2 ^ 52 + space * 2 ^ 48 + off % 2 ^ 48)
/-- A device address of this device (05 R458). -/
def Dev.devAddr (d : Dev) (off : Nat) : U64 := poolAddr d.id 0xF off

/-- Home of an extent handle (11 R308). -/
def hExtHome (h : U64) : Nat := h.toNat / 2 ^ 52
/-- Extent number of an extent handle. -/
def hExtNum (h : U64) : Nat := h.toNat / 2 ^ 28 % 2 ^ 24
/-- Generation of an extent handle. -/
def hExtGen (h : U64) : Nat := h.toNat % 2 ^ 28
/-- An extent handle. -/
def mkExtHandle (home num gen : Nat) : U64 := BitVec.ofNat 64 (home * 2 ^ 52 + num % 2 ^ 24 * 2 ^ 28 + gen % 2 ^ 28)

/-! ### Ports and routes (11 R304, R305) -/

/-- A DXL port. -/
def Dev.port (d : Dev) (n : Nat) : Port := tgetD d.fab.port n {}

/-- The device with a port set. -/
def Dev.setPort (d : Dev) (n : Nat) (x : Port) : Dev := { d with fab := { d.fab with port := tput d.fab.port n x } }

/-- A port is UP (Table 11.10). -/
def Dev.portUp (d : Dev) (n : Nat) : Bool := d.getF (FAB_PORT_STATE n) == 3

/-- Port group of the system route table toward a device. -/
def Dev.routeMask (d : Dev) (dst : Nat) : BitVec 32 :=
  match d.fab.route.find? fun r => decide (r.first ≤ dst ∧ dst ≤ r.last) with
  | some r => r.ports
  | none => 0

/-- Port that a frame for a device leaves by: the lowest UP port of the group (R304); none when the hop is unreachable. -/
def Dev.egress (d : Dev) (dst : Nat) : Option Nat :=
  (List.range 32).find? fun q => (d.routeMask dst).getLsbD q && d.portUp q

/-- Channel number of a set and a VC: set 0 or 1 + p; 0 CTRL, 1 DATA, 2 REQ, 3 RSP (R299). -/
def channel (set vc : Nat) : Nat := 4 * set + vc

/-- Channel set of a partition, or the system set. -/
def chanSet (p : Option Nat) : Nat :=
  match p with
  | some p => 1 + p
  | none => 0

/-! ### Flits (11 R295, R300, R303) -/

/-- Bits of a flit (Table 11.1): TYPE and SEQ, ACK, CHANNEL with the credits returned, frame bytes, CRC. -/
def mkFlit (type : Nat) (seq ack : BitVec 12) (chan cls : Nat) (start : Bool) (back backCls cells : Nat) (data : List Byte) : BitVec 2048 :=
  let b := record [(2, seq.toNat + 4096 * type), (2, ack.toNat),
      (4, chan + 64 * cls + (if start then 128 else 0) + 256 * back + 16384 * backCls + 65536 * cells)] ++ padTo 240 data
  BitVec.ofNat 2048 (leNat (b ++ leBytes 8 (crc64 b).toNat))

/-- A DATA flit with its SEQ. -/
def TxFlit.bits (x : TxFlit) (seq ack : BitVec 12) : BitVec 2048 := mkFlit 1 seq ack x.chan x.cls x.start 0 0 0 x.data

/-- Flits of a frame (R295). -/
def flitsOf (q : Option Nat) (chan cls dst : Nat) (bytes : List Byte) : List TxFlit :=
  let key := if leAt bytes 2 2 % 2 = 1 then leAt bytes 16 2 * 65536 + leAt bytes 18 2 else 0
  (chunks 240 (bytes.length + 1) bytes).mapIdx fun i c =>
    { q := q, chan := chan, cls := cls, start := i == 0, dst := dst, key := key, data := c }

/-- Number of a channel and a buffer class in a port's tables. -/
def chanKey (chan cls : Nat) : Nat := 2 * chan + cls

/-- Flits that credits and room in the replay buffer let go, those that stay, and the credits left; a channel keeps its order. -/
def pumpScan : Tbl Nat → Nat → List Nat → List TxFlit → List TxFlit × List TxFlit × Tbl Nat
  | cr, _, _, [] => ([], [], cr)
  | cr, room, stop, x :: r =>
    let k := chanKey x.chan x.cls
    if room = 0 ∨ k ∈ stop ∨ tgetD cr k 0 = 0 then
      let y := pumpScan cr room (k :: stop) r
      (y.1, x :: y.2.1, y.2.2)
    else
      let y := pumpScan (tput cr k (tgetD cr k 0 - 1)) (room - 1) stop r
      (x :: y.1, y.2.1, y.2.2)

/-- Partition whose account holds a channel's credits (15 Table 15.1 class 0x3). -/
def chanPart (chan : Nat) : Option Nat := if chan < 4 then none else some (chan / 4 - 1)

/-- An UP port sends what it may: each flit takes the next SEQ, a credit and a place in the replay buffer (R300, R303). -/
def Dev.pump (d : Dev) (n : Nat) : Dev :=
  let x := d.port n
  if d.portUp n then
    let (sent, kept, cr) := pumpScan x.credits (2048 - x.replay.length) [] x.queue
    let numbered := sent.mapIdx fun i f => (x.txSeq + BitVec.ofNat 12 i, f)
    let d := d.setPort n { x with txSeq := x.txSeq + BitVec.ofNat 12 sent.length, replay := x.replay ++ numbered, queue := kept, credits := cr }
    let d := d.emits (numbered.map fun f => .flit n (f.2.bits f.1 x.rxSeq))
    sent.foldl (fun d f => d.move 3 (36 * n + f.chan) 0 1 1 (chanPart f.chan)) d
  else d

/-- Flits handed to a port. -/
def Dev.handFlits (d : Dev) (n : Nat) (fs : List TxFlit) : Dev :=
  let x := d.port n
  (d.setPort n { x with queue := x.queue ++ fs }).pump n

/-- Credits that a receiver returns, and the flits that they let go (R300). -/
def Dev.returnCredits (d : Dev) (port chan cls cells : Nat) : Dev :=
  let x := d.port port
  let k := chanKey chan cls
  let d := d.setPort port { x with credits := tput x.credits k (tgetD x.credits k 0 + cells) }
  (d.move 3 (36 * port + chan) 1 0 cells (chanPart chan)).pump port

/-! ### Encryption of frames (13 R349, R352) -/

/-- Key of the key table for a partition's KEY_ID. -/
def keyIndex (p keyId : Nat) : Nat := p * 65536 + keyId

/-- A partition's key. -/
def Dev.key (d : Dev) (p keyId : Nat) : Option Key := tget d.sec.key (keyIndex p keyId)

/-- The generation of a key in a state. -/
def Key.genIn (k : Key) (st : KeyState) : Option KeyGen := k.gens.find? fun g => g.st == st

/-- LINK key of a partition set: its lowest KEY_ID with a CURRENT generation (DESIGN CHOICE, log 21). -/
def Dev.linkKey (d : Dev) (p : Nat) : Option (Nat × KeyGen) :=
  d.sec.key.findSome? fun e =>
    if e.1 / 65536 = p && !e.2.store then (e.2.genIn .current).map fun g => (e.1 % 65536, g) else none

/-- Key, KEY_ID and generation that encrypt a frame of a channel set: the system key for set 0 (R349). -/
def Dev.frameKey (d : Dev) (p : Option Nat) : Option (Nat × Nat × BitVec 256) :=
  match p with
  | none => if d.sec.system then some (0, 0, Config.systemKey d.flash.epoch) else none
  | some p => (d.linkKey p).map fun x => (x.1, x.2.gen, x.2.key)

/-- Index of the count of frames sent under a KEY_ID and generation of a channel set. -/
def nonceIndex (set keyId gen : Nat) : Nat := set * 2 ^ 32 + keyId * 2 ^ 16 + gen

/-- Frames that one generation may number (R352). -/
def nonceLimit : Nat := 2 ^ 40 - 1

/-- Initialisation vector of a frame: NONCE, then SRC (R352). -/
def frameIv (nonce : U64) (src : Nat) : BitVec 96 := BitVec.ofNat 96 (nonce.toNat + 2 ^ 64 * (src % 4096))

/-- Every LINK key of a set is being retired: nothing further may start under it (R354). -/
def Dev.linkRetiring (d : Dev) (p : Option Nat) : Bool :=
  match p with
  | none => false
  | some p => d.sec.key.any fun e => e.1 / 65536 == p && !e.2.store && (e.2.genIn .retiring).isSome

/-- A frame numbered and, when its set has a key, encrypted; none when the generation may number no further frame. -/
def Dev.sealFrame (d : Dev) (p : Option Nat) (f : Frame) : Dev × Option Frame :=
  match d.frameKey p with
  | none => (d, if d.linkRetiring p then none else some f)
  | some (id, gen, key) =>
    let ix := nonceIndex (chanSet p) id gen
    let n := tgetD d.fab.nonce ix 0
    if n ≥ nonceLimit then (d, none)
    else
      let nonce := BitVec.ofNat 64 (d.flash.epoch % 2 ^ 24 * 2 ^ 40 + n)
      let g := { f with enc := true, keyId := BitVec.ofNat 16 id, keyGen := BitVec.ofNat 16 gen, nonce := nonce }
      let iv := frameIv nonce f.src
      let ct := f.payload.mapIdx fun i b => b ^^^ Config.gcmStream key iv i
      ({ d with fab := { d.fab with nonce := tput d.fab.nonce ix (n + 1) } },
       some { g with payload := ct, gtag := Config.gcmTag key iv (frameHeader g) ct })

/-- The key of a received frame and its state: none when its generation is not live (R353). -/
def Dev.openKey (d : Dev) (p : Option Nat) (f : Frame) : Option (BitVec 256) :=
  match p with
  | none => if d.sec.system && f.keyId == 0 then some (Config.systemKey d.flash.epoch) else none
  | some p =>
    match d.key p f.keyId.toNat with
    | none => none
    | some k => (k.gens.find? fun g => g.gen == f.keyGen.toNat && g.st != .empty).map fun g => g.key

/-- A frame handed to the link, or back to this device when it is the destination (log 19), and put out as `out` says; lost when the
hop is unreachable: then the requester's timeout decides (R298, R304). A frame that enters the link that crosses the dateline
travels in buffer class 1 (R301). The answer is false when the generation may number no further frame. -/
def Dev.sendAs (d : Dev) (p : Option Nat) (f : Frame) (q : Option Nat) (out : Frame → Out) : Dev × Bool :=
  if f.dst = d.id then (d.emit (out f), true)
  else
    match d.sealFrame p f with
    | (d, none) => (d, false)
    | (d, some g) =>
      match d.egress f.dst with
      | none => (d, true)
      | some port =>
        let cls := if Config.dateline d.id port then 1 else 0
        ((d.emit (out g)).handFlits port (flitsOf q f.chan cls f.dst (frameBytes g)), true)

/-- A frame sent. -/
def Dev.sendFrame (d : Dev) (p : Option Nat) (f : Frame) : Dev := (d.sendAs p f none .frame).1

/-- A frame of this device with nothing set but its type, channel, destination and address. -/
def Dev.frame0 (d : Dev) (type : Byte) (chan dst : Nat) (tag : U32) (addr : U64) : Frame :=
  { type := type, chan := chan, enc := false, shared := false, src := d.id, dst := dst, master := 0, status := 0,
    sub := 0, keyId := 0, keyGen := 0, tag := tag, addr := addr, epoch := 0, nonce := 0, payload := [], gtag := 0 }

/-! ### Maps (11 R309) -/

/-- Epoch that this device holds for a home: its own, or the newest entry of that home in its map. -/
def Dev.homeEpoch (d : Dev) (home : Nat) : U32 :=
  if home = d.id then d.fab.epoch
  else (d.fab.map.filter fun e => hExtHome e.2.handle == home).foldl
    (fun a e => if a.toNat < e.2.epoch.toNat then e.2.epoch else a) 0

/-- The map entry of an extent handle. -/
def Dev.extentInfo (d : Dev) (h : U64) : Option ExtentInfo := tget d.fab.map h.toNat

/-- The map entry of the extent that holds a pool address. -/
def Dev.extentAt (d : Dev) (a : U64) : Option ExtentInfo :=
  (tvals d.fab.map).find? fun e => hExtHome e.handle == poolHome a && e.space == poolSpace a &&
    decide (e.base ≤ poolOffset a ∧ poolOffset a < e.base + e.pages * pageBytes)

/-- Path queue of an extent (12 Table 12.2). -/
def pathKind (e : ExtentInfo) : Nat := if e.cls = 1 then 2 else if e.space = 0 then 0 else 1

/-- Path queue of a request of partition `p` (12 R333). -/
def Dev.pathQueue (d : Dev) (p : Nat) (a : U64) : Option Nat := (d.extentAt a).map fun e => 4 * p + pathKind e

/-! ### Shapers (12 R327–R331) -/

/-- Traffic class of a request by what it serves (Table 12.1). -/
def Purpose.trafficClass : Purpose → Nat
  | .fetchPage _ _ => 0
  | .parkPage _ _ => 1
  | .demotePage _ _ => 1
  | .weight _ _ _ => 2
  | .hostLine _ _ _ => 5
  | .poolWrite _ _ => 7
  | .poolRead _ _ => 7
  | .extentOp _ => 7
  | .peer _ => 7
  | .tileWrite _ _ _ => 3
  | .tileRead _ _ _ => 3
  | .tileMove _ _ _ _ _ => 3
  | .flush _ _ _ => 3
  | .cacheFill _ _ => 4
  | .copyTile _ _ _ => 3
  | .replica _ _ _ _ => 3
  | .history _ _ => 7
  | .shard _ _ => 3
  | .shardGap _ _ => 3
  | .shardRead _ _ => 7
  | .histRead _ _ => 7

/-- Class of a request of this device; one that a frame of another device asked for is an OPS request. -/
def Dev.reqClass (d : Dev) : Purpose → Nat
  | .peer f => if f.src = d.id then ((tget d.fab.req f.tag.toNat).map fun r => r.purpose.trafficClass).getD 7 else 7
  | w => w.trafficClass

/-- Engine that a request acts for (13 Table 13.2; DEDUCED, log 32). -/
def Purpose.master : Purpose → Nat
  | .cacheFill _ _ => 0x104
  | .history _ _ => 0x100
  | .shard _ _ => 0x107
  | .shardGap _ _ => 0x107
  | .shardRead _ _ => 0x107
  | .histRead _ _ => 0x107
  | .poolWrite _ _ => 0x108
  | .poolRead _ _ => 0x108
  | .hostLine (.vf n l) _ _ => 0x400 + 16 * (n - 1) + l
  | .hostLine (.pf0 l) _ _ => 0x400 + l
  | _ => 0x101

/-- The shaper bound to an egress point, a partition and a class (R329). -/
def Dev.shaperOf (d : Dev) (egress p cls : Nat) : Option Nat :=
  (d.slu.shaper.find? fun e => e.2.part == p && e.2.egress == egress && e.2.classes.getLsbD cls).map fun e => e.1

/-- A shaper refilled up to now: RATE Mbit/s in 1/65,536 byte (R330). -/
def Shaper.refill (x : Shaper) (now : U64) : Shaper :=
  let t := x.tokens + ((now - x.at_).toNat * x.rate * 65536 / 8000 : Nat)
  { x with tokens := min t (x.burst * 65536 : Nat), at_ := now }

/-- The device with a shaper set. -/
def Dev.setShaper (d : Dev) (n : Nat) (x : Shaper) : Dev := { d with slu := { d.slu with shaper := tput d.slu.shaper n x } }

/-- Wire bytes charged for leaving traffic (R330). -/
def Shaper.debit (x : Shaper) (wire : Nat) : Shaper := { x with tokens := x.tokens - (wire * 65536 : Nat) }

/-! ### Requests (11 R297–R298) -/

/-- A request of a table. -/
def Dev.req (d : Dev) (tag : Nat) : Option Req := tget d.fab.req tag

/-- Egress code of a request: a DXL port, or 32 + l for a pool port of this home (R327); none when it stays inside. -/
def Dev.reqEgress (d : Dev) (r : Req) : Option Nat :=
  match r.purpose with
  | .peer f => some (31 + poolSpace f.addr)
  | _ => if r.home = d.id then none else d.egress r.home

/-- Wire bytes of a request: a whole frame, or 64 B and 128 B on a pool port (R330). -/
def reqWire (r : Req) : Nat :=
  match r.purpose with
  | .peer _ => if r.isWrite then 128 else 64
  | _ => wireBytes (48 + 16 + (if r.isWrite then r.len else 8))

/-- A request put on its way: a CXL.mem request for a page behind a pool port of this home, otherwise a READ or WRITE
frame that carries this device's epoch for the home (R297, R309). -/
def Dev.dispatch (d : Dev) (tag : Nat) : Dev :=
  match d.req tag with
  | none => d
  | some r =>
    match r.purpose with
    | .peer _ => d.emit (.cxl (BitVec.ofNat 32 tag) r.addr (if r.isWrite then some r.payload else none) r.len)
    | w =>
      let type : Byte := if r.isWrite then 0x03 else 0x01
      let f := d.frame0 type (channel (chanSet (some r.part)) 2) r.home (BitVec.ofNat 32 tag) r.addr
      let host := match w with
        | .hostLine _ _ _ => true
        | _ => false
      let shared := !r.isWrite && (d.extentAt r.addr).any fun e =>
        e.shared && (e.part != r.part || ((tvals d.fab.window).any fun v => v.extent == e.handle) != host)
      let g : Frame := { f with epoch := d.homeEpoch r.home, shared := shared, master := r.purpose.master,
                                payload := if r.isWrite then r.payload else leBytes 8 r.len }
      let (d, sent) := d.sendAs (some r.part) g (d.pathQueue r.part r.addr) .frame
      if sent then d else { d with fab := { d.fab with req := tput d.fab.req tag { r with stuck := true } } }

/-- A frame of partition `p` for destination `dst` is held by some shaper (R331). -/
def Dev.heldFor (d : Dev) (p dst : Nat) : Option Nat :=
  (d.slu.shaper.find? fun e => e.2.part == p && e.2.held.any fun h => h.dst == dst).map fun e => e.1

/-- A request that leaves at once, or is held by its shaper or behind a held frame of its channel (R329–R331). -/
def Dev.shape (d : Dev) (tag : Nat) : Dev :=
  match d.req tag with
  | none => d
  | some r =>
    match d.reqEgress r with
    | none => d.dispatch tag
    | some e =>
      let cls := d.reqClass r.purpose
      let h : HeldFrame := { tag := tag, wire := reqWire r, dst := r.home, cls := cls }
      match d.heldFor r.part r.home with
      | some n =>
        match tget d.slu.shaper n with
        | some x => d.setShaper n { x with held := x.held ++ [h] }
        | none => d.dispatch tag
      | none =>
        match d.shaperOf e r.part cls with
        | none => d.dispatch tag
        | some n =>
          match tget d.slu.shaper n with
          | none => d.dispatch tag
          | some x =>
            let x := x.refill d.clock.now
            if x.tokens > 0 then (d.setShaper n (x.debit h.wire)).dispatch tag
            else d.setShaper n { x with held := x.held ++ [h] }

/-- A request of an engine that acts for partition `p`: recorded under a new TAG, then shaped and sent. -/
def Dev.request (d : Dev) (p : Nat) (purpose : Purpose) (addr : U64) (len : Nat) (write : Option (List Byte)) : Dev :=
  let tag := d.fab.tag
  let r : Req := { purpose := purpose, addr := addr, len := len, isWrite := write.isSome, home := poolHome addr,
                   sentAt := d.clock.now, payload := write.getD [], part := p }
  let d := { d with fab := { d.fab with req := tput d.fab.req tag r, tag := (tag + 1) % 2 ^ 32 } }
  d.shape tag

/-- A request that has its answer leaves the table. -/
def Dev.endReq (d : Dev) (tag : Nat) : Dev := { d with fab := { d.fab with req := tdel d.fab.req tag } }

/-- Requests outstanding for a purpose. -/
def Dev.reqCount (d : Dev) (c : Purpose → Bool) : Nat := (d.fab.req.filter fun e => c e.2.purpose).length

end Sys2Proof.Machine
end

