-- ==== Sys2Proof/Machine/Numbers.lean ====
section
/-! DEFINITION. Numbers: the element formats, exact values, rounding, the matrix product of a core and the quantisation
rules (05_state_tiers_peat.md R123; 07_narrow_arithmetic.md R179–R195). -/

namespace Sys2Proof.Machine

/-- A value: NaN, an infinity, or ± m × 2^e. -/
inductive Num where
  | nan
  | inf (neg : Bool)
  | fin (neg : Bool) (m : Nat) (e : Int)
  deriving DecidableEq, Repr

/-- A floating format: exponent and mantissa widths, bias, and specials: 0 none, 1 NaN S.1111.111 alone, 2 IEEE. -/
structure FpFmt where
  ew   : Nat
  mw   : Nat
  bias : Nat
  spec : Nat
  deriving DecidableEq, Repr

/-- FP32 -/
def fmtF32 : FpFmt := ⟨8, 23, 127, 2⟩
/-- BF16 -/
def fmtBF16 : FpFmt := ⟨8, 7, 127, 2⟩
/-- FP16 -/
def fmtF16 : FpFmt := ⟨5, 10, 15, 2⟩
/-- E4M3 (Table 07.2) -/
def fmtE4M3 : FpFmt := ⟨4, 3, 7, 1⟩
/-- E5M2 -/
def fmtE5M2 : FpFmt := ⟨5, 2, 15, 2⟩
/-- E2M1 -/
def fmtE2M1 : FpFmt := ⟨2, 1, 1, 0⟩
/-- E2M3 -/
def fmtE2M3 : FpFmt := ⟨2, 3, 1, 0⟩
/-- E3M2 -/
def fmtE3M2 : FpFmt := ⟨3, 2, 3, 0⟩

/-- Largest finite magnitude, as exponent and mantissa bits. -/
def FpFmt.maxBits (f : FpFmt) : Nat :=
  match f.spec with
  | 0 => 2 ^ (f.ew + f.mw) - 1
  | 1 => 2 ^ (f.ew + f.mw) - 2
  | _ => (2 ^ f.ew - 1) * 2 ^ f.mw - 1

/-- The value that bits spell. -/
def FpFmt.decode (f : FpFmt) (b : Nat) : Num :=
  let neg := b / 2 ^ (f.ew + f.mw) % 2 == 1
  let e := b / 2 ^ f.mw % 2 ^ f.ew
  let m := b % 2 ^ f.mw
  if f.spec = 1 ∧ e = 2 ^ f.ew - 1 ∧ m = 2 ^ f.mw - 1 then .nan
  else if f.spec = 2 ∧ e = 2 ^ f.ew - 1 then (if m = 0 then .inf neg else .nan)
  else if e = 0 then .fin neg m (1 - (f.bias : Int) - f.mw)
  else .fin neg (m + 2 ^ f.mw) ((e : Int) - f.bias - f.mw)

/-- m × 2^e in units of 2^q, rounded to nearest, ties to even. -/
def roundMag (m : Nat) (e q : Int) : Nat :=
  if q ≤ e then m * 2 ^ (e - q).toNat
  else
    let d := 2 ^ (q - e).toNat
    let n := m / d
    let r := m % d
    if 2 * r > d ∨ (2 * r = d ∧ n % 2 = 1) then n + 1 else n

/-- m × 2^e in units of 2^q, truncated. -/
def truncMag (m : Nat) (e q : Int) : Nat :=
  if q ≤ e then m * 2 ^ (e - q).toNat else m / 2 ^ (q - e).toNat

/-- ⌊log2(m × 2^e)⌋ for m above 0. -/
def log2Of (m : Nat) (e : Int) : Int := (m.log2 : Int) + e

/-- Exponent of the unit in the last place of a nonzero magnitude in a format, and of its binade. -/
def FpFmt.binade (f : FpFmt) (m : Nat) (e : Int) : Int := max (log2Of m e) (1 - (f.bias : Int))

/-- Bits of a magnitude of n units in the last place of binade E. -/
def FpFmt.pack (f : FpFmt) (E : Int) (n : Nat) : Nat := (E + f.bias - 1).toNat * 2 ^ f.mw + n

/-- Bits of a value rounded to nearest, ties to even; beyond the largest finite value it saturates or overflows. -/
def FpFmt.encode (f : FpFmt) (sat : Bool) (x : Num) : Nat :=
  let s := fun (neg : Bool) => if neg then 2 ^ (f.ew + f.mw) else 0
  let ovf := if f.spec = 2 then (2 ^ f.ew - 1) * 2 ^ f.mw else if f.spec = 1 then 2 ^ (f.ew + f.mw) - 1 else f.maxBits
  match x with
  | .nan => if f.spec = 2 then (2 ^ f.ew - 1) * 2 ^ f.mw + 2 ^ (f.mw - 1) else 2 ^ (f.ew + f.mw) - 1
  | .inf neg => s neg + (if sat then f.maxBits else ovf)
  | .fin neg m e =>
    if m = 0 then s neg
    else
      let E := f.binade m e
      let b := f.pack E (roundMag m e (E - f.mw))
      s neg + (if b > f.maxBits then (if sat then f.maxBits else ovf) else b)

/-- A rounding to the format clamps the value (07 R191). -/
def FpFmt.clamps (f : FpFmt) (x : Num) : Bool :=
  match x with
  | .nan => false
  | .inf _ => true
  | .fin _ m e => m != 0 && decide (f.pack (f.binade m e) (roundMag m e (f.binade m e - f.mw)) > f.maxBits)

/-- The exact value of an FP32 word. -/
def f32 (w : U32) : Num := fmtF32.decode w.toNat

/-- A value rounded to FP32. -/
def toF32 (x : Num) : U32 := BitVec.ofNat 32 (fmtF32.encode false x)

/-- Exact sum. -/
def Num.add : Num → Num → Num
  | .nan, _ => .nan
  | _, .nan => .nan
  | .inf a, .inf b => if a = b then .inf a else .nan
  | .inf a, _ => .inf a
  | _, .inf b => .inf b
  | .fin a m e, .fin b n g =>
    let q := min e g
    let x : Int := (if a then -1 else 1) * (m * 2 ^ (e - q).toNat : Nat)
    let y : Int := (if b then -1 else 1) * (n * 2 ^ (g - q).toNat : Nat)
    let z := x + y
    if z = 0 then .fin (a && b) 0 q else .fin (decide (z < 0)) z.natAbs q

/-- Exact product. -/
def Num.mul : Num → Num → Num
  | .nan, _ => .nan
  | _, .nan => .nan
  | .inf a, .inf b => .inf (a != b)
  | .inf a, .fin b n _ => if n = 0 then .nan else .inf (a != b)
  | .fin a m _, .inf b => if m = 0 then .nan else .inf (a != b)
  | .fin a m e, .fin b n g => .fin (a != b) (m * n) (e + g)

/-- A value times 2^k. -/
def Num.scale (x : Num) (k : Int) : Num :=
  match x with
  | .fin s m e => .fin s m (e + k)
  | y => y

/-- A value with its sign changed. -/
def Num.negate : Num → Num
  | .nan => .nan
  | .inf s => .inf (!s)
  | .fin s m e => .fin (!s) m e

/-- Neither NaN nor infinite. -/
def Num.finite : Num → Bool
  | .fin _ _ _ => true
  | _ => false

/-- Order of values: x < y; false with NaN. -/
def Num.lt (x y : Num) : Bool :=
  match x, y with
  | .nan, _ => false
  | _, .nan => false
  | .inf a, .inf b => a && !b
  | .inf a, _ => a
  | _, .inf b => !b
  | x, y =>
    match x.add y.negate with
    | .fin s m _ => s && m != 0
    | _ => false

/-- Magnitude. -/
def Num.abs : Num → Num
  | .fin _ m e => .fin false m e
  | .inf _ => .inf false
  | .nan => .nan

/-- Sum of FP32 words, rounded to nearest even. -/
def fadd (a b : U32) : U32 := toF32 ((f32 a).add (f32 b))
/-- Product of FP32 words. -/
def fmul (a b : U32) : U32 := toF32 ((f32 a).mul (f32 b))
/-- Difference of FP32 words. -/
def fsub (a b : U32) : U32 := toF32 ((f32 a).add (f32 b).negate)
/-- The larger FP32 word. -/
def fmax (a b : U32) : U32 := if (f32 a).lt (f32 b) then b else a
/-- An integer as an FP32 word. -/
def fOfInt (n : Int) : U32 := toF32 (.fin (decide (n < 0)) n.natAbs 0)

/-! ### Elements of a tile (05 Table 05.3; 07 R181–R184) -/

/-- Bits of an element. -/
def elemBits (fmt : Nat) : Nat :=
  match fmt with
  | 0x02 => 32
  | 0x03 => 32
  | 0x04 => 16
  | 0x05 => 16
  | 0x10 => 4
  | 0x11 => 6
  | 0x12 => 6
  | 0x20 => 2
  | 0x21 => 4
  | 0x30 => 1
  | _ => 8

/-- The format is one of Table 05.3. -/
def fmtDefined (fmt : Nat) : Bool :=
  decide (fmt ≤ 0x07) || decide (0x10 ≤ fmt ∧ fmt ≤ 0x15) || fmt == 0x20 || fmt == 0x21 || fmt == 0x30 || fmt == 0x31

/-- The format has one E8M0 scale for each 32 elements. -/
def fmtIsMx (fmt : Nat) : Bool := decide (0x10 ≤ fmt ∧ fmt ≤ 0x15)

/-- Bytes of a tile's scale area (R182–R184). -/
def scaleBytes (fmt rows cols : Nat) : Nat :=
  if fmtIsMx fmt then rows * cols / 32
  else if fmt = 0x21 then 2 * rows + rows * cols / 64
  else if fmt = 0x20 then rows * cols / 128 + rows * cols / 32
  else 0

/-- Bytes of a tile's scale and element areas (R123). -/
def tileBytes (fmt rows cols : Nat) : Nat := scaleBytes fmt rows cols + ceilDiv (rows * cols * elemBits fmt) 8

/-- Bits of element `i` of a tile (R182). -/
def elemAt (fmt rows cols : Nat) (bs : List Byte) (i : Nat) : Nat :=
  let w := elemBits fmt
  let bit := w * i
  leAt bs (scaleBytes fmt rows cols + bit / 8) 5 / 2 ^ (bit % 8) % 2 ^ w

/-- Two's complement of a number of `w` bits. -/
def signedOf (w n : Nat) : Int := if n ≥ 2 ^ (w - 1) then (n : Int) - 2 ^ w else n

/-- Value of an NX2 code: +1, +3, −1, −3 (R184). -/
def nx2Value (c : Nat) : Int :=
  match c with
  | 0 => 1
  | 1 => 3
  | 2 => -1
  | _ => -3

/-- An integer as a value. -/
def numOfInt (n : Int) (e : Int) : Num := .fin (decide (n < 0)) n.natAbs e

/-- Value of an element without its block scale; an NX element is its integer. -/
def elemNum (fmt b : Nat) : Num :=
  match fmt with
  | 0x01 => numOfInt (signedOf 8 b) 0
  | 0x03 => fmtF32.decode b
  | 0x04 => fmtBF16.decode b
  | 0x05 => fmtF16.decode b
  | 0x06 => fmtE4M3.decode b
  | 0x07 => fmtE5M2.decode b
  | 0x10 => fmtE2M1.decode b
  | 0x11 => fmtE2M3.decode b
  | 0x12 => fmtE3M2.decode b
  | 0x13 => fmtE4M3.decode b
  | 0x14 => fmtE5M2.decode b
  | 0x15 => numOfInt (signedOf 8 b) (-6)
  | 0x20 => numOfInt (nx2Value b) 0
  | 0x21 => numOfInt (signedOf 4 b) 0
  | _ => .fin false b 0

/-- E8M0 scale byte of the block of an element; 0x7F for a format without MX scales. -/
def mxScale (fmt : Nat) (bs : List Byte) (i : Nat) : Nat := if fmtIsMx fmt then leAt bs (i / 32) 1 else 0x7F

/-- FP16 row scale of an NX4 tile (R183). -/
def nx4Row (bs : List Byte) (r : Nat) : Num := fmtF16.decode (leAt bs (2 * r) 2)

/-- Offset of block `b` of an NX4 tile of `rows` rows. -/
def nx4Off (rows : Nat) (bs : List Byte) (b : Nat) : Nat := leAt bs (2 * rows + b / 2) 1 / 16 ^ (b % 2) % 16

/-- Super-scale of element `i` of an NX2 tile (R184). -/
def nx2Super (bs : List Byte) (i : Nat) : Nat := leAt bs (i / 128) 1

/-- Sub-scale of element `i` of an NX2 tile of `n` elements. -/
def nx2Sub (n : Nat) (bs : List Byte) (i : Nat) : Nat := leAt bs (n / 128 + i / 32) 1 / 16 ^ (i / 16 % 2) % 16

/-- Value of an element with every scale but an MX block scale; NaN under a super-scale of 0xFF. -/
def elemScaled (fmt rows cols : Nat) (bs : List Byte) (i : Nat) : Num :=
  let x := elemNum fmt (elemAt fmt rows cols bs i)
  if fmt = 0x21 then (x.mul (nx4Row bs (i / cols))).scale (-(nx4Off rows bs (i / 32) : Int))
  else if fmt = 0x20 then
    if nx2Super bs i = 0xFF then .nan
    else (x.mul (.fin false (nx2Sub (rows * cols) bs i) 0)).scale ((nx2Super bs i : Int) - 131)
  else x

/-- Full value of an element. -/
def elemValue (fmt rows cols : Nat) (bs : List Byte) (i : Nat) : Num :=
  let s := mxScale fmt bs i
  if s = 0xFF then .nan else (elemScaled fmt rows cols bs i).scale ((s : Int) - 127)

/-- A tile holds no NaN or infinite element and no scale of 0xFF (R185). -/
def tileFinite (fmt rows cols : Nat) (bs : List Byte) : Bool :=
  (List.range (rows * cols)).all fun i => (elemValue fmt rows cols bs i).finite

/-! ### Products (R186, R187) -/

/-- Which mode a pair of formats runs in (Table 07.1): 0 W2A4, 1 W4A4-I, 2 W4A4-F, 3 W8A8-I, 4 W8A8-F, 5 BF16. -/
def modeOf (wf af : Nat) : Option Nat :=
  if wf = 0x20 ∧ af = 0x21 then some 0
  else if wf = 0x21 ∧ af = 0x21 then some 1
  else if wf = 0x10 ∧ af = 0x10 then some 2
  else if wf = 0x15 ∧ af = 0x15 then some 3
  else if (af = 0x13 ∨ af = 0x14) ∧ ((0x10 ≤ wf ∧ wf ≤ 0x14) ∨ wf = 0x20 ∨ wf = 0x21 ∨ wf = 0x06 ∨ wf = 0x07) then some 4
  else if wf = 0x04 ∧ af = 0x04 then some 5
  else none

/-- FRAC of an integer mode (Table 07.1). -/
def modeFrac (mode : Nat) : Int :=
  match mode with
  | 0 => 7
  | 1 => 10
  | _ => 2

/-- One operand of a product: format, shape and payload. -/
structure Operand where
  fmt  : Nat
  rows : Nat
  cols : Nat
  data : List Byte
  deriving DecidableEq, Repr

/-- Integer of element (r, c), without scales. -/
def Operand.int (o : Operand) (r c : Nat) : Int :=
  if r < o.rows ∧ c < o.cols then
    let b := elemAt o.fmt o.rows o.cols o.data (r * o.cols + c)
    match o.fmt with
    | 0x20 => nx2Value b
    | 0x21 => signedOf 4 b
    | _ => signedOf 8 b
  else 0

/-- Exact sum of a list of values, from +0. -/
def sumNum (xs : List Num) : Num := xs.foldl Num.add (.fin false 0 0)

/-- Value of one 32-element block in an FP32 mode (R186): exact dot product, one rounding, then the two MX scales. -/
def blockF (w a : Operand) (wr ar c0 : Nat) : U32 :=
  let i := wr * w.cols + c0
  let j := ar * a.cols + c0
  let sw := mxScale w.fmt w.data i
  let sa := mxScale a.fmt a.data j
  let n := min 32 (w.cols - c0)
  let dot := sumNum ((List.range n).map fun k =>
    (elemScaled w.fmt w.rows w.cols w.data (i + k)).mul (elemScaled a.fmt a.rows a.cols a.data (j + k)))
  if sw = 0xFF ∨ sa = 0xFF then toF32 .nan else toF32 ((f32 (toF32 dot)).scale ((sw : Int) + sa - 254))

/-- Value of one chunk in an FP32 mode. -/
def chunkF (w a : Operand) (wr ar c0 : Nat) : U32 :=
  (List.range 4).foldl (fun s b => if c0 + 32 * b < w.cols then fadd s (blockF w a wr ar (c0 + 32 * b)) else s) 0

/-- P_b and o_b of a block of an integer mode (Table 07.3). -/
def blockI (mode : Nat) (w a : Operand) (wr ar c0 : Nat) : Int × Int :=
  let i := wr * w.cols + c0
  let j := ar * a.cols + c0
  let dot := fun (lo n : Nat) => ((List.range n).map fun k => w.int wr (c0 + lo + k) * a.int ar (c0 + lo + k)).sum
  match mode with
  | 0 => ((nx2Sub (w.rows * w.cols) w.data i : Int) * dot 0 16 + (nx2Sub (w.rows * w.cols) w.data (i + 16) : Int) * dot 16 16,
          (nx4Off a.rows a.data (j / 32) : Int))
  | 1 => (dot 0 32, (nx4Off w.rows w.data (i / 32) : Int) + nx4Off a.rows a.data (j / 32))
  | _ => (dot 0 32, 254 - (mxScale w.fmt w.data i : Int) - mxScale a.fmt a.data j)

/-- U of a chunk (Table 07.3). -/
def chunkUnit (mode : Nat) (w a : Operand) (wr ar c0 : Nat) : Num :=
  match mode with
  | 0 => (nx4Row a.data ar).scale ((nx2Super w.data (wr * w.cols + c0) : Int) - 131)
  | 1 => (nx4Row w.data wr).mul (nx4Row a.data ar)
  | _ => .fin false 1 (-12)

/-- One step of the 24-bit accumulator (R187): the sum and the clamps counted. -/
def accumulate (frac omin : Int) (s : Int × Nat) (b : Int × Int) : Int × Nat :=
  let sh := frac - (b.2 - omin)
  let mag := roundMag b.1.natAbs sh 0
  let t : Int := if b.1 < 0 then -(mag : Int) else mag
  let v := s.1 + t
  if v > 2 ^ 23 - 1 then (2 ^ 23 - 1, s.2 + 1) else if v < -(2 ^ 23) then (-(2 ^ 23), s.2 + 1) else (v, s.2)

/-- Value of one chunk in an integer mode, and its clamps (R187). -/
def chunkI (mode : Nat) (w a : Operand) (wr ar c0 : Nat) : U32 × Nat :=
  let bs := (List.range 4).map fun b =>
    if c0 + 32 * b < w.cols then blockI mode w a wr ar (c0 + 32 * b) else (0, (blockI mode w a wr ar c0).2)
  let omin := (bs.map fun b => b.2).foldl min ((bs.headD (0, 0)).2)
  let acc := bs.foldl (accumulate (modeFrac mode) omin) (0, 0)
  (toF32 (((numOfInt acc.1 0).scale (-(modeFrac mode + omin))).mul (chunkUnit mode w a wr ar c0)), acc.2)

/-- One output of a product: the FP32 running sum over the chunks in order, and its clamps (R186). -/
def dotOutput (mode : Nat) (w a : Operand) (wr ar : Nat) : U32 × Nat :=
  (List.range (ceilDiv w.cols 128)).foldl (fun s c =>
    if mode = 0 ∨ mode = 1 ∨ mode = 3 then
      let x := chunkI mode w a wr ar (128 * c)
      (fadd s.1 x.1, s.2 + x.2)
    else (fadd s.1 (chunkF w a wr ar (128 * c)), s.2)) (0, 0)

/-- All outputs of a product, activation row by activation row, and the clamps. -/
def product (mode : Nat) (w a : Operand) : List (List U32) × Nat :=
  let outs := (List.range a.rows).map fun ar => (List.range w.rows).map fun wr => dotOutput mode w a wr ar
  (outs.map fun r => r.map fun x => x.1, (outs.flatMap fun r => r.map fun x => x.2).sum)

/-! ### Quantisation (R188, R189) -/

/-- Largest magnitude of a list of values. -/
def maxAbs (xs : List Num) : Num := xs.foldl (fun a x => if a.lt x.abs then x.abs else a) (.fin false 0 0)

/-- Format of an MX element, and e_max (R188). -/
def mxElem (fmt : Nat) : FpFmt × Int :=
  match fmt with
  | 0x10 => (fmtE2M1, 2)
  | 0x11 => (fmtE2M3, 2)
  | 0x12 => (fmtE3M2, 4)
  | 0x14 => (fmtE5M2, 15)
  | _ => (fmtE4M3, 8)

/-- One block of 32 quantised to an MX format under R188: the scale byte, the element bits, the clamps. -/
def quantMx (fmt : Nat) (xs : List Num) : Nat × List Nat × Nat :=
  let f := mxElem fmt
  let e : Int :=
    match maxAbs xs with
    | .fin _ m g => if m = 0 then 0 else log2Of m g - f.2
    | _ => 0
  let ys := xs.map fun x => x.scale (-e)
  ((e + 127).toNat, ys.map fun y => f.1.encode true y, (ys.filter fun y => f.1.clamps y).length)

/-- sr_bits of R189. -/
def srBits (seed : U64) (pos l h k d : Nat) : Nat :=
  let x := seed ^^^ BitVec.ofNat 64 (pos * 2 ^ 23) ^^^ BitVec.ofNat 64 (l * 2 ^ 15) ^^^ BitVec.ofNat 64 (h * 2 ^ 9) ^^^
    BitVec.ofNat 64 (k * 2 ^ 8) ^^^ BitVec.ofNat 64 d
  let x := (x ^^^ (x >>> 30)) * 0xBF58476D1CE4E5B9
  let x := (x ^^^ (x >>> 27)) * 0x94D049BB133111EB
  let x := x ^^^ (x >>> 31)
  x.toNat % 65536

/-- A value rounded stochastically with 16 random bits (R189): the bits, and whether it clamped. -/
def FpFmt.stochastic (f : FpFmt) (x : Num) (r : Nat) : Nat × Bool :=
  match x with
  | .fin neg m e =>
    if m = 0 then (f.encode true x, false)
    else
      let E := f.binade m e
      let q := E - f.mw
      let n := truncMag m e q
      let t := truncMag m e (q - 16) % 65536
      let b := f.pack E (if t + r ≥ 65536 then n + 1 else n)
      ((if neg then 2 ^ (f.ew + f.mw) else 0) + min b f.maxBits, decide (b > f.maxBits))
  | y => (f.encode true y, f.clamps y)

/-- The error of a shadow sample, √(Σ(y − y_ref)² ÷ Σ y_ref²) in units of 2^−16, saturating (R195). -/
def shadowError (y ref : List U32) : Nat :=
  let sq := fun (x : Num) => x.mul x
  let ys := y.map f32
  let rs := ref.map f32
  if !((ys ++ rs).all Num.finite) then 0xFFFF
  else
    match sumNum ((ys.zip rs).map fun p => sq (p.1.add p.2.negate)), sumNum (rs.map sq) with
    | .fin _ a e, .fin _ b g =>
      if b = 0 then
        match sumNum (ys.map sq) with
        | .fin _ c _ => if c = 0 then 0 else 0xFFFF
        | _ => 0xFFFF
      else
        let k := e - g + 32
        let q := if k ≥ 0 then a * 2 ^ k.toNat / b else a / (b * 2 ^ (-k).toNat)
        min 0xFFFF (Nat.sqrt q)
    | _, _ => 0xFFFF

end Sys2Proof.Machine
end

