-- ==== Sys2Proof/Machine/Peat.lean ====
section
/-! DEFINITION. PEAT, the stored form of tiles below T1 (05_state_tiers_peat.md R142–R147), and the encryption of stored
sectors (13_partitions_keys.md R353). -/

namespace Sys2Proof.Machine

/-- Bytes of a tile's payload (05 R121). -/
def tileSize : Nat := 65536

/-! ### Bit streams (R145) -/

/-- Bits to bytes: bit k is bit k mod 8 of byte ⌊k/8⌋; the fuel bounds the number of bytes. -/
def packBits : Nat → List Bool → List Byte
  | 0, _ => []
  | f + 1, bs =>
    if bs.isEmpty then []
    else
      let v := ((bs.take 8).zipIdx.map fun x => if x.1 then 2 ^ x.2 else 0).sum
      BitVec.ofNat 8 v :: packBits f (bs.drop 8)

/-- Bytes to bits. -/
def unpackBits (bs : List Byte) : List Bool := bs.flatMap fun b => (List.range 8).map fun i => b.getLsbD i

/-- A symbol of `w` bits, lowest bit first, as an uncoded stream packs it. -/
def symbolBits (w v : Nat) : List Bool := (List.range w).map fun i => v.testBit i

/-- Symbols of `w` bits read back from bits. -/
def readSymbols (w : Nat) : Nat → List Bool → List Nat
  | 0, _ => []
  | n + 1, bs => ((bs.take w).zipIdx.map fun x => if x.1 then 2 ^ x.2 else 0).sum :: readSymbols w n (bs.drop w)

/-- Canonical codes of a list of lengths: symbol, length, code (R145). -/
def canonicalCodes (ls : List Nat) : List (Nat × Nat × Nat) :=
  let order := (List.range 16).flatMap fun L =>
    if L = 0 then [] else (ls.zipIdx.filter fun x => x.1 == L).map fun x => (x.2, L)
  (order.foldl (fun (s : List (Nat × Nat × Nat) × Option (Nat × Nat)) x =>
    let c := match s.2 with
      | none => 0
      | some (code, len) => (code + 1) * 2 ^ (x.2 - len)
    (s.1 ++ [(x.1, x.2, c)], some (c, x.2))) ([], none)).1

/-- Lengths that code every symbol present: 1–15 each, no absent symbol coded, and a prefix code. -/
def lengthsValid (ls syms : List Nat) : Bool :=
  ls.all (fun l => decide (l ≤ 15)) && syms.all (fun s => ls.getD s 0 != 0) &&
  decide ((ls.map fun l => if l = 0 then 0 else 2 ^ (15 - l)).sum ≤ 2 ^ 15)

/-- Bits of a coded stream: each code from its most significant bit. -/
def codeBits (codes : List (Nat × Nat × Nat)) (syms : List Nat) : List Bool :=
  syms.flatMap fun s =>
    match codes.find? fun c => c.1 == s with
    | some (_, len, code) => (List.range len).map fun i => code.testBit (len - 1 - i)
    | none => []

/-- Symbols of a coded stream; the fuel is the number of bits. -/
def decodeBits (codes : List (Nat × Nat × Nat)) : Nat → Nat → List Bool → Nat → Nat → List Nat
  | 0, _, _, _, _ => []
  | _, 0, _, _, _ => []
  | _, _, [], _, _ => []
  | f + 1, n + 1, b :: bs, len, acc =>
    let acc := 2 * acc + (if b then 1 else 0)
    match codes.find? fun c => c.2.1 == len + 1 && c.2.2 == acc with
    | some (s, _, _) => s :: decodeBits codes f n bs 0 0
    | none => decodeBits codes f (n + 1) bs (len + 1) acc

/-- A code table: 4 bits for each symbol, the lower-numbered one in the low nibble. -/
def tableBytes (n : Nat) (ls : List Nat) : List Byte :=
  (List.range (ceilDiv n 2)).map fun i => BitVec.ofNat 8 (ls.getD (2 * i) 0 + 16 * ls.getD (2 * i + 1) 0)

/-- Code lengths read from a table. -/
def tableLengths (bs : List Byte) : List Nat := bs.flatMap fun b => [b.toNat % 16, b.toNat / 16]

/-- One stream stored: whether it is coded, its table and its bytes. Coding is used only when it makes the stream shorter
(R145); the lengths are the encoder's choice (log 12). -/
def storeStream (w : Nat) (syms : List Nat) : Bool × List Byte × List Byte :=
  let plain := packBits (syms.length * w) (syms.flatMap (symbolBits w))
  let ls := Config.codeLengths (2 ^ w) syms
  let codes := canonicalCodes ls
  let bits := codeBits codes syms
  let coded := packBits bits.length bits
  let table := tableBytes (2 ^ w) ls
  if lengthsValid ls syms && decide (table.length + coded.length < plain.length) then (true, table, coded)
  else (false, [], plain)

/-- One stream read back. -/
def loadStream (w n : Nat) (coded : Bool) (table bytes : List Byte) : List Nat :=
  let bits := unpackBits bytes
  if coded then decodeBits (canonicalCodes (tableLengths table)) bits.length n bits 0 0 else readSymbols w n bits

/-! ### Exponent grouping (R144, Table 05.8) -/

/-- Exponent bits of an element that go to the E stream. -/
def eBits (fmt : Nat) : Nat :=
  match fmt with
  | 0x04 => 8
  | 0x05 => 5
  | 0x06 => 4
  | 0x07 => 5
  | 0x13 => 4
  | 0x14 => 5
  | _ => 0

/-- M_BITS of a format. -/
def mBits (fmt : Nat) : Nat :=
  match fmt with
  | 0x06 => 4
  | 0x13 => 4
  | 0x07 => 3
  | 0x14 => 3
  | 0x11 => 6
  | 0x12 => 6
  | 0x10 => 4
  | 0x21 => 4
  | 0x20 => 2
  | _ => 8

/-- Bytes of the scale area that go to the E stream. -/
def eScales (fmt rows cols : Nat) : Nat := scaleBytes fmt rows cols

/-- Zigzag of a difference of bytes. -/
def zigzag (prev cur : Nat) : Nat :=
  let d := (cur + 256 - prev) % 256
  if d < 128 then 2 * d % 256 else 2 * (256 - d) - 1

/-- The difference that a zigzag stands for, as a byte. -/
def unzigzag (z : Nat) : Nat := if z % 2 = 0 then z / 2 else (256 - (z + 1) / 2) % 256

/-- Zigzags of a scale area. -/
def zigzags : Nat → List Byte → List Nat
  | _, [] => []
  | prev, b :: r => zigzag prev b.toNat :: zigzags b.toNat r

/-- A scale area from its zigzags. -/
def unzigzags : Nat → List Nat → List Byte
  | _, [] => []
  | prev, z :: r =>
    let v := (prev + unzigzag z) % 256
    BitVec.ofNat 8 v :: unzigzags v r

/-- Exponent field of an element. -/
def expField (fmt b : Nat) : Nat :=
  match fmt with
  | 0x04 => b / 128 % 256
  | 0x05 => b / 1024 % 32
  | 0x06 => b / 8 % 16
  | 0x13 => b / 8 % 16
  | _ => b / 4 % 32

/-- M symbols of an element: its remaining bits with the sign as the most significant bit. -/
def mSymbols (fmt b : Nat) : List Nat :=
  match fmt with
  | 0x04 => [b / 32768 * 128 + b % 128]
  | 0x05 => [(b / 32768 * 1024 + b % 1024) / 8, b % 8]
  | 0x06 => [b / 128 * 8 + b % 8]
  | 0x13 => [b / 128 * 8 + b % 8]
  | 0x07 => [b / 128 * 4 + b % 4]
  | 0x14 => [b / 128 * 4 + b % 4]
  | 0x02 => (leBytes 4 b).map BitVec.toNat
  | 0x03 => (leBytes 4 b).map BitVec.toNat
  | _ => [b]

/-- M symbols for each element. -/
def mPerElem (fmt : Nat) : Nat := if fmt = 0x05 then 2 else if fmt = 0x02 ∨ fmt = 0x03 then 4 else 1

/-- An element from its exponent field and M symbols. -/
def joinElem (fmt e : Nat) (ms : List Nat) : Nat :=
  let m := ms.headD 0
  match fmt with
  | 0x04 => m / 128 * 32768 + e * 128 + m % 128
  | 0x05 => let v := m * 8 + ms.getD 1 0; v / 1024 * 32768 + e * 1024 + v % 1024
  | 0x06 => m / 8 * 128 + e * 8 + m % 8
  | 0x13 => m / 8 * 128 + e * 8 + m % 8
  | 0x07 => m / 4 * 128 + e * 4 + m % 4
  | 0x14 => m / 4 * 128 + e * 4 + m % 4
  | 0x02 => leNat (ms.map (BitVec.ofNat 8))
  | 0x03 => leNat (ms.map (BitVec.ofNat 8))
  | _ => m

/-- Elements of the M stream: binary sketches go byte by byte. -/
def mElems (fmt rows cols : Nat) : Nat := if fmt = 0x30 then ceilDiv (rows * cols) 8 else rows * cols

/-- Element `i` as the M stream takes it. -/
def mElem (fmt rows cols : Nat) (bs : List Byte) (i : Nat) : Nat :=
  if fmt = 0x30 then leAt bs i 1 else elemAt fmt rows cols bs i

/-- The two streams of a RAW tile. -/
def splitTile (fmt rows cols : Nat) (bs : List Byte) : List Nat × List Nat :=
  let n := mElems fmt rows cols
  let es := (List.range n).map (mElem fmt rows cols bs)
  (zigzags 0 (bs.take (eScales fmt rows cols)) ++ (if eBits fmt = 0 then [] else es.map (expField fmt)),
   es.flatMap (mSymbols fmt))

/-- A RAW tile from its two streams, zero beyond its shape. -/
def joinTile (fmt rows cols : Nat) (e m : List Nat) : List Byte :=
  let ns := eScales fmt rows cols
  let n := mElems fmt rows cols
  let k := mPerElem fmt
  let exps := e.drop ns
  let el := (List.range n).map fun i => joinElem fmt (exps.getD i 0) ((m.drop (k * i)).take k)
  let w := if fmt = 0x30 then 8 else elemBits fmt
  padTo tileSize (unzigzags 0 (e.take ns) ++ packBits (n * w) (el.flatMap (symbolBits w)))

/-! ### PEAT-L, PEAT-Q (R142, R143, R146) -/

/-- PEAT-L bytes, before padding to sectors (R143). -/
def peatL (q : Bool) (fmt rows cols : Nat) (bs : List Byte) : List Byte :=
  let s := splitTile fmt rows cols bs
  let e := storeStream 8 s.1
  let m := storeStream (mBits fmt) s.2
  record [(1, 1), (1, (if q then 1 else 0) + (if e.1 then 2 else 0) + (if m.1 then 4 else 0)), (1, mBits fmt), (1, 0),
          (4, s.1.length), (4, s.2.length), (4, e.2.2.length), (4, m.2.2.length), (2, e.2.1.length), (2, m.2.1.length),
          (8, 0)] ++ e.2.1 ++ m.2.1 ++ e.2.2 ++ m.2.2

/-- The RAW tile that PEAT-L bytes stand for. -/
def unpeatL (fmt rows cols : Nat) (bs : List Byte) : List Byte :=
  let algo := leAt bs 1 1
  let et := leAt bs 20 2
  let mt := leAt bs 22 2
  let eb := leAt bs 12 4
  let mb := leAt bs 16 4
  let r := bs.drop 32
  let e := loadStream 8 (leAt bs 4 4) (algo / 2 % 2 == 1) (r.take et) ((r.drop (et + mt)).take eb)
  let m := loadStream (leAt bs 2 1) (leAt bs 8 4) (algo / 4 % 2 == 1) ((r.drop et).take mt) ((r.drop (et + mt + eb)).take mb)
  joinTile fmt rows cols e m

/-- One block of PEAT-Q (R146): scale byte and elements. -/
def peatQBlock (xs : List Num) : Nat × List Nat :=
  if !(xs.all Num.finite) then (0xFF, xs.map fun _ => 0)
  else
    match maxAbs xs with
    | .fin _ 0 _ => (0x7F, xs.map fun _ => 0)
    | _ => let q := quantMx 0x10 xs; (q.1, q.2.1)

/-- PEAT-Q of an FP8 page: MXFP4 in the page's layout order, zero beyond it (R146). -/
def peatQ (fmt : Nat) (bs : List Byte) : List Byte :=
  let bl := (chunks 32 (bs.length + 1) bs).map fun c => peatQBlock (c.map fun b => elemNum fmt b.toNat)
  let sc := bl.map fun b => BitVec.ofNat 8 b.1
  let el := (bl.flatMap fun b => b.2)
  padTo tileSize (sc ++ packBits (bs.length) (el.flatMap (symbolBits 4)))

/-- A page holds a NaN or an infinity (PEATQ_NAN of R146). -/
def peatQNan (fmt : Nat) (bs : List Byte) : Bool := bs.any fun b => !(elemNum fmt b.toNat).finite

/-- Whole sectors of a stored form. -/
def sectorsOf (n : Nat) : Nat := ceilDiv n 512

/-- A tile as it is stored: FORM, FORMAT, sectors and bytes padded to them. -/
structure Stored where
  form    : Nat
  format  : Nat
  sectors : Nat
  bytes   : List Byte
  deriving DecidableEq, Repr

/-- The stored form that a PEAT request gives: 0 RAW, 1 PEAT-L, 2 PEAT-Q then PEAT-L (R142). -/
def storeTile (peat kind fmt rows cols : Nat) (raw : List Byte) : Stored :=
  let asRaw : Stored := ⟨0, fmt, 128, padTo tileSize raw⟩
  let lossless := fun (_ : Unit) =>
    let b := peatL false fmt rows cols raw
    if sectorsOf b.length > 127 then asRaw else ⟨1, fmt, sectorsOf b.length, padTo (512 * sectorsOf b.length) b⟩
  if peat = 0 then asRaw
  else if peat = 2 ∧ kind = 2 ∧ (fmt = 0x06 ∨ fmt = 0x07) then
    let q := peatQ fmt (raw.take (rows * cols))
    let b := peatL true 0x10 rows cols q
    if sectorsOf b.length > 67 then ⟨3, 0x10, 68, q.take 34816⟩
    else ⟨2, 0x10, sectorsOf b.length, padTo (512 * sectorsOf b.length) b⟩
  else lossless ()

/-- The RAW payload that a stored form stands for, of a tile whose element format is `fmt`. -/
def loadTile (form fmt rows cols : Nat) (bs : List Byte) : List Byte :=
  match form with
  | 0 => padTo tileSize bs
  | 3 => padTo tileSize bs
  | _ => unpeatL fmt rows cols bs

/-! ### Encryption of stored sectors (13 R353) -/

/-- Sectors encrypted, each under the tweak of its pool address ÷ 512. -/
def sealSectors (key : BitVec 256) (addr : Nat) (bs : List Byte) : List Byte :=
  (chunks 512 (bs.length + 1) bs).zipIdx.flatMap fun x => Config.xtsEncrypt key (addr / 512 + x.2) x.1

/-- Sectors decrypted. -/
def openSectors (key : BitVec 256) (addr : Nat) (bs : List Byte) : List Byte :=
  (chunks 512 (bs.length + 1) bs).zipIdx.flatMap fun x => Config.xtsDecrypt key (addr / 512 + x.2) x.1

end Sys2Proof.Machine
end

