-- ==== Sys2Proof/Machine/Tiles.lean ====
section
/-! DEFINITION. Regions and their tiles: handles, keys, frames, headers, stored forms, copy-before-write, weights and
replicas (05_state_tiers_peat.md R121–R133, R136–R138, R149; 13_partitions_keys.md R349–R355). -/

namespace Sys2Proof.Machine

/-! ### Numbers and generations (04 R85) -/

/-- The next number of a kind below `limit`: never used ones ascending, then freed ones in the order they were freed. -/
def Numbers.take (n : Numbers) (first limit : Nat) : Option (Nat × Numbers) :=
  if n.fresh < limit then some (first + n.fresh, { n with fresh := n.fresh + 1 })
  else match n.freed with
    | [] => none
    | x :: r => some (x, { n with freed := r })

/-- A number given back. -/
def Numbers.give (n : Numbers) (x : Nat) : Numbers := { n with freed := n.freed ++ [x] }

/-- The next generation of a number: 1 to `top`, then 1 again. -/
def nextGen (g top : Nat) : Nat := if g ≥ top then 1 else g + 1

/-! ### Keys of stored forms -/

/-- Material of a STORE key that encrypts and decrypts: its CURRENT generation (R351). -/
def Dev.storeKey (d : Dev) (p keyId : Nat) : Option (BitVec 256) :=
  match d.key p keyId with
  | some k => if k.store then (k.genIn .current).map fun g => g.key else none
  | none => none

/-- Material that work already started still decrypts under: a RETIRING generation too (Table 13.4). -/
def Dev.readKey (d : Dev) (p keyId : Nat) : Option (BitVec 256) :=
  match d.storeKey p keyId with
  | some x => some x
  | none =>
    match d.key p keyId with
    | some k => (k.genIn .retiring).map fun g => g.key
    | none => none

/-- Work that would start under the key does not: its tenant is removed and it is not installed again, or its generation is
being retired (13 R354, R355). -/
def Dev.tenantGone (d : Dev) (p keyId : Nat) : Bool := (d.key p keyId).any fun k => k.removed || (k.genIn .retiring).isSome

/-! ### Regions -/

/-- A region. -/
def Dev.region (d : Dev) (n : Nat) : Option Region := tget d.tier.region n

/-- A region changed. -/
def Dev.modRegion (d : Dev) (n : Nat) (f : Region → Region) : Dev :=
  { d with tier := { d.tier with region := tupd d.tier.region n f } }

/-- A tile of a region; the zero tile where it was never written. -/
def Region.at (r : Region) (t : Nat) : Tile := tgetD r.tile t {}

/-- A tile changed. -/
def Dev.modTile (d : Dev) (n t : Nat) (f : Tile → Tile) : Dev :=
  d.modRegion n fun r => { r with tile := tmod r.tile t {} f }

/-- Status of a region handle for a partition (R50, R128). -/
def Dev.regionStatus (d : Dev) (p : Nat) (h : U64) : Byte :=
  if hDevice h ≠ d.id then stNoSession
  else if hPart h ≠ p then stDenied
  else match d.region (hRegion h) with
    | none => stNoSession
    | some r => if r.gen ≠ hRegionGen h then stNoSession else if r.part ≠ p then stDenied
      else if r.offered then stWrong else stOk

/-- Handle of a region. -/
def Dev.regionHandle (d : Dev) (n : Nat) : U64 :=
  match d.region n with
  | some r => mkRegionHandle d.id r.part r.gen n
  | none => 0

/-- Status of an extent handle for a partition (R50, 11 R308). -/
def Dev.extentStatus (d : Dev) (p : Nat) (h : U64) : Byte :=
  match d.extentInfo h with
  | none => stNoSession
  | some e => if e.part ≠ p then stDenied else if e.live then stOk else stExtent

/-- Pages of an extent that regions and sessions of this device take. -/
def Dev.takenPages (d : Dev) (h : U64) : List Nat := tgetD d.fab.taken h.toNat []

/-- Pages of an extent taken. -/
def Dev.takePages (d : Dev) (h : U64) (ps : List Nat) : Dev :=
  { d with fab := { d.fab with taken := tput d.fab.taken h.toNat (d.takenPages h ++ ps) } }

/-- Pages of an extent let go. -/
def Dev.freePages (d : Dev) (h : U64) (ps : List Nat) : Dev :=
  { d with fab := { d.fab with taken := tput d.fab.taken h.toNat ((d.takenPages h).filter fun x => !ps.contains x) } }

/-- Free pages of an extent, lowest first. -/
def Dev.freeIn (d : Dev) (e : ExtentInfo) : List Nat :=
  let t := d.takenPages e.handle
  (List.range e.pages).filter fun i => !t.contains i

/-- Pool address of a page of an extent. -/
def pageAddr (e : ExtentInfo) (i : Nat) : U64 := poolAddr (hExtHome e.handle) e.space (e.base + i * pageBytes)

/-- Frames of a region tile freed: they become FREE at the next E8 (R130). -/
def Dev.freeRegionFrames (d : Dev) (p n : Nat) : Dev :=
  let g := fun (f : Frames) => { f with freeRegion := f.freeRegion + n }
  { d with tier := { d.tier with frames := tmod d.tier.frames p {} g } }

/-- A device address for a new T1 frame (R458: the layout is not specified, log 9). -/
def Dev.newFrame (d : Dev) : U64 × Dev :=
  (d.devAddr (Config.frameOffset d.tier.nextFrame).toNat,
   { d with tier := { d.tier with nextFrame := d.tier.nextFrame + 1 } })

/-! ### Headers (R122, Table 05.2) -/

/-- The 64-byte header of a tile; all zero for a tile never written. -/
def Dev.tileHeader (d : Dev) (n t : Nat) : List Byte :=
  match d.region n with
  | none => List.replicate 64 0
  | some r =>
    let x := r.at t
    if x.gen = 0 then List.replicate 64 0
    else
      let flags := (if x.cache.any fun c => c.2 then 1 else 0) + (if x.bad ≠ 0 then 4 else 0) +
        (if r.isSealed then 8 else 0) + (if x.protect then 16 else 0)
      record [(1, x.format), (1, x.form), (1, x.kind), (1, x.sectors), (1, x.layout), (1, flags), (2, x.validRows),
              (2, x.rows), (2, x.cols), (4, x.index.toNat), (8, (if x.owner = 0 then d.regionHandle n else x.owner).toNat), (8, x.gen), (8, x.digest.toNat),
              (4, x.crc.toNat), (4, x.firstPos), (8, x.storedAt.toNat), (2, x.keyId.toNat), (6, 0)]

/-- Fields that software writes in a header, taken over into a tile (R122). -/
def Tile.withHeader (x : Tile) (h : List Byte) : Tile :=
  { x with format := leAt h 0 1, kind := leAt h 2 1, layout := leAt h 4 1, validRows := leAt h 6 2, rows := leAt h 8 2,
           cols := leAt h 10 2, index := BitVec.ofNat 32 (leAt h 12 4), firstPos := leAt h 44 4 }

/-- COLS that a format requires: a multiple of 64 for NX4, of 128 for NX2 (07 R183, R184). -/
def colsFit (fmt cols : Nat) : Bool :=
  if fmt = 0x21 then cols % 64 == 0 else if fmt = 0x20 then cols % 128 == 0 else true

/-- A header names a defined format and a shape that fits (R123; 07 R183, R184: the refusal of other COLS is DEDUCED, log 52). -/
def headerFits (h : List Byte) : Bool :=
  fmtDefined (leAt h 0 1) && colsFit (leAt h 0 1) (leAt h 10 2) && decide (tileBytes (leAt h 0 1) (leAt h 8 2) (leAt h 10 2) ≤ tileSize) && decide (leAt h 2 1 ≤ 6)

/-- The payload of a tile that software supplies: bytes beyond the shape of its header are written 0 (R121, R182). -/
def shapedPayload (h raw : List Byte) : List Byte :=
  padTo tileSize (raw.take (tileBytes (leAt h 0 1) (leAt h 8 2) (leAt h 10 2)))

/-! ### Copy-before-write (R148, R149) -/

/-- An event reaches a tile: a protected one is copied into staging first, and counted. With 128 tiles staged, the event
waits for the oldest to drain, and the wait is counted. -/
def Dev.touch (d : Dev) (n t : Nat) : Dev :=
  match d.region n with
  | none => d
  | some r =>
    if (r.at t).protect then
      let d := if d.tier.staged.length ≥ 128 then
          { d.incF TIER_CBW_STAGING_STALLS with tier := { d.tier with staged := d.tier.staged.drop 1 } } else d
      let d := d.modTile n t fun x => { x with protect := false }
      let g := fun (c : Copy) => if c.src == n && c.left.contains t then { c with copies := c.copies + 1 } else c
      let d := { d with tier := { d.tier with staged := d.tier.staged ++ [(n, t)], copy := d.tier.copy.map g } }
      d.incF TIER_CBW_CBW_COPIES
    else d

/-! ### Stored forms -/

/-- The payload of a tile as it is stored below T1 under the region's PEAT attribute and key, for pool address `addr`:
stored form, encrypted sectors, STORED_CRC (R142, 13 R353). None when the key has no CURRENT generation. -/
def Dev.storedForm (d : Dev) (r : Region) (x : Tile) (raw : List Byte) (addr : U64) : Option (Stored × U32) :=
  match d.storeKey r.part r.keyId.toNat with
  | none => none
  | some key =>
    let st := storeTile r.peat x.kind x.format x.rows x.cols raw
    let enc := sealSectors key addr.toNat st.bytes
    some ({ st with bytes := enc }, crc32c enc)

/-- Tiles encoded to PEAT, counted. -/
def Dev.countEncoded (d : Dev) (form : Nat) : Dev := if form = 0 then d else d.incF TIER_PEAT_STATS_ENCODED

/-- Tiles decoded to RAW, counted. -/
def Dev.countDecoded (d : Dev) (form : Nat) : Dev := if form = 0 then d else d.incF TIER_PEAT_STATS_DECODED

/-- The RAW payload read from stored sectors, or the status of the read (R124): STORED_CRC first, RAW_DIGEST after
decryption and decoding. -/
def Dev.openStored (d : Dev) (p : Nat) (form fmt rows cols keyId : Nat) (crc : U32) (digest addr : U64)
    (bs : List Byte) : Except Byte (List Byte) :=
  match d.readKey p keyId with
  | none => .error stTenant
  | some key =>
    if crc32c bs ≠ crc then .error stPoison
    else
      let raw := loadTile form fmt rows cols (openSectors key addr.toNat bs)
      if form ≤ 1 ∧ crc64 raw ≠ digest then .error stPoison else .ok raw

/-- DIGEST_MISMATCH, with STORED_AT as the address (R124). -/
def Dev.digestMismatch (d : Dev) (p : Nat) (addr : U64) : Dev :=
  (d.flag TIER_STATUS_DIGEST_MISMATCH TIER_STATUS_DIGEST_COUNT).raise (some p) 0x0412 addr 2 0x102

/-- A tile written with new content: GENERATION rises by one, header fields and digest are set, its outcome is clean. -/
def Tile.written (x : Tile) (h raw : List Byte) : Tile :=
  { x.withHeader h with gen := x.gen + 1, owner := 0, digest := crc64 raw, bad := 0, validRows := leAt h 6 2 }

/-- T1 copies of WBACK tiles without PIN that are clean, for R132. -/
def Dev.cleanCopies (d : Dev) (p : Nat) : List (Nat × Nat) :=
  d.tier.region.flatMap fun e =>
    if e.2.part == p && e.2.wback && !e.2.pin then
      (e.2.tile.filter fun x => x.2.cache.any fun c => !c.2).map fun x => (e.1, x.1)
    else []

/-- Frame pressure (R132), first step: one clean copy dropped; its frame becomes FREE at the next E8. -/
def Dev.dropCopy (d : Dev) (p : Nat) : Dev :=
  match d.cleanCopies p with
  | [] => d
  | (n, t) :: _ => (d.modTile n t fun x => { x with cache := none }).freeRegionFrames p 1

/-- Frames of a partition that are FREE. -/
def Dev.freeFrames (d : Dev) (p : Nat) : Nat := (d.frames p).free

/-! ### Damaged weights (R137, R138) -/

/-- Sources of a weight tile: the home, then its replicas. -/
def Region.sources (r : Region) : Nat := 1 + r.replicas.length

/-- Degraded layers of a partition. -/
def Dev.window (d : Dev) (p : Nat) : Window := tgetD d.tier.window p {}

/-- The window of a partition changed. -/
def Dev.modWindow (d : Dev) (p : Nat) (f : Window → Window) : Dev :=
  { d with tier := { d.tier with window := tmod d.tier.window p {} f } }

/-- DEGRADED_LAYER from the list of degraded tiles. -/
def Dev.showDegraded (d : Dev) (p : Nat) : Dev :=
  let ls := (d.window p).degraded.map fun x =>
    match d.region x.1 with
    | some r => (r.at x.2).index.toNat % 65536
    | none => 0xFFFF
  d.setF (TIER_REBUILD_CFG_DEGRADED_LAYER p) (ls.foldl min 0xFFFF)

/-- A weight tile has no source left: its layer is degraded and the step fails at its safe point (R138). -/
def Dev.degrade (d : Dev) (n t : Nat) (addr : U64) : Dev :=
  match d.region n with
  | none => d
  | some r =>
    let d := d.modWindow r.part fun w =>
      { w with degraded := if w.degraded.contains (n, t) then w.degraded else w.degraded ++ [(n, t)] }
    let d := (d.modStep r.part fun s => { s with failed := true }).showDegraded r.part
    (d.flag TIER_STATUS_WEIGHT_DEGRADED TIER_STATUS_DEGRADED_COUNT).raise (some r.part) 0x0411 addr 2 0x101

/-- A re-fetch of a weight tile that succeeded (R137). -/
def Dev.failover (d : Dev) (p : Nat) (addr : U64) : Dev :=
  (d.flag TIER_STATUS_REPLICA_FAILOVER TIER_STATUS_FAILOVER_COUNT).raise (some p) 0x0410 addr 2 0x101

end Sys2Proof.Machine
end

