-- ==== Sys2Proof/Machine/Regions.lean ====
section
/-! DEFINITION. The region opcodes 0x20–0x29 and what goes on behind them: tiles are handled one by one in index order,
and a tile whose home lies below T1 waits for the home's answer (05_state_tiers_peat.md R130–R136, R148; Table 05.6). -/

namespace Sys2Proof.Machine

/-! ### Shared pieces -/

/-- The descriptor's host read failed (03 R457): POISONED_DATA, with HOST_READ_ERROR of the opcode's block and the failed
host address. -/
def Dev.hostFail (d : Dev) (k : Nat) (addr : U64) (result : U64) (detail : U32) : Dev :=
  match tget d.rng.descs k with
  | none => d
  | some e =>
    let code := opBlock e.op * 256 + 0x06
    (d.raiseAt (some e.part) code addr 0 ringMaster (opBlock e.op * 256) stPoison).finish k stPoison result detail true

/-- As `hostFail`, where the manual states neither RESULT nor DETAIL. -/
def Dev.hostFailOpen (d : Dev) (k : Nat) (addr : U64) : Dev :=
  let (r, x, d) := d.openPair
  d.hostFail k addr r x

/-- Tier of a tile's home. -/
def Region.tierOf (r : Region) (t : Nat) : Nat :=
  match tget r.tile t with
  | some x => x.tier
  | none => r.homeTier

/-- Address of the first stored byte of a tile whose home lies below T1: its recorded run, or page `t` of the extent (R127). -/
def Dev.tileAddr (d : Dev) (r : Region) (t : Nat) : U64 :=
  match tget r.tile t with
  | some x => x.storedAt
  | none =>
    match d.extentInfo r.extent with
    | some e => pageAddr e t
    | none => 0

/-- RAW payload of a tile that lies in T1: its home or its WBACK copy. -/
def Region.rawHere (r : Region) (t : Nat) : Option (List Byte) :=
  let x := r.at t
  match x.cache with
  | some c => some c.1
  | none => if r.tierOf t = 1 then some (padTo tileSize x.data) else none

/-- COUNT of a range of tiles: 0 stands for "to the last tile" (R134). -/
def rangeCount (r : Region) (first count : Nat) : Nat := if count = 0 then r.tiles - first else count

/-- A range lies within TILES. -/
def rangeOk (r : Region) (first count : Nat) : Bool := decide (first < r.tiles ∧ first + rangeCount r first count ≤ r.tiles)

/-- The region that a descriptor's TARGET names. -/
def targetRegion (x : Desc) : Nat := hRegion x.target

/-- Check of a region TARGET and of the fields of an opcode, given the region. -/
def chkRegion (d : Dev) (p : Nat) (x : Desc) (ok : Region → Bool) : Byte :=
  if d.regionStatus p x.target ≠ stOk then d.regionStatus p x.target
  else match d.region (targetRegion x) with
    | some r => if ok r then stOk else stBad
    | none => stNoSession

/-- A status that an engine's access to a tile carries to its descriptor: the fault record holds the tile's device address (03 R69, Table
03.9). Other statuses are the descriptor's own. -/
def Dev.failTile (d : Dev) (k : Nat) (status : Byte) (n t : Nat) (result : U64) : Dev :=
  match tget d.rng.descs k, d.region n with
  | some e, some r =>
    if status = stPoison ∨ status = stExtent then
      (d.raiseAt (some e.part) (opBlock e.op * 256 + stCode status) (r.at t).storedAt 2 0x101 (opBlock e.op * 256) status).finish k status
        result (BitVec.ofNat 32 t) true
    else d.fail k status result (BitVec.ofNat 32 t)
  | _, _ => d.fail k status result (BitVec.ofNat 32 t)

/-- An effect on the region that TARGET names, unless its tenant is being removed (13 R355). -/
def Dev.withRegion (d : Dev) (k : Nat) (e : DescEntry) (f : Dev → Nat → Region → Dev) : Dev :=
  match d.region (targetRegion e.d) with
  | none => d.refuse k stNoSession
  | some r => if d.tenantGone e.part r.keyId.toNat then d.failOpen k stTenant none else f d (targetRegion e.d) r

/-- The descriptor's running result set. -/
def Dev.setResult (d : Dev) (k : Nat) (v : Nat) : Dev := d.modDesc k fun e => { e with result := BitVec.ofNat 64 v }

/-! ### REGION_CREATE -/

/-- Range and handle checks of REGION_CREATE (Tables 05.5, 05.6). -/
def chkRegionCreate (d : Dev) (p : Nat) (x : Desc) : Byte :=
  let tiles := fieldAt x 16 4
  let tier := fieldAt x 20 1
  let wback := fieldAt x 21 1
  let flags := fieldAt x 26 1
  let h := BitVec.ofNat 64 (fieldAt x 32 8)
  if tiles = 0 ∨ tiles > 2 ^ 28 ∨ tier = 0 ∨ tier > 3 ∨ wback > 1 ∨ fieldAt x 22 1 > 6 ∨ fieldAt x 23 1 > 2 ∨
      (tier = 1 ∧ h ≠ 0) ∨ (wback = 1 ∧ tier = 1) ∨ (flags.testBit 0 ∧ wback = 1) ∨ (flags.testBit 1 ∧ wback = 0) then stBad
  else if tier = 1 then stOk
  else if d.extentStatus p h ≠ stOk then d.extentStatus p h
  else match d.extentInfo h with
    | some e => if e.cls + 2 ≠ tier then stBad else stOk
    | none => stNoSession

/-- T1 frames that a new region takes: its tiles, or the header array of a home below T1 (R126). -/
def regionFrames (tiles tier : Nat) : Nat := if tier = 1 then tiles else ceilDiv tiles 1024

/-- Region numbers of the device (R150). -/
def regionLimit : Nat := 65536

/-- REGION_CREATE applied. -/
def doRegionCreate (d : Dev) (k : Nat) (e : DescEntry) : Dev :=
  let x := e.d
  let p := e.part
  let tiles := fieldAt x 16 4
  let tier := fieldAt x 20 1
  let keyId := fieldAt x 24 2
  let h := BitVec.ofNat 64 (fieldAt x 32 8)
  let pages := if tier = 1 then [] else List.range tiles
  if (d.storeKey p keyId).isNone then d.refuse k stWrong
  else if tier ≠ 1 ∧ (d.extentInfo h).all (fun i => decide (i.pages < tiles)) then d.refuse k stLimit
  else if pages.any fun i => (d.takenPages h).contains i then d.refuse k stWrong
  else if d.freeFrames p < regionFrames tiles tier then d.refuse k stLimit
  else match (tgetD d.tier.numbers 0 {}).take 0 regionLimit with
    | none => d.refuse k stLimit
    | some (n, nums) =>
      let g := nextGen (tgetD d.tier.gens n 0) 0x1FFFFFFFF
      let r : Region :=
        { gen := g, part := p, tiles := tiles, homeTier := tier, wback := fieldAt x 21 1 = 1, kind := fieldAt x 22 1,
          peat := fieldAt x 23 1, keyId := BitVec.ofNat 16 keyId, weight := (fieldAt x 26 1).testBit 0,
          pin := (fieldAt x 26 1).testBit 1, extent := h }
      let t := { d.tier with region := tput d.tier.region n r, numbers := tput d.tier.numbers 0 nums,
                             gens := tput d.tier.gens n g }
      let d := { d with tier := t }
      let d := if tier = 1 then d else d.takePages h pages
      let d := d.moveFrames p 0 2 (regionFrames tiles tier)
      d.ok k (mkRegionHandle d.id p g n) 0

/-- REGION_CREATE (R134). -/
def execRegionCreate (ring : Nat) (x : Desc) (s : State) : Res :=
  guarded (.regionCreate ring x) (onDev s fun d => d.runOp 0x20 ring x chkRegionCreate doRegionCreate)

/-! ### REGION_DESTROY, REGION_ATTR -/

/-- A loaded placement image of the partition names the region (R135). -/
def Dev.imageNames (d : Dev) (p : Nat) (h : U64) : Bool :=
  (List.range 4).any fun i =>
    match tget d.plc.job (4 * p + i) with
    | none => false
    | some j => j.st != .empty && (match j.sect with
        | none => false
        | some c => (c.weights ++ c.escalation).any fun w => w.region == h || w.replicas.contains h)

/-- A session that is not FREE names the region as its history (04 R460). -/
def Dev.historyOf (d : Dev) (n : Nat) : Bool := d.tus.slot.any fun e => e.2.st != .free && e.2.histReg == n && e.2.histAddr != 0

/-- Frames that a region holds in T1: home tiles, or header array and copies. -/
def Region.framesHeld (r : Region) : Nat :=
  let moved := (r.tile.filter fun e => r.homeTier = 1 && e.2.tier ≠ 1).length
  let here := (r.tile.filter fun e => r.homeTier ≠ 1 && e.2.tier = 1).length
  regionFrames r.tiles r.homeTier - moved + here + (r.tile.filter fun e => e.2.cache.isSome).length

/-- A region leaves the table: its number is free, its pages are let go, its frames become FREE at the next E8. -/
def Dev.dropRegion (d : Dev) (n : Nat) : Dev :=
  match d.region n with
  | none => d
  | some r =>
    let d := r.tile.foldl (fun d e => d.touch n e.1) d
    let d := d.freeRegionFrames r.part r.framesHeld
    let inExt := fun (i : ExtentInfo) (a : U64) =>
      if hExtHome i.handle = poolHome a ∧ i.space = poolSpace a ∧ i.base ≤ poolOffset a then
        [(poolOffset a - i.base) / pageBytes] else []
    let d := match d.extentInfo r.extent with
      | some i => d.freePages r.extent (List.range r.tiles ++ (r.tile.flatMap fun (e : Nat × Tile) => inExt i e.2.storedAt))
      | none => d
    let nums := (tgetD d.tier.numbers 0 {}).give n
    { d with tier := { d.tier with region := tdel d.tier.region n, numbers := tput d.tier.numbers 0 nums } }

/-- REGION_DESTROY applied: completes after E12 of the boundary whose E8 frees the frames (Table 05.6). -/
def doRegionDestroy (d : Dev) (k : Nat) (e : DescEntry) : Dev :=
  let n := targetRegion e.d
  match d.region n with
  | none => d.refuse k stNoSession
  | some r =>
    if d.imageNames e.part e.d.target || d.historyOf n || r.bound ||
        d.tier.copy.any (fun c => c.src == n || c.dest == n) then d.refuse k stWrong
    else
      let d := d.dropRegion n
      let d := d.modDesc k fun e => { e with detail := BitVec.ofNat 32 r.tiles }
      d.wait k (.destroyed n)

/-- REGION_DESTROY (R134). -/
def execRegionDestroy (ring : Nat) (x : Desc) (s : State) : Res :=
  guarded (.regionDestroy ring x) (onDev s fun d =>
    d.runOp 0x21 ring x (fun d p x => chkRegion d p x fun _ => true) doRegionDestroy)

/-- REGION_ATTR applied. -/
def doRegionAttr (d : Dev) (k : Nat) (e : DescEntry) : Dev :=
  d.withRegion k e fun d n r =>
    match fieldAt e.d 16 1 with
    | 1 =>
      if (List.range r.tiles).all fun t => (r.at t).gen != 0 then
        (d.modRegion n fun r => { r with isSealed := true }).ok k 0 0
      else d.refuse k stWrong
    | 2 => if r.wback then (d.modRegion n fun r => { r with pin := true }).ok k 0 0 else d.refuse k stWrong
    | 3 => if r.wback then (d.modRegion n fun r => { r with pin := false }).ok k 0 0 else d.refuse k stWrong
    | _ => (d.modRegion n fun r => { r with peat := fieldAt e.d 17 1 }).ok k 0 0

/-- REGION_ATTR (R134). -/
def execRegionAttr (ring : Nat) (x : Desc) (s : State) : Res :=
  guarded (.regionAttr ring x) (onDev s fun d =>
    d.runOp 0x22 ring x
      (fun d p x => chkRegion d p x fun _ =>
        let op := fieldAt x 16 1
        decide (1 ≤ op ∧ op ≤ 4) && (if op = 4 then decide (fieldAt x 17 1 ≤ 2) else fieldAt x 17 1 == 0))
      doRegionAttr)

/-! ### TILE_WRITE -/

/-- Bytes of one record of TILE_WRITE as it is read: payload, then header. -/
def tileRecord : Nat := tileSize + 64

/-- One tile stored in T1: a home tile, or a WBACK copy set DIRTY (R131). -/
def Dev.storeHere (d : Dev) (n t : Nat) (r : Region) (h raw : List Byte) : Dev :=
  let d := d.touch n t
  if r.wback then
    let d := if (r.at t).cache.isSome then d else d.moveFrames r.part 0 2 1
    d.modTile n t fun x => { (x.written h raw) with cache := some (raw, true), tier := r.tierOf t,
                                                    storedAt := d.tileAddr r t, keyId := r.keyId }
  else
    let (a, d) := if (r.at t).gen = 0 then d.newFrame else ((r.at t).storedAt, d)
    let d := d.modTile n t fun x =>
      { (x.written h raw) with data := raw, form := 0, sectors := 128, crc := crc32c raw, tier := 1, storedAt := a,
                               keyId := r.keyId }
    if (r.at t).restarts > 0 ∨ d.reqCount (fun q => match q with
        | .tileMove _ m u _ _ => m == n && u == t
        | _ => false) > 0 then d.modTile n t fun x => { x with restarts := x.restarts + 1 } else d

/-- Stored bytes of a tile sent to its home below T1 (R127, R131). -/
def Dev.sendHome (d : Dev) (k n t : Nat) (r : Region) (x : Tile) (raw : List Byte) (addr : U64) (w : Purpose) : Dev :=
  match d.storedForm r x raw addr with
  | none => d.fail k stTenant ((tget d.rng.descs k).elim 0 fun e => e.result) (BitVec.ofNat 32 t)
  | some (st, _) =>
    let nan := r.peat = 2 && x.kind = 2 && (x.format = 6 || x.format = 7) && peatQNan x.format (raw.take (x.rows * x.cols))
    let d := if nan then d.raise (some r.part) 0x0413 addr 2 0x102 else d
    ((d.touch n t).countEncoded st.form).request r.part w addr st.bytes.length (some st.bytes)

/-- TILE_WRITE goes on with the next tiles, until one waits or is refused, or all are stored; the fuel is the number of
tiles left plus one. -/
def Dev.tileWriteRun : Nat → Dev → Nat → Dev
  | 0, d, _ => d
  | fuel + 1, d, k =>
    match tget d.rng.descs k with
    | none => d
    | some e =>
      let done := e.result.toNat
      let t := fieldAt e.d 24 4 + done
      let n := targetRegion e.d
      let stop := fun (d : Dev) (st : Byte) => d.fail k st e.result (BitVec.ofNat 32 t)
      match d.region n with
      | none => stop d stNoSession
      | some r =>
        let rec_ := e.data.take tileRecord
        let h := rec_.drop tileSize
        let raw := shapedPayload h (rec_.take tileSize)
        let x := (r.at t).withHeader h
        let next := fun (d : Dev) =>
          let d := d.modDesc k fun e => { e with result := e.result + 1, data := e.data.drop tileRecord }
          Dev.tileWriteRun fuel d k
        if done ≥ fieldAt e.d 28 4 then d.ok k e.result 0
        else if rec_.length < tileRecord then d.hostFail k (e.failAt.getD 0) e.result (BitVec.ofNat 32 t)
        else if r.isSealed then stop d stDenied
        else if r.weight && !tileFinite (leAt h 0 1) (leAt h 8 2) (leAt h 10 2) raw then
          d.failCode k stBad 0x0614 e.result (BitVec.ofNat 32 t)
        else if (r.at t).restarts ≥ 2 then d.wait k .tileHeld
        else if r.wback && (r.at t).cache.isNone && d.freeFrames r.part = 0 then (d.dropCopy r.part).wait k .tileHeld
        else if r.wback || r.tierOf t = 1 then next (d.storeHere n t r h raw)
        else (d.sendHome k n t r x raw (d.tileAddr r t) (.tileWrite k n t)).wait k (.requests 1)

/-- The home acknowledged or refused the tile that a TILE_WRITE waits for. -/
def Dev.tileWriteAck (d : Dev) (k n t : Nat) (st : Byte) : Dev :=
  match tget d.rng.descs k, d.region n with
  | some e, some r =>
    if st ≠ stOk then d.failTile k st n t e.result
    else
      let h := (e.data.take tileRecord).drop tileSize
      let raw := shapedPayload h (e.data.take tileSize)
      let a := d.tileAddr r t
      match d.storedForm r ((r.at t).withHeader h) raw a with
      | none => d.fail k stTenant e.result (BitVec.ofNat 32 t)
      | some (s, crc) =>
        let d := d.modTile n t fun x =>
          { (x.written h raw) with form := s.form, sectors := s.sectors, crc := crc, tier := r.tierOf t, storedAt := a,
                                   keyId := r.keyId, data := [] }
        let d := d.modDesc k fun e => { e with result := e.result + 1, data := e.data.drop tileRecord }
        d.tileWriteRun (fieldAt e.d 28 4 + 1) k
  | _, _ => d

/-- The records of a TILE_WRITE have arrived. A header that does not fit its tile is a request error, and no tile is written (R123; 03 R68). -/
def Dev.tileWriteArrived (d : Dev) (k : Nat) (e : DescEntry) (bytes : List Byte) : Dev :=
  let count := fieldAt e.d 28 4
  if ((chunks tileRecord (count + 1) bytes).filter fun r => decide (r.length = tileRecord)).any fun r => !headerFits (r.drop tileSize) then
    d.refuse k stBad
  else d.tileWriteRun (count + 1) k

/-- TILE_WRITE applied: the device reads COUNT payloads and headers from host memory. -/
def doTileWrite (d : Dev) (k : Nat) (e : DescEntry) : Dev :=
  d.withRegion k e fun d _ r =>
    if r.isSealed || r.bound then d.refuse k stDenied
    else
      let count := fieldAt e.d 28 4
      let d := d.emitFor e.part (.hostRead e.part (BitVec.ofNat 64 (fieldAt e.d 16 8)) (count * tileSize))
      let d := d.emitFor e.part (.hostRead e.part (BitVec.ofNat 64 (fieldAt e.d 32 8)) (count * 64))
      d.wait k .hostRead

/-- Check of TILE_WRITE and TILE_READ: range, COUNT 1–1,024, alignment (Table 05.5). -/
def chkTileIo (d : Dev) (p : Nat) (x : Desc) : Byte :=
  chkRegion d p x fun r =>
    rangeOk r (fieldAt x 24 4) (fieldAt x 28 4) && decide (1 ≤ fieldAt x 28 4 ∧ fieldAt x 28 4 ≤ 1024) &&
      fieldAt x 16 8 % 4096 == 0 && fieldAt x 32 8 % 64 == 0

/-- TILE_WRITE (R134). -/
def execTileWrite (ring : Nat) (x : Desc) (s : State) : Res :=
  guarded (.tileWrite ring x) (onDev s fun d => d.runOp 0x25 ring x chkTileIo doTileWrite)

/-- Writes held by a tile that was being moved, or for want of frames, go on (R130). -/
def Dev.wakeHeld (d : Dev) : Dev :=
  (tkeys d.rng.descs fun _ e => e.st == .waiting .tileHeld).foldl (fun d k => d.tileWriteRun 1025 k) d

/-! ### TILE_READ -/

/-- Payload and header of a tile written to host memory. -/
def Dev.tileToHost (d : Dev) (e : DescEntry) (n t i : Nat) (raw : List Byte) : Dev :=
  (d.emitFor e.part (.hostWrite e.part (BitVec.ofNat 64 (fieldAt e.d 16 8 + i * tileSize)) raw)).emitFor e.part
    (.hostWrite e.part (BitVec.ofNat 64 (fieldAt e.d 32 8 + i * 64)) (d.tileHeader n t))

/-- TILE_READ goes on with the next tiles. -/
def Dev.tileReadRun : Nat → Dev → Nat → Dev
  | 0, d, _ => d
  | fuel + 1, d, k =>
    match tget d.rng.descs k with
    | none => d
    | some e =>
      let done := e.result.toNat
      let t := fieldAt e.d 24 4 + done
      let n := targetRegion e.d
      match d.region n with
      | none => d.fail k stNoSession e.result (BitVec.ofNat 32 t)
      | some r =>
        let x := r.at t
        let next := fun (d : Dev) => Dev.tileReadRun fuel (d.setResult k (done + 1)) k
        if done ≥ fieldAt e.d 28 4 then d.ok k e.result 0
        else if x.gen = 0 then next (d.tileToHost e n t done (List.replicate tileSize 0))
        else if x.bad ≠ 0 then d.failTile k x.bad n t e.result
        else match r.rawHere t with
          | some raw =>
            if r.weight || crc64 raw == x.digest || x.cache.isSome then next (d.tileToHost e n t done raw)
            else (d.digestMismatch r.part x.storedAt).failTile k stPoison n t e.result
          | none => (d.request r.part (.tileRead k n t) x.storedAt (512 * x.sectors) none).wait k (.requests 1)

/-- Stored sectors of a tile arrived, or the read was refused: RAW payload, or the status that the tile keeps (R124, R133). -/
def Dev.tileArrived (d : Dev) (n t : Nat) (res : Except Byte (List Byte)) : Dev × Except Byte (List Byte) :=
  match d.region n with
  | none => (d, .error stNoSession)
  | some r =>
    let x := r.at t
    match res with
    | .error st => (if st = stPoison ∨ st = stExtent then d.modTile n t fun x => { x with bad := st } else d, .error st)
    | .ok bs =>
      match d.openStored r.part x.form x.format x.rows x.cols x.keyId.toNat x.crc x.digest x.storedAt bs with
      | .ok raw => (d.countDecoded x.form, .ok raw)
      | .error st =>
        if st = stPoison then
          ((d.digestMismatch r.part x.storedAt).modTile n t fun x => { x with bad := stPoison }, .error st)
        else (d, .error st)

/-- The home answered the read that a TILE_READ waits for; a WBACK tile leaves a T1 copy when a frame is free (R131). -/
def Dev.tileReadAck (d : Dev) (k n t : Nat) (res : Except Byte (List Byte)) : Dev :=
  match tget d.rng.descs k with
  | none => d
  | some e =>
    match d.tileArrived n t res with
    | (d, .error st) => d.failTile k st n t e.result
    | (d, .ok raw) =>
      let d := match d.region n with
        | some r => if r.wback && d.freeFrames r.part > 0 then
            (d.moveFrames r.part 0 2 1).modTile n t fun x => { x with cache := some (raw, false) } else d
        | none => d
      let d := d.tileToHost e n t e.result.toNat raw
      Dev.tileReadRun (fieldAt e.d 28 4 + 1) (d.setResult k (e.result.toNat + 1)) k

/-- TILE_READ (R134). -/
def execTileRead (ring : Nat) (x : Desc) (s : State) : Res :=
  guarded (.tileRead ring x) (onDev s fun d =>
    d.runOp 0x26 ring x chkTileIo fun d k e => d.withRegion k e fun d _ _ => d.tileReadRun (fieldAt e.d 28 4 + 1) k)

/-! ### REGION_FLUSH -/

/-- A request for a tile's home is on its way. -/
def Dev.tileInFlight (d : Dev) (n t : Nat) : Bool :=
  d.reqCount (fun q => match q with
    | .tileWrite _ m u => m == n && u == t
    | .flush _ m u => m == n && u == t
    | .tileMove _ m u _ _ => m == n && u == t
    | _ => false) > 0

/-- INVALIDATE: the covered clean T1 copies are discarded (R134). -/
def Dev.invalidate (d : Dev) (n first count : Nat) : Dev :=
  (List.range count).foldl (fun d i =>
    match d.region n with
    | none => d
    | some r =>
      if (r.at (first + i)).cache.any fun c => !c.2 then
        (d.modTile n (first + i) fun x => { x with cache := none }).freeRegionFrames r.part 1
      else d) d

/-- A flush goes on: each dirty covered copy is written back in index order; a MOVE region waits for its own writes. `data`
is not used: the position is kept in `detail`, the tiles written back in `result`. -/
def Dev.flushRun : Nat → Dev → Nat → Dev
  | 0, d, _ => d
  | fuel + 1, d, k =>
    match tget d.rng.descs k with
    | none => d
    | some e =>
      let n := targetRegion e.d
      let first := fieldAt e.d 16 4
      match d.region n with
      | none => d.fail k stNoSession e.result 0
      | some r =>
        let count := rangeCount r first (fieldAt e.d 20 4)
        let i := e.detail.toNat
        let t := first + i
        let x := r.at t
        let next := fun (d : Dev) => Dev.flushRun fuel (d.modDesc k fun e => { e with detail := e.detail + 1 }) k
        if i ≥ count then
          (if (fieldAt e.d 24 1).testBit 0 then d.invalidate n first count else d).ok k e.result 0
        else if d.tileInFlight n t then d.wait k (.requests 1)
        else match x.cache with
          | some (raw, true) =>
            if x.bad ≠ 0 then d.failTile k x.bad n t e.result
            else (d.sendHome k n t r x raw (d.tileAddr r t) (.flush k n t)).wait k (.requests 1)
          | _ => next d

/-- A writeback was acknowledged: DIRTY clears unless a later write reached the copy (R131). -/
def Dev.flushAck (d : Dev) (k n t : Nat) (sent : List Byte) (st : Byte) : Dev :=
  match d.region n with
  | none => d
  | some r =>
    if st ≠ stOk then
      match tget d.rng.descs k with
      | some e => (d.modTile n t fun x => { x with bad := st }).failTile k st n t e.result
      | none => d
    else
      let x := r.at t
      let a := d.tileAddr r t
      let d := match x.cache with
        | some (raw, _) =>
          match d.storedForm r x raw a with
          | some (s, crc) =>
            if s.bytes = sent then
              d.modTile n t fun x => { x with cache := some (raw, false), form := s.form, sectors := s.sectors, crc := crc }
            else d
          | none => d
        | none => d
      let d := d.modDesc k fun e => { e with result := e.result + 1 }
      d.flushRun (r.tiles + 1) k

/-- Flushes that wait for other writes of their region look again. -/
def Dev.wakeFlushes (d : Dev) (n : Nat) : Dev :=
  (tkeys d.rng.descs fun _ e => e.op == 0x23 && targetRegion e.d == n && e.st == .waiting (.requests 1)).foldl
    (fun d k => match d.region n with
      | some r => d.flushRun (r.tiles + 1) k
      | none => d) d

/-- REGION_FLUSH (R134): at once, or at E11 of the boundary that R77 names. -/
def execRegionFlush (ring : Nat) (x : Desc) (s : State) : Res :=
  guarded (.regionFlush ring x) (onDev s fun d =>
    d.runOp 0x23 ring x (fun d p x => chkRegion d p x fun r => rangeOk r (fieldAt x 16 4) (fieldAt x 20 4))
      fun d k e => d.withRegion k e fun d _ r =>
        if (fieldAt e.d 24 1).testBit 1 then d.wait k .boundaryFlush else d.flushRun (r.tiles + 1) k)

/-! ### REGION_MOVE -/

/-- Sector at which a run of `n` sectors goes in an extent, from a cursor: end to end, skipping pages that are taken
(R127). -/
def Dev.placeRun (d : Dev) (e : ExtentInfo) (cursor n : Nat) : Option Nat :=
  let free := d.freeIn e
  let ours := cursor % 128 ≠ 0
  if ours ∧ (cursor % 128 + n ≤ 128 ∨ free.contains (cursor / 128 + 1)) then some cursor
  else (free.find? fun i => decide (ceilDiv cursor 128 ≤ i)).map fun i => 128 * i

/-- Pages that a run touches. -/
def runPages (start n : Nat) : List Nat :=
  if (start + n - 1) / 128 = start / 128 then [start / 128] else [start / 128, (start + n - 1) / 128]

/-- Pages of an old home let go when no other run of the region lives in them (R127). -/
def Dev.leaveHome (d : Dev) (n t : Nat) : Dev :=
  match d.region n with
  | none => d
  | some r =>
    if r.tierOf t = 1 then d.freeRegionFrames r.part 1
    else
      let a := d.tileAddr r t
      match d.extentAt a with
      | none => d
      | some e =>
        let pg := fun (b : U64) => (poolOffset b - e.base) / pageBytes
        let used := r.tile.any fun y => y.1 != t && y.2.tier != 1 && (d.extentAt y.2.storedAt).any (fun f => f.handle == e.handle) &&
          pg y.2.storedAt == pg a
        if used then d else d.freePages e.handle [pg a]

/-- REGION_MOVE goes on with the next tiles. Tiles moved stand in `result`, the cursor in sectors in `detail`, the RAW
payload in hand in `data`. -/
def Dev.moveRun : Nat → Dev → Nat → Dev
  | 0, d, _ => d
  | fuel + 1, d, k =>
    match tget d.rng.descs k with
    | none => d
    | some e =>
      let n := targetRegion e.d
      let first := fieldAt e.d 16 4
      let toTier := fieldAt e.d 24 1
      let h := BitVec.ofNat 64 (fieldAt e.d 32 8)
      match d.region n with
      | none => d.fail k stNoSession e.result 0
      | some r =>
        let count := rangeCount r first (fieldAt e.d 20 4)
        let done := e.result.toNat
        let t := first + done
        let x := r.at t
        let next := fun (d : Dev) =>
          let d := d.modDesc k fun e => { e with result := e.result + 1, data := [] }
          Dev.moveRun fuel d k
        if done ≥ count then
          let d := if count = r.tiles then d.modRegion n fun r => { r with homeTier := toTier, extent := h } else d
          d.ok k e.result 0
        else if toTier = 1 ∧ r.tierOf t = 1 then next d
        else
          match (if x.gen = 0 ∨ x.bad ≠ 0 then some (padTo tileSize x.data) else if e.data.isEmpty then r.rawHere t else some e.data) with
          | none => (d.request r.part (.tileMove k n t toTier h) x.storedAt (512 * x.sectors) none).wait k (.requests 1)
          | some raw =>
            if toTier = 1 then
              if d.freeFrames r.part = 0 then d.fail k stLimit e.result (BitVec.ofNat 32 t)
              else
                let d := (d.touch n t).leaveHome n t
                let d := d.moveFrames r.part 0 2 1
                let (a, d) := d.newFrame
                next (d.modTile n t fun x =>
                  { x with tier := 1, data := raw, form := 0, sectors := 128, crc := crc32c raw, storedAt := a })
            else
              match d.extentInfo h with
              | none => d.fail k stExtent e.result (BitVec.ofNat 32 t)
              | some i =>
                let st := storeTile r.peat x.kind x.format x.rows x.cols raw
                match d.placeRun i e.detail.toNat st.sectors with
                | none => d.fail k stLimit e.result (BitVec.ofNat 32 t)
                | some start =>
                  let a := poolAddr (hExtHome h) i.space (i.base + 512 * start)
                  let d := d.takePages h ((runPages start st.sectors).filter fun g => !(d.takenPages h).contains g)
                  let d := d.modDesc k fun e => { e with detail := BitVec.ofNat 32 (start + st.sectors), data := raw }
                  if x.gen = 0 ∨ x.bad ≠ 0 then
                    next (((d.leaveHome n t).modTile n t fun x => { x with tier := toTier, storedAt := a, data := [] }))
                  else (d.sendHome k n t r x raw a (.tileMove k n t toTier a)).wait k (.requests 1)

/-- The destination acknowledged a moved tile: the home switches in one update, unless a write reached the tile meanwhile,
which restarts the move (R130). -/
def Dev.moveAck (d : Dev) (k n t toTier : Nat) (addr : U64) (st : Byte) : Dev :=
  match tget d.rng.descs k, d.region n with
  | some e, some r =>
    if st ≠ stOk then d.failTile k st n t e.result
    else
      let x := r.at t
      if r.tierOf t = 1 ∧ padTo tileSize x.data ≠ e.data then
        (d.modDesc k fun e => { e with data := [] }).moveRun (r.tiles + 1) k
      else match d.storedForm r x e.data addr with
        | none => d.fail k stTenant e.result (BitVec.ofNat 32 t)
        | some (s, crc) =>
          let d := d.leaveHome n t
          let d := d.modTile n t fun x =>
            { x with tier := toTier, form := s.form, sectors := s.sectors, crc := crc, storedAt := addr, data := [],
                     restarts := 0 }
          let d := d.modDesc k fun e => { e with result := e.result + 1, data := [] }
          (d.moveRun (r.tiles + 1) k).wakeHeld
  | _, _ => d

/-- The old home answered the read of a tile that is being moved. -/
def Dev.moveRead (d : Dev) (k n t : Nat) (res : Except Byte (List Byte)) : Dev :=
  match tget d.rng.descs k with
  | none => d
  | some e =>
    match d.tileArrived n t res with
    | (d, .error st) =>
      if st = stPoison then d.moveRun (fieldAt e.d 20 4 + 1) k else d.failTile k st n t e.result
    | (d, .ok raw) =>
      let d := d.modDesc k fun e => { e with data := raw }
      match d.region n with
      | some r => d.moveRun (r.tiles + 1) k
      | none => d

/-- Checks of REGION_MOVE (Tables 05.5, 05.6). -/
def chkRegionMove (d : Dev) (p : Nat) (x : Desc) : Byte :=
  let c := chkRegion d p x fun r =>
    rangeOk r (fieldAt x 16 4) (fieldAt x 20 4) && decide (1 ≤ fieldAt x 24 1 ∧ fieldAt x 24 1 ≤ 3)
  let h := BitVec.ofNat 64 (fieldAt x 32 8)
  if c ≠ stOk then c
  else if fieldAt x 24 1 = 1 then stOk
  else if d.extentStatus p h ≠ stOk then d.extentStatus p h
  else match d.extentInfo h with
    | some e => if e.cls + 2 ≠ fieldAt x 24 1 then stBad else stOk
    | none => stNoSession

/-- REGION_MOVE (R130). -/
def execRegionMove (ring : Nat) (x : Desc) (s : State) : Res :=
  guarded (.regionMove ring x) (onDev s fun d =>
    d.runOp 0x24 ring x chkRegionMove fun d k e => d.withRegion k e fun d _ r =>
      if r.wback || r.bound then d.refuse k stWrong else d.moveRun (r.tiles + 1) k)

/-! ### REPLICA_SET, REPLICA_REBUILD -/

/-- The replica handles of REPLICA_SET. -/
def replicaList (x : Desc) : List U64 :=
  (List.range (fieldAt x 48 1)).map fun i => BitVec.ofNat 64 (fieldAt x (16 + 8 * i) 8)

/-- First tile at which a replica differs from a sealed region; none when it is a replica. A region of another device is
compared there: the outcome is a free value (log 22). -/
def Dev.replicaDiffers (d : Dev) (r : Region) (h : U64) : Option Nat :=
  if hDevice h ≠ d.id then (if (Config.freeValue d.free).getLsbD 0 then some 0 else none)
  else match d.region (hRegion h) with
    | none => some 0
    | some q =>
      if !q.isSealed || q.tiles != r.tiles then some 0
      else (List.range r.tiles).find? fun t =>
        (q.at t).digest != (r.at t).digest || (q.at t).rows != (r.at t).rows || (q.at t).cols != (r.at t).cols ||
          (q.at t).format != (r.at t).format

/-- REPLICA_SET applied. -/
def doReplicaSet (d : Dev) (k : Nat) (e : DescEntry) : Dev :=
  d.withRegion k e fun d n r =>
    let hs := replicaList e.d
    let bad := hs.findSome? fun h => d.replicaDiffers r h
    let d := if hs.any (fun h => hDevice h != d.id) then d.draw.2 else d
    match bad with
    | some t => d.failOpen k stBad (some (BitVec.ofNat 32 t))
    | none => (d.modRegion n fun r => { r with replicas := hs }).ok k (BitVec.ofNat 64 hs.length) 0

/-- Checks of REPLICA_SET: COUNT 0–4, unused entries 0, local handles of the partition. -/
def chkReplicaSet (d : Dev) (p : Nat) (x : Desc) : Byte :=
  let c := chkRegion d p x fun _ => decide (fieldAt x 48 1 ≤ 4) &&
    (List.range 4).all fun i => decide (i < fieldAt x 48 1) || fieldAt x (16 + 8 * i) 8 == 0
  if c ≠ stOk then c
  else match (replicaList x).find? fun h => hDevice h == d.id && d.regionStatus p h != stOk with
    | some h => d.regionStatus p h
    | none => stOk

/-- REPLICA_SET (R136). -/
def execReplicaSet (ring : Nat) (x : Desc) (s : State) : Res :=
  guarded (.replicaSet ring x) (onDev s fun d => d.runOp 0x27 ring x chkReplicaSet doReplicaSet)

/-- Every degraded tile of the partition is rebuilt: the held step may run again from its start (R138). -/
def Dev.rebuilt (d : Dev) (p : Nat) : Dev :=
  if !(d.window p).degraded.isEmpty then d
  else
    let d := d.modWindow p fun w => { w with failed := false }
    if (d.stepP p).held then (d.modStep p fun s => { s with held := false, failed := false }).setPhase p 0 else d

/-- One tile rebuilt: it has its content again, and its layer may no longer be degraded. -/
def Dev.rebuildTile (d : Dev) (n t : Nat) (raw : List Byte) : Dev :=
  match d.region n with
  | none => d
  | some r =>
    let d := d.modTile n t fun x => { x with bad := 0, data := if r.tierOf t = 1 then raw else x.data }
    (d.modWindow r.part fun w => { w with degraded := w.degraded.filter fun y => y != (n, t) }).showDegraded r.part

/-- REPLICA_REBUILD goes on with the next tiles: from the host's payloads in `data`, or from the source region. -/
def Dev.rebuildRun : Nat → Dev → Nat → Dev
  | 0, d, _ => d
  | fuel + 1, d, k =>
    match tget d.rng.descs k with
    | none => d
    | some e =>
      let n := targetRegion e.d
      let done := e.result.toNat
      let t := fieldAt e.d 24 4 + done
      let fromHost := fieldAt e.d 32 1 = 0
      let src := BitVec.ofNat 64 (fieldAt e.d 16 8)
      match d.region n with
      | none => d.fail k stNoSession e.result (BitVec.ofNat 32 t)
      | some r =>
        let x := r.at t
        if done ≥ fieldAt e.d 28 4 then (d.rebuilt e.part).ok k e.result 0
        else
          let raw : Option (List Byte) :=
            if !e.data.isEmpty then some (e.data.take tileSize)
            else if fromHost then some []
            else match d.region (hRegion src) with
              | some q => if (q.at t).bad ≠ 0 then some [] else q.rawHere t
              | none => some []
          match raw with
          | none =>
            match d.region (hRegion src) with
            | some q => (d.request r.part (.replica k n t 1) (q.at t).storedAt (512 * (q.at t).sectors) none).wait k (.requests 1)
            | none => d.fail k stNoSession e.result (BitVec.ofNat 32 t)
          | some raw =>
            if raw.length < tileSize then
              (if fromHost then d.hostFail k (e.failAt.getD 0) e.result (BitVec.ofNat 32 t)
               else d.failTile k stPoison (hRegion src) t e.result)
            else if crc64 raw ≠ x.digest then d.fail k stBad e.result (BitVec.ofNat 32 t)
            else if r.tierOf t = 1 then
              let d := (d.rebuildTile n t raw).modDesc k fun e =>
                { e with result := e.result + 1, data := if fromHost then e.data.drop tileSize else [] }
              Dev.rebuildRun fuel d k
            else
              let d := if e.data.isEmpty then d.modDesc k fun e => { e with data := raw } else d
              (d.sendHome k n t r x raw (d.tileAddr r t) (.replica k n t 0)).wait k (.requests 1)

/-- The home acknowledged a rebuilt tile. -/
def Dev.rebuildAck (d : Dev) (k n t : Nat) (st : Byte) : Dev :=
  match tget d.rng.descs k with
  | none => d
  | some e =>
    if st ≠ stOk then d.failTile k st n t e.result
    else
      let fromHost := fieldAt e.d 32 1 = 0
      let d := (d.rebuildTile n t []).modDesc k fun e =>
        { e with result := e.result + 1, data := if fromHost then e.data.drop tileSize else [] }
      d.rebuildRun (fieldAt e.d 28 4 + 1) k

/-- The source region's home answered the read of a tile for a rebuild. -/
def Dev.rebuildRead (d : Dev) (k n t : Nat) (res : Except Byte (List Byte)) : Dev :=
  match tget d.rng.descs k with
  | none => d
  | some e =>
    match d.tileArrived (hRegion (BitVec.ofNat 64 (fieldAt e.d 16 8))) t res with
    | (d, .error st) => d.failTile k st (hRegion (BitVec.ofNat 64 (fieldAt e.d 16 8))) t e.result
    | (d, .ok raw) => (d.modDesc k fun e => { e with data := raw }).rebuildRun (fieldAt e.d 28 4 + n + 1) k

/-- Checks of REPLICA_REBUILD. -/
def chkReplicaRebuild (d : Dev) (p : Nat) (x : Desc) : Byte :=
  let src := BitVec.ofNat 64 (fieldAt x 16 8)
  let c := chkRegion d p x fun r => rangeOk r (fieldAt x 24 4) (fieldAt x 28 4) &&
    decide (1 ≤ fieldAt x 28 4 ∧ fieldAt x 28 4 ≤ 1024) && decide (fieldAt x 32 1 ≤ 1)
  if c ≠ stOk then c else if fieldAt x 32 1 = 1 then d.regionStatus p src else stOk

/-- REPLICA_REBUILD (R138). -/
def execReplicaRebuild (ring : Nat) (x : Desc) (s : State) : Res :=
  guarded (.replicaRebuild ring x) (onDev s fun d =>
    d.runOp 0x28 ring x chkReplicaRebuild fun d k e => d.withRegion k e fun d _ _ =>
      if fieldAt e.d 32 1 = 0 then
        (d.emitFor e.part (.hostRead e.part (BitVec.ofNat 64 (fieldAt e.d 16 8)) (fieldAt e.d 28 4 * tileSize))).wait k .hostRead
      else d.rebuildRun (fieldAt e.d 28 4 + 1) k)

/-! ### BG_COPY (R148) -/

/-- Copies that run on the device; at 8 no more start (R150). -/
def Dev.copyLimit (d : Dev) : Bool := decide (d.tier.copy.length + (d.ckp.now.filter fun e => e.2.phase == 2).length ≥ 8)

/-- COPIES_ACTIVE shows the copies that run. -/
def Dev.showCopies (d : Dev) : Dev := d.setF TIER_CBW_COPIES_ACTIVE (d.tier.copy.length + (d.ckp.now.filter fun e => e.2.phase == 2).length)

/-- A copy of a list changed. -/
def Dev.modCopy (d : Dev) (desc : Nat) (f : Copy → Copy) : Dev :=
  { d with tier := { d.tier with copy := d.tier.copy.map fun c => if c.desc == desc then f c else c } }

/-- One copied tile written at the destination: at once in T1, else with a request. -/
def Dev.copyPut (d : Dev) (c : Copy) (t : Nat) (raw : List Byte) : Dev :=
  match d.region c.src, d.region c.dest with
  | some r, some q =>
    let x := r.at t
    let h := record [(1, x.format), (1, 0), (1, x.kind), (1, 0), (1, x.layout), (1, 0), (2, x.validRows), (2, x.rows), (2, x.cols),
                     (4, x.index.toNat), (28, 0), (4, x.firstPos)]
    if q.tierOf t = 1 then
      (d.storeHere c.dest t q h raw).modCopy c.desc fun c => { c with flying := c.flying.filter fun u => u != t }
    else
      match d.storedForm q x raw (d.tileAddr q t) with
      | none => d.modCopy c.desc fun c => { c with flying := c.flying.filter fun u => u != t }
      | some (st, crc) =>
        let a := d.tileAddr q t
        let d := d.modTile c.dest t fun y =>
          { (y.written h raw) with form := st.form, sectors := st.sectors, crc := crc, tier := q.tierOf t, storedAt := a,
                                   keyId := q.keyId, data := [] }
        (d.countEncoded st.form).request q.part (.copyTile c.desc c.dest t) a st.bytes.length (some st.bytes)
  | _, _ => d

/-- A copy whose tiles are all copied and acknowledged completes (B6). -/
def Dev.copyEnd (d : Dev) (desc : Nat) : Dev :=
  match d.tier.copy.find? fun c => c.desc == desc with
  | none => d
  | some c =>
    if c.started && c.left.isEmpty && c.flying.isEmpty then
      let d := { d with tier := { d.tier with copy := d.tier.copy.filter fun x => x.desc != desc } }
      d.showCopies.ok desc c.step (BitVec.ofNat 32 c.copies)
    else d

/-- A copy starts at E10 of its boundary: covered tiles are protected, those in T1 are copied, reads are sent for others. -/
def Dev.copyStart (d : Dev) (desc : Nat) (step : U64) : Dev :=
  match d.tier.copy.find? fun c => c.desc == desc with
  | none => d
  | some c =>
    let ts := c.left
    let d := d.modCopy desc fun c => { c with started := true, step := step, left := [], flying := ts }
    let d := ts.foldl (fun d t =>
      match d.region c.src with
      | none => d
      | some r =>
        let x := r.at t
        if x.gen = 0 then d.modCopy desc fun c => { c with flying := c.flying.filter fun u => u != t }
        else match r.rawHere t with
          | some raw => d.copyPut c t raw
          | none =>
            let d := d.modTile c.src t fun x => { x with protect := true }
            d.request r.part (.copyTile desc c.src t) x.storedAt (512 * x.sectors) none) d
    d.copyEnd desc

/-- An answer for a copied tile: the read of the source, or the write of the destination. -/
def Dev.copyAck (d : Dev) (desc n t : Nat) (isWrite : Bool) (res : Except Byte (List Byte)) : Dev :=
  match d.tier.copy.find? fun c => c.desc == desc with
  | none => d
  | some c =>
    let done := fun (d : Dev) => (d.modCopy desc fun c => { c with flying := c.flying.filter fun u => u != t }).copyEnd desc
    if isWrite then done d
    else
      let d := d.modTile n t fun x => { x with protect := false }
      match d.tileArrived n t res with
      | (d, .error _) => done (d.modTile c.dest t fun x => { x with bad := stPoison })
      | (d, .ok raw) => (d.copyPut c t raw).copyEnd desc

/-- BG_COPY applied: it waits for the boundary that R77 names. -/
def doBgCopy (d : Dev) (k : Nat) (e : DescEntry) : Dev :=
  d.withRegion k e fun d n r =>
    let dest := BitVec.ofNat 64 (fieldAt e.d 16 8)
    match d.region (hRegion dest) with
    | none => d.refuse k stNoSession
    | some q =>
      if q.isSealed || q.tiles != r.tiles || q.bound then d.refuse k stWrong
      else if d.copyLimit then d.refuse k stLimit
      else
        let first := fieldAt e.d 24 4
        let ts := (List.range (rangeCount r first (fieldAt e.d 28 4))).map fun i => first + i
        let c : Copy := { desc := k, src := n, dest := hRegion dest, left := ts }
        let d := { d with tier := { d.tier with copy := d.tier.copy ++ [c] } }
        d.showCopies.wait k (.copy first ts.length)

/-- BG_COPY (R148). -/
def execBgCopy (ring : Nat) (x : Desc) (s : State) : Res :=
  guarded (.bgCopy ring x) (onDev s fun d =>
    d.runOp 0x29 ring x
      (fun d p x =>
        let c := chkRegion d p x fun r => rangeOk r (fieldAt x 24 4) (fieldAt x 28 4)
        if c ≠ stOk then c else d.regionStatus p (BitVec.ofNat 64 (fieldAt x 16 8)))
      doBgCopy)

end Sys2Proof.Machine
end

