-- ==== Sys2Proof/Machine/Slots.lean ====
section
/-! DEFINITION. Session slots, the jobs that serve them, page tables with their reference counts, and token histories
(04_sessions_tussock_yoyo.md R84–R88, R94, R460; 06_kv_cache_attention.md R152–R167; 08_cores_placement_models.md R215, R216;
14_checkpoint_shrink.md R367, R368). -/

namespace Sys2Proof.Machine

/-! ### Slots -/

/-- A session slot. -/
def Dev.ses (d : Dev) (loc : Nat) : Session := tgetD d.tus.slot loc { gen := d.tus.base }

/-- The device with a session slot set. -/
def Dev.setSes (d : Dev) (loc : Nat) (s : Session) : Dev := { d with tus := { d.tus with slot := tput d.tus.slot loc s } }

/-- A session slot changed. -/
def Dev.modSes (d : Dev) (loc : Nat) (f : Session → Session) : Dev := d.setSes loc (f (d.ses loc))

/-- A session enters a state now (R87: STATE_TIME). -/
def Dev.enter (d : Dev) (loc : Nat) (st : SState) : Dev := d.modSes loc fun s => { s with st := st, stateTime := d.clock.now }

/-- Partition of a local number. -/
def Dev.sesPart (d : Dev) (loc : Nat) : Nat := (d.locOwner loc).getD 0

/-- Current handle of a slot; 0 when FREE (R87). -/
def Dev.sesHandle (d : Dev) (loc : Nat) : U64 :=
  if (d.ses loc).st = .free then 0 else mkHandle d.id (d.sesPart loc) (d.ses loc).gen loc

/-- Status of a session handle for a partition (R50, R86). -/
def Dev.sessionStatus (d : Dev) (p : Nat) (h : U64) : Byte :=
  if hDevice h ≠ d.id then stNoSession
  else if hPart h ≠ p ∨ d.locOwner (hLocal h) ≠ some p then stDenied
  else if (d.ses (hLocal h)).st = .free ∨ (d.ses (hLocal h)).gen ≠ hGen h then stNoSession
  else stOk

/-- Sessions of a partition that satisfy a condition, by rising local number. -/
def Dev.sesWhere (d : Dev) (p : Nat) (c : Session → Bool) : List Nat :=
  (d.tus.slot.filter fun e => d.locOwner e.1 == some p && c e.2).map fun e => e.1

/-- Inserts a session into a list ordered by STATE_TIME, then by local number (R102). -/
def Dev.insertByTime (d : Dev) (x : Nat) : List Nat → List Nat
  | [] => [x]
  | y :: r =>
    let tx := (d.ses x).stateTime.toNat
    let ty := (d.ses y).stateTime.toNat
    if tx < ty ∨ (tx = ty ∧ x < y) then x :: y :: r else y :: Dev.insertByTime d x r

/-- Sessions ordered by STATE_TIME. -/
def Dev.byTime (d : Dev) (xs : List Nat) : List Nat := xs.foldl (fun l x => d.insertByTime x l) []

/-- One look-up of a descriptor in the Tussock cache, counted as a hit or a miss (R87: the policy is not specified, log 10). -/
def Dev.tussockAccess (d : Dev) : Dev :=
  let f := if Config.tussockHit d.free then TUS_CACHE_STATS_HITS else TUS_CACHE_STATS_MISSES
  ({ d with free := d.free + 1 }).incF f

/-- Number of a state (Table 04.3). -/
def SState.code : SState → Nat
  | .free => 0
  | .idle => 1
  | .ready => 2
  | .resident => 3
  | .waiting => 4
  | .parking => 5
  | .parked => 6
  | .reviving => 7
  | .closing => 8
  | .faulted => 0xF

/-- UTF8_CARRY (R87, 09 R242). -/
def carryWord (c : List Byte) : Nat := leNat (c.take 3) + c.length * 2 ^ 24

/-- The Tussock descriptor of a slot (Table 04.2). -/
def Dev.tussock (d : Dev) (loc : Nat) : List Byte :=
  let s := d.ses loc
  if s.st = .free then List.replicate 64 0
  else
    let fl := (if s.pin then 1 else 0) + (if s.genArmed then 2 else 0) + (if s.waitArmed then 4 else 0) +
      (if s.wake then 8 else 0) + (if s.linger then 16 else 0)
    record [(8, (d.sesHandle loc).toNat), (1, s.st.code + 16 * s.depth), (1, fl), (1, s.cls), (1, s.prio), (4, s.positions),
            (8, s.ptRoot.toNat), (4, s.ptVersion), (2, s.dropped), (2, s.keyId.toNat), (8, s.histAddr.toNat),
            (8, s.stateTime.toNat), (4, s.staged), (4, s.memIndex.toNat), (2, s.listSet), (2, s.profile),
            (4, carryWord s.carry)]

/-! ### Jobs (08 R215, R216) -/

/-- A job slot of a partition. -/
def Dev.job (d : Dev) (p slot : Nat) : Job := tgetD d.plc.job (4 * p + slot) {}

/-- The device with a job slot set. -/
def Dev.setJob (d : Dev) (p slot : Nat) (j : Job) : Dev := { d with plc := { d.plc with job := tput d.plc.job (4 * p + slot) j } }

/-- A job slot changed. -/
def Dev.modJob (d : Dev) (p slot : Nat) (f : Job → Job) : Dev := d.setJob p slot (f (d.job p slot))

/-- Slot of the active job. -/
def Dev.activeSlot (d : Dev) (p : Nat) : Option Nat := (List.range 4).find? fun i => (d.job p i).st == .active

/-- The active job. -/
def Dev.activeJob (d : Dev) (p : Nat) : Option Job := (d.activeSlot p).map fun i => d.job p i

/-- Slot of the loaded job that serves a session class. -/
def Dev.serving (d : Dev) (p cls : Nat) : Option Nat :=
  (List.range 4).find? fun i => (d.job p i).st != .empty && (d.job p i).hdr.classes.getLsbD cls

/-- A session belongs to the active job. -/
def Dev.isActive (d : Dev) (p loc : Nat) : Bool :=
  match d.serving p (d.ses loc).cls with
  | some i => d.activeSlot p == some i
  | none => false

/-- Header of the image that serves a session. -/
def Dev.sesHdr (d : Dev) (p loc : Nat) : ImageHdr :=
  match d.serving p (d.ses loc).cls with
  | some i => (d.job p i).hdr
  | none => {}

/-- Position of this device in an image (08 R210). -/
def Dev.position (d : Dev) (c : Sections) : Option Nat := c.devices.findIdx? fun x => x == d.id

/-- (layer, group) pairs that this device computes for a job (R158). -/
def Dev.pairs (d : Dev) (j : Job) : List (Nat × Nat) :=
  match j.sect with
  | none => []
  | some c =>
    let mine := c.cores.filter fun x => d.position c == some x.pos
    (mine.flatMap fun x => x.layers.flatMap fun l => x.groups.map fun g => (l, g)).eraseDups

/-- This device's position is the job's sync root (02 R36). -/
def Dev.isRoot (d : Dev) (p : Nat) : Bool :=
  match d.activeJob p with
  | none => true
  | some j =>
    match j.sect with
    | none => true
    | some c => d.position c == some j.hdr.syncRoot

/-- Devices of the active job, by position; this device alone when there is none. -/
def Dev.jobDevices (d : Dev) (p : Nat) : List Nat :=
  match (d.activeJob p).bind fun j => j.sect with
  | some c => c.devices
  | none => [d.id]

/-! ### Geometry (R152, R155) -/

/-- Head groups NG. -/
def ImageHdr.ng (h : ImageHdr) : Nat := if h.group = 0 then 0 else h.heads / h.group

/-- Index of page (r, l, g). -/
def ImageHdr.page (h : ImageHdr) (r l g : Nat) : Nat := (r * h.layers + l) * h.ng + g

/-- Range of a page index. -/
def ImageHdr.rangeOf (h : ImageHdr) (i : Nat) : Nat := i / (h.layers * h.ng)

/-- Layer of a page index. -/
def ImageHdr.layerOf (h : ImageHdr) (i : Nat) : Nat := i / h.ng % h.layers

/-- Head group of a page index. -/
def ImageHdr.groupOf (h : ImageHdr) (i : Nat) : Nat := i % h.ng

/-- Columns of a page: 2 × G × D. -/
def ImageHdr.cols (h : ImageHdr) : Nat := 2 * h.group * (32 * h.dim32)

/-- Ranges that a number of positions covers. -/
def rangesOf (n : Nat) : Nat := ceilDiv n 32

/-! ### Reference counts (R163, R164) -/

/-- Count of a frame. -/
def Dev.refs (d : Dev) (frame : Nat) : Nat := tgetD d.kva.count frame 0

/-- A PTE that names a frame is added. -/
def Dev.refUp (d : Dev) (p frame : Nat) : Dev :=
  ({ d with kva := { d.kva with count := tput d.kva.count frame (d.refs frame + 1) } }).move 1 p outside 0 1 (some p)

/-- Device address of a frame. -/
def Dev.frameAddr (d : Dev) (frame : Nat) : U64 := d.devAddr (Config.frameOffset frame).toNat

/-- A PTE that names a frame is removed; a count already 0 is an underflow, which fails the next E7 (R177). -/
def Dev.refDown (d : Dev) (p frame : Nat) : Dev :=
  match d.refs frame with
  | 0 =>
    ((d.flag KVA_STATUS_REF_UNDERFLOW KVA_STATUS_UNDERFLOW_COUNT).raise (some p) 0x0510 (d.frameAddr frame) 2 0x101).ledgerEvent
      1 p p
  | n + 1 =>
    let zeroed := if n = 0 then tput d.kva.zeroed frame p else d.kva.zeroed
    ({ d with kva := { d.kva with count := tput d.kva.count frame n, zeroed := zeroed } }).move 1 p 0 outside 1 (some p)

/-- T1 frames that a PTE names: a page's frame, or the frames that its run touches. -/
def Page.frames (x : Page) : List Nat :=
  if x.dropped then []
  else if x.tier = 0 then [x.frame]
  else if x.tier = 1 then (if x.off + x.sectors ≤ 128 then [x.frame] else [x.frame, x.frame + 1])
  else []

/-- The page lies in a T1 frame. -/
def Page.here (x : Page) : Bool := x.tier == 0 && !x.dropped

/-- A checkpoint holds a stored run (14 R367). -/
def Dev.runHeld (d : Dev) (a : U64) : Bool :=
  (d.ckp.now.any fun e => (tget e.2.held a.toNat).isSome) || d.ckp.kept.any fun e => (tget e.held a.toNat).isSome

/-- Pool pages that a run of sectors touches, by the address of their first byte. -/
def pagesOfRun (a : U64) (sectors : Nat) : List U64 :=
  let f := a.toNat / pageBytes
  (List.range ((a.toNat + 512 * sectors - 1) / pageBytes + 1 - f)).map fun i => BitVec.ofNat 64 ((f + i) * pageBytes)

/-- A held run passes from its session to a checkpoint's hold: the ledger counts its pages, where they are homed here, as HELD. -/
def Dev.toHold (d : Dev) (a : U64) (sectors : Nat) : Dev :=
  let new := (pagesOfRun a sectors).filter fun x => poolHome x == d.id && !d.ckp.inHold.contains x
  let d := { d with ckp := { d.ckp with inHold := d.ckp.inHold ++ new } }
  new.foldl (fun d x => d.move 4 (poolSpace x) 1 4 1 none) d

/-- A stored run let go: at the next E8 its pool pages are freed, unless a checkpoint holds it. -/
def Dev.freeRun (d : Dev) (p : Nat) (a : U64) (sectors : Nat) : Dev :=
  if d.runHeld a then d.toHold a sectors else { d with kva := { d.kva with runs := d.kva.runs ++ [(p, a, sectors)] } }

/-- A PTE is removed: its frames lose a reference, its stored run is freed. -/
def Dev.release (d : Dev) (p : Nat) (x : Page) : Dev :=
  let d := x.frames.foldl (fun d f => d.refDown p f) d
  if x.tier ≥ 2 && !x.dropped then d.freeRun p x.storedAt x.sectors else d

/-- A new T1 frame for a KV page, moved from a place of the ledger (0 FREE, 4 RESERVED); its number. -/
def Dev.newKvFrame (d : Dev) (p place : Nat) : Nat × Dev :=
  let n := d.tier.nextFrame
  let d := { d with tier := { d.tier with nextFrame := n + 1 } }
  (n, d.moveFrames p place 1 1)

/-- Pages of a session released and removed from its table: those that satisfy a condition. The second component counts those that
were stored: an entry marked dropped names no page to release (DEDUCED, log 57). -/
def Dev.releasePages (d : Dev) (loc : Nat) (c : Nat → Page → Bool) : Dev × Nat :=
  let s := d.ses loc
  let gone := s.pages.filter fun e => c e.1 e.2
  let d := gone.foldl (fun d e => d.release (d.sesPart loc) e.2) d
  (d.modSes loc fun s => { s with pages := s.pages.filter fun e => !c e.1 e.2 }, (gone.filter fun e => !e.2.dropped).length)

/-! ### Versions (R155, R159) -/

/-- Blocks of a page table (Table 06.2). -/
def tableBlocks (pages : Tbl Page) : List Nat := (pages.map fun e => e.1 / 64).eraseDups

/-- Directory frames of a page table. -/
def tableDirs (pages : Tbl Page) : Nat := (((tableBlocks pages).map fun k => k / 4096).eraseDups).length

/-- Frames that hold the blocks and directory frames of a page table. -/
def tableFrames (pages : Tbl Page) : Nat := ceilDiv (tableBlocks pages).length 16 + tableDirs pages

/-- META frames of a session's table follow its size: blocks that lie below T1 take none (R157); new ones come from FREE, as far as
FREE goes (log 56), spare ones are freed at the next E8. -/
def Dev.retable (d : Dev) (loc : Nat) : Dev :=
  let s := d.ses loc
  let p := d.sesPart loc
  let want := if s.blocks.isEmpty then tableFrames s.pages else tableDirs s.pages
  let new := min (want - s.tables) (d.freeFrames p)
  let d := d.modSes loc fun s => { s with tables := if s.tables ≤ want then s.tables + new else want }
  if want ≥ s.tables then d.moveFrames p 0 3 new
  else
    let g := fun (f : Frames) => { f with freeMeta := f.freeMeta + (s.tables - want) }
    { d with tier := { d.tier with frames := tmod d.tier.frames p {} g } }

/-- A new version is published: PT_VERSION rises by one, PT_ROOT names its root record (R159). -/
def Dev.publish (d : Dev) (loc : Nat) : Dev :=
  let v := (d.ses loc).ptVersion + 1
  let root := d.devAddr (Config.tableOffset loc v).toNat
  (d.modSes loc fun s => { s with ptVersion := v, pub := none, ptRoot := root }).retable loc

/-- A pending version opens: the published table is kept (R159). -/
def Dev.openVersion (d : Dev) (loc : Nat) : Dev :=
  d.modSes loc fun s => { s with pub := some (s.pub.getD s.pages) }

/-- A pending version is discarded and every count change it made is reversed; its new frames become free at once (R161). -/
def Dev.discardVersion (d : Dev) (loc : Nat) : Dev :=
  let s := d.ses loc
  match s.pub with
  | none => d
  | some old =>
    let p := d.sesPart loc
    let differs := fun (a b : Tbl Page) => a.filter fun e => (tget b e.1).all fun y => y.frames != e.2.frames
    let d := (differs s.pages old).foldl (fun d e => d.release p e.2) d
    let d := (differs old s.pages).foldl (fun d e => e.2.frames.foldl (fun d f => d.refUp p f) d) d
    let fresh := (differs s.pages old).flatMap fun e => e.2.frames.filter fun f => d.refs f == 0
    let d := d.moveFrames p 1 0 fresh.length
    let z := d.kva.zeroed.filter fun e => !fresh.contains e.1
    ({ d with kva := { d.kva with zeroed := z } }).modSes loc fun s => { s with pages := old, pub := none }

/-- A page-table entry as STATE_READ kind 0x2 returns it (Table 06.3). -/
def Dev.pteOf (d : Dev) (loc i : Nat) (pages : Tbl Page) : List Byte :=
  match tget pages i with
  | none => List.replicate 64 0
  | some x =>
    let h := d.sesHdr (d.sesPart loc) loc
    let r := h.rangeOf i
    let fl := (if x.dropped then 2 else 0) + (if x.tier = 0 ∧ d.kva.poison.contains x.frame then 4 else 0)
    record [(1, x.format), (1, x.form), (1, 2), (1, x.sectors), (1, 0x20), (1, fl), (2, x.rows), (2, 32), (2, h.cols),
            (2, h.layerOf i), (2, h.groupOf i), (8, (d.sesHandle loc).toNat), (8, x.gen), (8, x.digest.toNat), (4, x.crc.toNat),
            (4, 32 * r), (8, if x.dropped then 0 else if x.tier = 0 then (d.frameAddr x.frame).toNat else x.storedAt.toNat),
            (2, x.keyId.toNat), (1, x.tier), (1, 1 + (if x.poison then 2 else 0)), (4, 0)]

/-! ### Page contents -/

/-- Exact zero page: 65,536 bytes of a T1 page in RAW form. -/
def Page.raw (x : Page) : List Byte := padTo tileSize x.data

/-- DEPTH that the pages of a session give (R87): the deepest tier that holds one. -/
def depthOf (pages : Tbl Page) : Nat := pages.foldl (fun a e => if e.2.dropped then a else max a e.2.tier) 0

/-- Leading layers of a range whose PTEs have DROPPED set (R173). -/
def Session.droppedRanges (s : Session) (h : ImageHdr) : List Nat :=
  ((s.pages.filter fun e => e.2.dropped).map fun e => h.rangeOf e.1).eraseDups

/-- DROPPED of the descriptor, from the pages (R87). -/
def Dev.recountDropped (d : Dev) (loc : Nat) : Dev :=
  d.modSes loc fun s => { s with dropped := min ((s.droppedRanges (d.sesHdr (d.sesPart loc) loc)).length) 0xFFFF }

/-! ### Histories (R88, R460; 14 R368) -/

/-- Positions that a history region holds (R460). -/
def Region.histMax (r : Region) : Nat := 16384 * r.tiles - 16

/-- CONTEXT_MAX of a session's class (09 Table 09.3). -/
def Dev.classMax (d : Dev) (p cls : Nat) : Nat := (tgetD (tgetD d.tok p {}).cls cls {}).contextMax

/-- Context limit of a session (R460). -/
def Dev.contextLimit (d : Dev) (p loc : Nat) : Nat :=
  let s := d.ses loc
  match d.region s.histReg with
  | some r => min (d.classMax p s.cls) r.histMax
  | none => d.classMax p s.cls

/-- The history header (Table 14.2). -/
def Dev.histHeader (d : Dev) (loc : Nat) : List Byte :=
  let s := d.ses loc
  padTo 64 (record [(8, (d.sesHandle loc).toNat), (4, s.positions), (4, s.staged), (8, (d.stepP (d.sesPart loc)).number.toNat),
    (2, s.keyId.toNat), (1, s.cls), (1, s.prio + (if s.pin then 128 else 0)), (4, s.memIndex.toNat), (2, s.listSet), (2, s.profile)])

/-- Bytes of a history: header and entries. -/
def Dev.histBytes (d : Dev) (loc : Nat) : List Byte :=
  d.histHeader loc ++ (d.ses loc).hist.flatMap fun e => leBytes 4 e.toNat

/-- A tile of a history region as Tussock writes it (05 R122, Table 05.2, Table 05.9): FORMAT UINT32, KIND 0x5, INDEX its place, OWNER the
session. LAYOUT and the shape are not stated: free values where no software has given them (log 55). -/
def Dev.historyTile (d : Dev) (loc n t : Nat) (raw : List Byte) : Dev :=
  match d.region n with
  | none => d
  | some r =>
    let a := d.tileAddr r t
    let enc := match d.storeKey r.part r.keyId.toNat with
      | some key => sealSectors key a.toNat raw
      | none => raw
    let f := fun (i m : Nat) => (Config.freeValue (d.free + i)).toNat % m
    let own : Tile → Tile := fun x => if x.gen ≠ 0 then x
      else { x with format := 2, kind := 5, index := BitVec.ofNat 32 (t % 65536), layout := f 0 256, validRows := f 1 65536, rows := f 2 65536,
                    cols := f 3 65536 }
    { d with free := d.free + 4 }.modTile n t fun x =>
      { own x with form := 0, sectors := 128, gen := x.gen + 1, owner := d.sesHandle loc, digest := crc64 raw, crc := crc32c enc, storedAt := a,
                   keyId := r.keyId, tier := r.tierOf t, data := [], bad := 0 }

/-- Sectors `lo` to `hi` of a history written to its region, tile by tile, or upward from HIST_ADDR when no region of this device holds
it (a restored or accepted session); the number of writes. A tile that is not yet the history's is written whole. -/
def Dev.writeSectors (d : Dev) (loc lo hi : Nat) (desc : Option Nat) : Dev × Nat :=
  let s := d.ses loc
  let p := d.sesPart loc
  let bytes := d.histBytes loc
  let ts := (List.range (hi / 128 + 1 - lo / 128)).map fun i => lo / 128 + i
  let place := fun (d : Dev) (t : Nat) => match d.region s.histReg with
    | some r => d.tileAddr r t
    | none => s.histAddr + BitVec.ofNat 64 (pageBytes * t)
  let mine := fun (d : Dev) (t : Nat) => match d.region s.histReg with
    | some r => (r.at t).owner == d.sesHandle loc
    | none => true
  let one := fun (d : Dev) (t : Nat) =>
    let a := if mine d t then max lo (128 * t) else 128 * t
    let n := (if mine d t then min hi (128 * t + 127) else 128 * t + 127) + 1 - a
    let addr := place d t + BitVec.ofNat 64 (512 * (a % 128))
    let raw := padTo (512 * n) (bytes.drop (512 * a))
    let enc := match d.storeKey p s.keyId.toNat with
      | some key => sealSectors key addr.toNat raw
      | none => raw
    (d.historyTile loc s.histReg t (padTo tileSize (bytes.drop (tileSize * t)))).request p (.history loc desc) addr enc.length (some enc)
  (ts.foldl one d, ts.length)

/-- The entries of positions `first` to `first + n − 1` written, together with the header; the number of writes. -/
def Dev.writeHistory (d : Dev) (loc first n : Nat) (desc : Option Nat) : Dev × Nat :=
  let lo := (64 + 4 * first) / 512
  let hi := (64 + 4 * (first + n) - 1) / 512
  if n = 0 then d.writeSectors loc 0 0 desc
  else if lo = 0 then d.writeSectors loc 0 hi desc
  else
    let (d, a) := d.writeSectors loc 0 0 desc
    let (d, b) := d.writeSectors loc lo hi desc
    (d, a + b)

/-- Reads of the header and of the entries of positions 0 to `n − 1`, tile by tile; the number of reads (06 R165). -/
def Dev.readHistory (d : Dev) (loc n : Nat) (desc : Option Nat) : Dev × Nat :=
  let s := d.ses loc
  let hi := (64 + 4 * n - 1) / 512
  let ts := List.range (hi / 128 + 1)
  let one := fun (d : Dev) (t : Nat) =>
    let a := match d.region s.histReg with
      | some r => d.tileAddr r t
      | none => s.histAddr + BitVec.ofNat 64 (pageBytes * t)
    d.request (d.sesPart loc) (.history loc desc) a (512 * (min (hi - 128 * t) 127 + 1)) none
  (ts.foldl one d, ts.length)

/-- Descriptors that wait on a session: its generation, its inputs, its park, its revival. -/
def Dev.sesDescs (d : Dev) (loc : Nat) : List Nat :=
  tkeys d.rng.descs fun _ e =>
    match e.st with
    | .waiting (.generation l) => l == loc
    | .waiting (.tokenise l) => l == loc
    | .waiting (.park l) => l == loc
    | .waiting (.revive l) => l == loc
    | .waiting .hostRead => e.op == 0x11 && hLocal e.d.target == loc
    | .waiting (.requests _) => e.op == 0x11 && hLocal e.d.target == loc
    | _ => false

/-- The history of a session is unreadable: FAULTED, with the fault record, and its descriptors complete (R94). -/
def Dev.loseHistory (d : Dev) (loc : Nat) (st : Byte) : Dev :=
  let s := d.ses loc
  let p := d.sesPart loc
  let d := ((d.flag TUS_STATUS_HISTORY_LOST TUS_STATUS_HISTORY_LOST_COUNT).raise (some p) 0x0211 s.histAddr 2 0x100)
  let d := d.discardVersion loc
  let d := d.enter loc .faulted
  let d := d.modSes loc fun s => { s with genArmed := false, waitArmed := false, armed := none, staged := 0, linger := false }
  (d.sesDescs loc).foldl (fun d k => d.failOpen k st none) d

end Sys2Proof.Machine
end

