-- ==== Sys2Proof/Machine/Kv.lean ====
section
/-! DEFINITION. KV pages: the opcodes 0x30–0x32, the scatter with its claims, attention jobs, damaged pages and discarded
entries (06_kv_cache_attention.md R162–R177; 07_narrow_arithmetic.md R189–R191). -/

namespace Sys2Proof.Machine

/-! ### The length table and discarded entries (R168, R172) -/

/-- Length table of a partition's step. -/
def Dev.lens (d : Dev) (p : Nat) : List LenEntry := tgetD d.kva.len p []

/-- The device with a length table set. -/
def Dev.setLens (d : Dev) (p : Nat) (es : List LenEntry) : Dev := { d with kva := { d.kva with len := tput d.kva.len p es } }

/-- The entry of a session. -/
def Dev.lenOf (d : Dev) (p loc : Nat) : Option LenEntry := (d.lens p).find? fun e => e.loc == loc

/-- The entry of a session changed. -/
def Dev.modLen (d : Dev) (p loc : Nat) (f : LenEntry → LenEntry) : Dev :=
  d.setLens p ((d.lens p).map fun e => if e.loc == loc then f e else e)

/-- A session's effects of the step are discarded and its entry is held: scatter, token, history, version (R172). -/
def Dev.discardEntry (d : Dev) (loc : Nat) : Dev :=
  let p := d.sesPart loc
  let d := (d.discardVersion loc).modLen p loc fun e => { e with held := true, scattered := [], parts := [], tokens := [], shards := [] }
  d.modSes loc fun s => { s with heldStep := true }

/-- A page marked DROPPED: its references and its stored copy are let go (R156, R173). -/
def Dev.dropPage (d : Dev) (loc i : Nat) : Dev :=
  match tget (d.ses loc).pages i with
  | none => d
  | some x =>
    if x.dropped then d
    else
      let d := d.release (d.sesPart loc) x
      let y : Page := { x with dropped := true, tier := 0, storedAt := 0, frame := 0, data := [] }
      d.modSes loc fun s => { s with pages := tput s.pages i y }

/-- A job read a damaged page (R172): its range is dropped up to the page's layer and recomputed; the entry is held. -/
def Dev.pageDamaged (d : Dev) (core loc i : Nat) : Dev :=
  match tget (d.ses loc).pages i with
  | none => d
  | some x =>
    if !x.here then d
    else
      let p := d.sesPart loc
      let h := d.sesHdr p loc
      let d := (d.flag KVA_STATUS_KV_UNCORRECTABLE KVA_STATUS_UNCORR_COUNT).raise (some p) 0x0511 (d.frameAddr x.frame) 2 core
      let d := d.discardEntry loc
      let d := { d with kva := { d.kva with poison := x.frame :: d.kva.poison.filter fun f => f != x.frame } }
      let d := d.modSes loc fun s => { s with pages := tupd s.pages i fun y => { y with poison := true } }
      let gone := ((d.ses loc).pages.filter fun e => h.rangeOf e.1 == h.rangeOf i && decide (h.layerOf e.1 ≤ h.layerOf i)).map
        fun e => e.1
      (gone.foldl (fun d j => d.dropPage loc j) d).recountDropped loc

/-! ### Written values (R154, R167, R171; 07 R189, R191) -/

/-- Bytes of one element of a KV write format. -/
def kvBytes (fmt : Nat) : Nat := if fmt = 0x04 then 2 else 1

/-- Floating format of a KV write format. -/
def kvFp (fmt : Nat) : FpFmt := if fmt = 0x04 then fmtBF16 else if fmt = 0x07 then fmtE5M2 else fmtE4M3

/-- Bytes replaced from an offset. -/
def splice (bs : List Byte) (off : Nat) (new : List Byte) : List Byte := bs.take off ++ new ++ bs.drop (off + new.length)

/-- Elements of one row of a page, rounded stochastically (R189), and the clamps counted. `vals` holds 2 × G × D values. -/
def kvRow (h : ImageHdr) (layer group pos : Nat) (vals : List U32) : List (List Nat) × Nat :=
  let dd := 32 * h.dim32
  let f := kvFp h.kvFormat
  let one := fun (hk : Nat) => (List.range dd).map fun i =>
    f.stochastic (f32 (vals.getD (hk * dd + i) 0)) (srBits h.seed pos layer (group * h.group + hk / 2) (hk % 2) i)
  let rows := (List.range (2 * h.group)).map one
  (rows.map fun r => r.map fun x => x.1, (rows.map fun r => (r.filter fun x => x.2).length).sum)

/-- One row written into a page's payload at row `w`, in the page's format (R154, R167). -/
def putRow (h : ImageHdr) (fmt w : Nat) (bs : List Byte) (rows : List (List Nat)) : List Byte :=
  let dd := 32 * h.dim32
  let b := kvBytes h.kvFormat
  rows.zipIdx.foldl (fun bs x =>
    let at_ := (x.2 * 32 + w) * dd
    if fmt = 0x10 then
      let blocks := (chunks 32 (dd + 1) x.1).map fun c => peatQBlock (c.map fun e => (kvFp h.kvFormat).decode e)
      let bs := splice bs (at_ / 32) (blocks.map fun q => BitVec.ofNat 8 q.1)
      let el := blocks.flatMap fun q => q.2
      splice bs (h.cols + at_ / 2) (packBits (dd + 1) (el.flatMap (symbolBits 4)))
    else splice bs (at_ * b) (x.1.flatMap fun e => leBytes b e)) bs

/-- Clamps of a layer added to its sums (R191). -/
def Dev.countSat (d : Dev) (p layer n : Nat) : Dev :=
  let a := tgetD d.ari p {}
  let l := tgetD a.layer layer {}
  let a := { a with layer := tput a.layer layer { l with sat := l.sat + n } }
  ({ d with ari := tput d.ari p a }).satL (ARI_SAT_SATURATED p) n

/-- Rows of one page written by the scatter, from row `w` (R167, R171): in place, through a copy, or into a new page. -/
def Dev.scatterPage (d : Dev) (loc layer group r w : Nat) (rows : List (List U32)) : Dev :=
  let p := d.sesPart loc
  let h := d.sesHdr p loc
  let i := h.page r layer group
  let enc := rows.zipIdx.map fun x => kvRow h layer group (32 * r + w + x.2) x.1
  let d := d.countSat p layer (enc.map fun x => x.2).sum
  let fill := fun (fmt : Nat) (bs : List Byte) =>
    (enc.zipIdx.foldl (fun bs x => putRow h fmt (w + x.2) bs x.1.1) bs)
  let seal_ := fun (x : Page) (bs : List Byte) => { x with data := bs, digest := crc64 bs, crc := crc32c bs, rows := w + rows.length }
  match tget (d.ses loc).pages i with
  | none =>
    let (f, d) := d.newKvFrame p 4
    let y : Page := { frame := f, format := h.kvFormat, keyId := (d.ses loc).keyId }
    let d := d.modSes loc fun s => { s with pages := tput s.pages i (seal_ y (fill h.kvFormat (List.replicate tileSize 0))) }
    (d.refUp p f).satL (KVA_STEP_NEW_PAGES p) 1
  | some x =>
    if d.refs x.frame = 1 ∧ x.rows = w then
      d.modSes loc fun s => { s with pages := tput s.pages i { seal_ x (fill x.format x.raw) with gen := x.gen + 1 } }
    else
      let d := d.refDown p x.frame
      let (f, d) := d.newKvFrame p 4
      let keep := (List.range (2 * h.group)).foldl (fun bs hk =>
        let dd := 32 * h.dim32
        let b := kvBytes h.kvFormat
        let n := 32 - w
        if x.format = 0x10 then
          let bs := splice bs ((hk * 32 + w) * dd / 32) (List.replicate (n * dd / 32) 0)
          splice bs (h.cols + (hk * 32 + w) * dd / 2) (List.replicate (n * dd / 2) 0)
        else splice bs ((hk * 32 + w) * dd * b) (List.replicate (n * dd * b) 0)) x.raw
      let y : Page := { x with frame := f, gen := 1, poison := false }
      let d := d.modSes loc fun s => { s with pages := tput s.pages i (seal_ y (fill x.format keep)) }
      (d.refUp p f).satL (KVA_STEP_COW_COPIES p) 1

/-- The scatter of one layer and head group of an entry (R171): rows of an entry with REPEAT are not written. -/
def Dev.scatter (d : Dev) (loc layer group first : Nat) (rows : List (List U32)) : Dev :=
  let p := d.sesPart loc
  match d.lenOf p loc with
  | none => d
  | some e =>
    if e.held || e.new = 0 || e.scattered.contains (layer, group) then d
    else
      let d := d.modLen p loc fun e => { e with scattered := (layer, group) :: e.scattered }
      if e.repeats then d
      else
        let d := d.openVersion loc
        let rs := (List.range (rangesOf (first + rows.length) - first / 32)).map fun i => first / 32 + i
        rs.foldl (fun d r =>
          let lo := max first (32 * r)
          let n := min (first + rows.length) (32 * r + 32) - lo
          d.scatterPage loc layer group r (lo - 32 * r) ((rows.drop (lo - first)).take n)) d

/-! ### Attention (R169, R170; 07 R190) -/

/-- log2(e) ÷ √D in FP32, for the values of D that R152 allows. -/
def attnScale (dim : Nat) : U32 :=
  match dim with
  | 64 => 0x3E38AA3B
  | 96 => 0x3E16C740
  | 128 => 0x3E0293EE
  | 192 => 0x3DD53B95
  | _ => 0x3DB8AA3B

/-- A block of 32 values and its scale byte, as an FP32-mode product takes it. -/
abbrev Block := Nat × List Num

/-- Values rounded to MXFP8 E4M3 in blocks of 32 (07 R188, R190). -/
def mxBlocks (xs : List Num) : List Block :=
  (chunks 32 (xs.length + 1) xs).map fun c => let q := quantMx 0x13 c; (q.1, q.2.1.map fun b => fmtE4M3.decode b)

/-- Values used as they are, under the unit scale. -/
def unitBlocks (xs : List Num) : List Block := (chunks 32 (xs.length + 1) xs).map fun c => (0x7F, c)

/-- Dot product of two rows of blocks in the order of 07 R186. -/
def dotBlocks (a b : List Block) : U32 :=
  let vals := (a.zip b).map fun x =>
    toF32 ((f32 (toF32 (sumNum ((x.1.2.zip x.2.2).map fun y => y.1.mul y.2)))).scale ((x.1.1 : Int) + x.2.1 - 254))
  (chunks 4 (vals.length + 1) vals).foldl (fun s c => fadd s (c.foldl fadd 0)) 0

/-- Values of K or V of one head of a page at a row: `hk` = 2 × head in the group + (0 for K, 1 for V). -/
def Page.values (x : Page) (h : ImageHdr) (hk row : Nat) : List Num :=
  let dd := 32 * h.dim32
  let o := (hk * 32 + row) * dd
  let fmt := if x.format = 0x10 then 0x10 else x.format
  let bs := x.raw
  (List.range dd).map fun i => elemValue fmt 32 h.cols bs (o + i)

/-- A BF16 page runs in the BF16 mode; every other page in W8A8-F (R190). -/
def isBf16 (fmt : Nat) : Bool := fmt == 0x04

/-- The activation operand of an attention product for a page format. -/
def attnActs (fmt : Nat) (xs : List Num) : List Block :=
  if isBf16 fmt then unitBlocks (xs.map fun x => fmtBF16.decode (fmtBF16.encode false x)) else mxBlocks xs

/-- The K or V operand: used as it is, or re-blocked from MXFP4 (R190). -/
def attnWeights (fmt : Nat) (xs : List Num) : List Block := if fmt = 0x10 then mxBlocks xs else unitBlocks xs

/-- One page of a chunk added to the partial statistics of a query row (R170). `ks` lists key rows and value rows with
their visibility. -/
def attnPage (dim fmt : Nat) (q : List Num) (ks : List (Bool × List Num × List Num)) (st : RowStat) : RowStat :=
  let xs := ks.map fun k => (k.1, fmul (dotBlocks (attnActs fmt q) (attnWeights fmt k.2.1)) (attnScale dim))
  if !(xs.any fun x => x.1) then st
  else
    let top := (xs.filter fun x => x.1).foldl (fun a x => fmax a x.2) st.m
    let a : U32 := if st.m = 0xFF800000 then 0 else Config.exp2 (fsub st.m top)
    let ps := xs.map fun x => if x.1 then Config.exp2 (fsub x.2 top) else 0
    let w := attnActs fmt (ps.map f32)
    { m := top,
      s := ps.foldl fadd (fmul st.s a),
      o := (List.range dim).map fun i =>
        fadd (fmul (st.o.getD i 0) a) (dotBlocks w (attnWeights fmt (ks.map fun k => k.2.2.getD i (.fin false 0 0)))) }

/-- Merge of two partial statistics (R170). -/
def attnMerge (a b : RowStat) : RowStat :=
  let top := fmax a.m b.m
  let x := Config.exp2 (fsub a.m top)
  let y := Config.exp2 (fsub b.m top)
  { m := top, s := fadd (fmul a.s x) (fmul b.s y), o := (a.o.zip b.o).map fun z => fadd (fmul z.1 x) (fmul z.2 y) }

/-- Keys of range `r` for a query at position `pos`: committed rows from the page, later ones from core store (R169). -/
def attnKeys (h : ImageHdr) (x : Page) (head r ctx pos : Nat) (own : List (Nat × List U32 × List U32)) :
    List (Bool × List Num × List Num) :=
  (List.range 32).map fun j =>
    let k := 32 * r + j
    let hk := 2 * (head % h.group)
    if k < ctx then (decide (k ≤ pos), x.values h hk j, x.values h (hk + 1) j)
    else
      match own.find? fun o => o.1 == k with
      | some o => (decide (k ≤ pos), o.2.1.map f32, o.2.2.map f32)
      | none => (false, [], [])

/-- First page of a walk of `n` ranges from `first` that lies in a frame marked POISONED, or in one whose memory is uncorrectable: every
holder meets R172 at its walk. -/
def Dev.walkBad (d : Dev) (loc layer group first n : Nat) : Option Nat :=
  let h := d.sesHdr (d.sesPart loc) loc
  ((List.range n).map fun r => h.page (first + r) layer group).find? fun i =>
    (tget (d.ses loc).pages i).any fun x => x.here && (d.kva.poison.contains x.frame || d.kva.bad.contains x.frame)

/-- One attention job: the partial statistics of each query row over its chunk; the merge when the last chunk of its
(entry, layer, head) is in, left in the output row of the core that ran chunk 0 (R169, R170). -/
def Dev.attention (d : Dev) (core loc layer head chunk : Nat) (q : List (List U32))
    (own : List (Nat × List U32 × List U32)) : Dev :=
  let p := d.sesPart loc
  let h := d.sesHdr p loc
  match d.lenOf p loc with
  | none => d
  | some e =>
    let pages := rangesOf (e.ctx + e.new)
    if e.held || e.new = 0 || h.chunk = 0 || h.group = 0 then d
    else match d.walkBad loc layer (head / h.group) (chunk * h.chunk) (min h.chunk (pages - chunk * h.chunk)) with
    | some i => d.pageDamaged core loc i
    | none =>
      let d := d.satL (KVA_STEP_ATTN_JOBS p) 1
      let rs := (List.range (min h.chunk (pages - chunk * h.chunk))).map fun i => chunk * h.chunk + i
      let dim := 32 * h.dim32
      let table := (d.ses loc).pub.getD (d.ses loc).pages
      let pageOf := fun (r : Nat) => tgetD table (h.page r layer (head / h.group)) { format := h.kvFormat }
      let row := fun (x : List U32 × Nat) =>
        let pos := e.ctx + x.2 / h.qpk
        rs.foldl (fun st r => attnPage dim (pageOf r).format (x.1.map f32) (attnKeys h (pageOf r) head r e.ctx pos own) st)
          ({ m := 0xFF800000, s := 0, o := List.replicate dim 0 } : RowStat)
      let ps : PartStat := { layer := layer, head := head, chunk := chunk, core := core, rows := q.zipIdx.map row }
      let d := d.modLen p loc fun e => { e with parts := e.parts.filter (fun y =>
        !(y.layer == layer && y.head == head && y.chunk == chunk)) ++ [ps] }
      let mine := ((d.lenOf p loc).elim [] fun e => e.parts).filter fun y => y.layer == layer && y.head == head
      let n := ceilDiv pages h.chunk
      let ordered := (List.range n).filterMap fun c => mine.find? fun y => y.chunk == c
      if ordered.length = n then
        match ordered with
        | [] => d
        | first :: rest =>
          let merged := rest.foldl (fun a b => (a.zip b.rows).map fun z => attnMerge z.1 z.2) first.rows
          let out := merged.flatMap fun st => st.o.map fun o => fmul o (Config.recip st.s)
          let put := fun (c : Core) => { c with outRow := out }
          { d with plc := { d.plc with core := tmod d.plc.core first.core {} put } }
      else d

/-! ### PT_SHARE (R165) -/

/-- Checks of PT_SHARE. -/
def chkPtShare (d : Dev) (p : Nat) (x : Desc) : Byte :=
  let src := BitVec.ofNat 64 (fieldAt x 16 8)
  let n := fieldAt x 24 4
  if d.sessionStatus p x.target ≠ stOk then d.sessionStatus p x.target
  else if d.sessionStatus p src ≠ stOk then d.sessionStatus p src
  else if n = 0 ∨ n > (d.ses (hLocal src)).positions then stBad
  else stOk

/-- Pages that a share covers. -/
def Dev.sharePages (d : Dev) (p src n : Nat) : Tbl Page :=
  (d.ses src).pages.filter fun e => decide ((d.sesHdr p src).rangeOf e.1 < rangesOf n)

/-- Status of a share whose descriptors are in order (R165, Table 06.7). -/
def Dev.shareStatus (d : Dev) (p dst src n : Nat) : Byte :=
  let a := d.ses dst
  let b := d.ses src
  let ps := d.sharePages p src n
  if d.tenantGone p a.keyId.toNat ∨ d.tenantGone p b.keyId.toNat then stTenant
  else if a.st ≠ .idle ∨ a.positions ≠ 0 ∨ a.staged ≠ 0 then stWrong
  else if !((b.st == .idle && b.depth == 0) || (b.st == .waiting && !b.inBatch)) then stWrong
  else if ps.any fun e => !e.2.here then stWrong
  else if (ps.any fun e => decide (d.refs e.2.frame ≥ 2 ^ 32 - 1)) || decide (n > d.contextLimit p dst) then stLimit
  else stOk

/-- PT_SHARE applied: the source's history is read first. -/
def doPtShare (d : Dev) (k : Nat) (e : DescEntry) : Dev :=
  let p := e.part
  let src := hLocal (BitVec.ofNat 64 (fieldAt e.d 16 8))
  let n := fieldAt e.d 24 4
  let d := d.tussockAccess
  let st := d.shareStatus p (hLocal e.d.target) src n
  if st ≠ stOk then d.refuse k st
  else
    let (d, w) := d.readHistory src n (some k)
    d.wait k (.requests w)

/-- The source's history was read: it is written as the destination's; the pages follow once it stands (R165). -/
def Dev.shareWrite (d : Dev) (k : Nat) : Dev :=
  match tget d.rng.descs k with
  | none => d
  | some e =>
    let dst := hLocal e.d.target
    let src := hLocal (BitVec.ofNat 64 (fieldAt e.d 16 8))
    let n := fieldAt e.d 24 4
    let st := d.shareStatus e.part dst src n
    if st ≠ stOk then d.refuse k st
    else
      let d := d.modSes dst fun s => { s with hist := (d.ses src).hist.take n }
      let (d, w) := d.writeHistory dst 0 n (some k)
      d.wait k (.requests w)

/-- The destination's history stands: the pages are shared (R165). -/
def Dev.shareDone (d : Dev) (k : Nat) : Dev :=
  match tget d.rng.descs k with
  | none => d
  | some e =>
    let p := e.part
    let dst := hLocal e.d.target
    let src := hLocal (BitVec.ofNat 64 (fieldAt e.d 16 8))
    let n := fieldAt e.d 24 4
    if d.shareStatus p dst src n ≠ stOk then
      (d.modSes dst fun s => { s with hist := [] }).refuse k (d.shareStatus p dst src n)
    else
      let ps := d.sharePages p src n
      let d := ps.foldl (fun d x => d.refUp p x.2.frame) d
      let d := d.modSes dst fun s => { s with pages := ps, positions := n }
      (d.publish dst).ok k (BitVec.ofNat 64 n) (BitVec.ofNat 32 ps.length)

/-- PT_SHARE (R165). -/
def execPtShare (ring : Nat) (x : Desc) (s : State) : Res :=
  guarded (.ptShare ring x) (onDev s fun d => d.runOp 0x30 ring x chkPtShare doPtShare)

/-! ### PT_TRUNCATE (R175) -/

/-- PT_TRUNCATE applied. -/
def doPtTruncate (d : Dev) (k : Nat) (e : DescEntry) : Dev :=
  let p := e.part
  let loc := hLocal e.d.target
  let n := fieldAt e.d 16 4
  let s := d.ses loc
  let h := d.sesHdr p loc
  let d := d.tussockAccess
  if d.tenantGone p s.keyId.toNat then d.refuse k stTenant
  else if (s.st ≠ .idle ∧ s.st ≠ .parked) ∨ s.staged ≠ 0 ∨ s.genArmed ∨ n ≥ s.positions then d.refuse k stWrong
  else
    let (d, gone) := d.releasePages loc fun i _ => decide (rangesOf n ≤ h.rangeOf i)
    let d := d.modSes loc fun s => { s with positions := n, hist := s.hist.take n }
    let d := ((d.recountDropped loc).publish loc).modSes loc fun s =>
      { s with depth := if s.st = .parked ∧ depthOf s.pages ≠ 0 then depthOf s.pages else s.depth }
    d.ok k (BitVec.ofNat 64 n) (BitVec.ofNat 32 gone)

/-- PT_TRUNCATE (R175). -/
def execPtTruncate (ring : Nat) (x : Desc) (s : State) : Res :=
  guarded (.ptTruncate ring x) (onDev s fun d => d.runOp 0x31 ring x (fun d p x => d.sessionStatus p x.target) doPtTruncate)

/-! ### KV_DROP (R174) -/

/-- Checks of KV_DROP (Table 06.6). -/
def chkKvDrop (d : Dev) (p : Nat) (x : Desc) : Byte :=
  let mode := fieldAt x 16 1
  let depth := fieldAt x 17 1
  let ranges := fieldAt x 18 1
  if d.sessionStatus p x.target ≠ stOk then d.sessionStatus p x.target
  else if (mode = 0 ∧ depth ≠ 0 ∧ 1 ≤ ranges ∧ ranges ≤ 64) ∨ (mode = 1 ∧ depth = 0 ∧ ranges = 0) then stOk
  else stBad

/-- Pages that satisfy a condition dropped, those named by another PTE kept; how many ranges lost a page (DEDUCED, log 57), and how
many pages were kept. -/
def Dev.dropPages (d : Dev) (loc : Nat) (c : Nat → Bool) : Dev × Nat × Nat :=
  let ps := (d.ses loc).pages.filter fun e => c e.1 && !e.2.dropped
  let kept := ps.filter fun e => e.2.tier = 0 && decide (d.refs e.2.frame > 1)
  let gone := ps.filter fun e => !(e.2.tier = 0 && decide (d.refs e.2.frame > 1))
  let h := d.sesHdr (d.sesPart loc) loc
  (gone.foldl (fun d e => d.dropPage loc e.1) d, ((gone.map fun e => h.rangeOf e.1).eraseDups).length, kept.length)

/-- Every stored page of a parked session freed (R174 ALL, 04 R461): DROPPED reads 0xFFFF. -/
def Dev.dropAll (d : Dev) (loc : Nat) : Dev × Nat × Nat :=
  let (d, n, kept) := d.dropPages loc fun _ => true
  (d.modSes loc fun s => { s with dropped := 0xFFFF }, n, kept)

/-- KV_DROP applied. -/
def doKvDrop (d : Dev) (k : Nat) (e : DescEntry) : Dev :=
  let p := e.part
  let loc := hLocal e.d.target
  let s := d.ses loc
  let h := d.sesHdr p loc
  let ranges := rangesOf s.positions
  let d := d.tussockAccess
  if d.tenantGone p s.keyId.toNat then d.refuse k stTenant
  else if s.st ≠ .parked then d.refuse k stWrong
  else if fieldAt e.d 16 1 = 1 then
    let (d, n, kept) := d.dropAll loc
    (d.publish loc).ok k (BitVec.ofNat 64 n) (BitVec.ofNat 32 kept)
  else if ranges < fieldAt e.d 18 1 ∨ fieldAt e.d 17 1 > h.layers then d.refuse k stWrong
  else
    let (d, n, kept) := d.dropPages loc fun i =>
      decide (ranges - fieldAt e.d 18 1 ≤ h.rangeOf i) && decide (h.layerOf i < fieldAt e.d 17 1)
    ((d.recountDropped loc).publish loc).ok k (BitVec.ofNat 64 n) (BitVec.ofNat 32 kept)

/-- KV_DROP (R174). -/
def execKvDrop (ring : Nat) (x : Desc) (s : State) : Res :=
  guarded (.kvDrop ring x) (onDev s fun d => d.runOp 0x32 ring x chkKvDrop doKvDrop)

end Sys2Proof.Machine
end

