-- ==== Sys2Proof/Machine/Yoyo.lean ====
section
/-! DEFINITION. Yo-yo: fetch or recompute, parks and demotions, revivals, recomputed pages, and the rows that start or end
them (04_sessions_tussock_yoyo.md R92, R94, R101, R103–R110, R114, R117; 06_kv_cache_attention.md R157, R166). -/

namespace Sys2Proof.Machine

/-! ### Fetch or recompute (R107) -/

/-- p90_delay of the path queue of an extent, ns; 0 where there is none (12 R336). -/
def Dev.dq (d : Dev) (p : Nat) (e : Option ExtentInfo) : Nat :=
  match e with
  | none => 0
  | some i => (tgetD d.slu.queue (4 * p + pathKind i) {}).p90

/-- Mean of a list of times, rounded down. -/
def mean (xs : List Nat) : Nat := if xs.isEmpty then 0 else xs.sum / xs.length

/-- t_re of a depth, ns: the mean of the last 16 measured jobs, or the seed of 07 R202. -/
def Dev.tRe (d : Dev) (p depth : Nat) : Nat :=
  let ms := ((tgetD d.tus.tRe p []).filter fun x => x.1 == depth).map fun x => x.2
  if ms.length ≥ 16 then mean (ms.take 16)
  else if (tgetD d.ari p {}).steps < 64 then (Config.reSeed p depth).toNat
  else if ms.isEmpty then (Config.reScaled p depth (d.stepP p).stepNs).toNat
  else mean ms

/-- choose_depth of R107 for a range, with the extent of the tier concerned; none for T1, where dq is 0. -/
def Dev.chooseDepth (d : Dev) (loc r : Nat) (e : Option ExtentInfo) : Nat :=
  let p := d.sesPart loc
  if r + d.getB (YOY_RECOMP_CFG_TAIL_RANGES p) < rangesOf (d.ses loc).positions then 0
  else (List.range (d.getB (YOY_RECOMP_CFG_MAX_DEPTH p))).foldl
    (fun best i => if d.tRe p (i + 1) < d.dq p e then i + 1 else best) 0

/-! ### Where a park writes (R127, R101) -/

/-- Live PARK extents of a partition on this device, of a tier, lowest handle first. -/
def Dev.parkExtents (d : Dev) (p tier : Nat) : List ExtentInfo :=
  (tvals d.fab.map).filter fun e => e.part == p && e.dev == d.id && e.park && e.live && e.cls + 2 == tier

/-- A place for a run of `n` sectors in the extents given: first where the cursor points, then in order. -/
def Dev.placeIn (d : Dev) (cursor : Option (U64 × Nat)) (n : Nat) (es : List ExtentInfo) : Option (ExtentInfo × Nat) :=
  let from_ := match cursor with
    | some (h, c) => (es.find? fun e => e.handle == h).bind fun e => (d.placeRun e c n).map fun a => (e, a)
    | none => none
  match from_ with
  | some x => some x
  | none => es.findSome? fun e => (d.placeRun e 0 n).map fun a => (e, a)

/-- The park of a session takes a run of `n` sectors: its address. `bad` names an extent that refused. -/
def Dev.takeRun (d : Dev) (loc tier n : Nat) (bad : Option U64) : Dev × Option U64 :=
  let es := (d.parkExtents (d.sesPart loc) tier).filter fun e => bad != some e.handle
  match d.placeIn (if bad.isSome then none else (d.ses loc).cursor) n es with
  | none => (d, none)
  | some (e, start) =>
    let d := d.takePages e.handle ((runPages start n).filter fun g => !(d.takenPages e.handle).contains g)
    (d.modSes loc fun s => { s with cursor := some (e.handle, start + n) },
     some (poolAddr (hExtHome e.handle) e.space (e.base + 512 * start)))

/-- A page could not be written: it stays in T1 (R101). -/
def Dev.leaveInT1 (d : Dev) (loc i : Nat) : Dev :=
  let a := match tget (d.ses loc).pages i with
    | some x => if x.tier = 0 then d.frameAddr x.frame else x.storedAt
    | none => 0
  let d := d.raise (some (d.sesPart loc)) 0x0311 a 2 0x101
  d.modSes loc fun s => { s with leftInT1 := s.leftInT1 + 1, writing := tdel s.writing i }

/-- Page index that stands for page-table block `k` among the writes and fetches of a session. -/
def blockIndex (k : Nat) : Nat := 2 ^ 24 + k

/-- A stored form sent to a run of the park's tier under the session's key, and recorded as in flight. -/
def Dev.sendPage (d : Dev) (loc i : Nat) (x : Page) (st : Stored) (bad : Option U64) : Dev :=
  let s := d.ses loc
  let p := d.sesPart loc
  match d.takeRun loc s.parkTier st.sectors bad, d.storeKey p s.keyId.toNat with
  | (d, some a), some key =>
    let enc := sealSectors key a.toNat st.bytes
    let y : Page := { x with tier := s.parkTier, storedAt := a, sectors := st.sectors, form := st.form, format := st.format,
                             crc := crc32c enc, keyId := s.keyId, data := [] }
    let d := d.modSes loc fun s => { s with writing := tput s.writing i y }
    (d.countEncoded st.form).request p (.parkPage loc i) a enc.length (some enc)
  | (d, _), _ => d.leaveInT1 loc i

/-- A page stored in T1 as a sector run behind the session's cursor (DEPTH T1). A new frame is taken when none is open. -/
def Dev.packPage (d : Dev) (loc i : Nat) (x : Page) (st : Stored) : Dev :=
  let p := d.sesPart loc
  let cur := match (d.ses loc).cursor with
    | some (f, o) => if o % 128 = 0 then none else some (f.toNat, o)
    | none => none
  let need := match cur with
    | some (_, o) => if o + st.sectors ≤ 128 then 0 else 1
    | none => 1
  if d.freeFrames p < need then d.leaveInT1 loc i
  else
    let (f, o, d) := match cur with
      | some (f, o) => if o + st.sectors ≤ 128 then (f, o, d) else let (_, d) := d.newKvFrame p 0; (f, o, d)
      | none => let (f, d) := d.newKvFrame p 0; (f, 0, d)
    let y : Page := { x with tier := 1, frame := f, off := o, sectors := st.sectors, form := st.form, format := st.format,
                             crc := crc32c st.bytes, data := st.bytes, storedAt := d.frameAddr f + BitVec.ofNat 64 (512 * o) }
    let d := y.frames.foldl (fun d g => d.refUp p g) d
    let d := x.frames.foldl (fun d g => d.refDown p g) d
    let stop := o + st.sectors
    let next := if stop > 128 then (BitVec.ofNat 64 (f + 1), stop - 128) else (BitVec.ofNat 64 f, stop)
    (d.countEncoded st.form).modSes loc fun s => { s with pages := tput s.pages i y, cursor := some next }

/-! ### The end of a park -/

/-- Pages of a parking session that no other PTE names and that are not yet at the target tier (R166). -/
def Dev.movable (d : Dev) (loc : Nat) : Tbl Page :=
  let s := d.ses loc
  s.pages.filter fun e => !e.2.dropped && decide (e.2.tier < s.parkTier) && (e.2.tier ≠ 0 || d.refs e.2.frame == 1)

/-- Final completion of a PARK that waits on the session. -/
def Dev.endPark (d : Dev) (loc : Nat) (st : Byte) : Dev :=
  let s := d.ses loc
  (tkeys d.rng.descs fun _ e => e.st == .waiting (.park loc)).foldl
    (fun d k => if st = stOk then d.ok k (BitVec.ofNat 64 s.depth) (BitVec.ofNat 32 s.leftInT1) else d.failOpen k st none) d

/-- No page write is in flight any more: PARKED, or READY when work arrived meanwhile (Table 04.4, R92, R461). -/
def Dev.parkEnd (d : Dev) (loc : Nat) : Dev :=
  let s := d.ses loc
  let p := d.sesPart loc
  if !s.writing.isEmpty then d
  else
    let depth := depthOf s.pages
    match s.st with
    | .parking =>
      if s.wake then
        let d := d.endPark loc stWrong
        let d := if s.reviveAll then (d.dropAll loc).1 else d
        let d := d.modSes loc fun s => { s with wake := false, reviveAll := false, depth := depth, cursor := none }
        d.enter loc .ready
      else
        let d := d.modSes loc fun s => { s with depth := if depth = 0 then s.parkTier else depth, cursor := none }
        (((d.enter loc .parked).recountDropped loc).satL (YOY_STATUS_PARKS p) 1).endPark loc stOk
    | .parked =>
      (d.modSes loc fun s => { s with depth := max depth s.depth, cursor := none }).endPark loc stOk
    | _ => d

/-- A page write below T1 was acknowledged or refused (R101). -/
def Dev.parkAck (d : Dev) (loc i : Nat) (sent : List Byte) (st : Byte) : Dev :=
  let s := d.ses loc
  let p := d.sesPart loc
  match tget s.writing i with
  | none => d
  | some y =>
    if st = stOk then
      let d := d.modSes loc fun s => { s with writing := tdel s.writing i }
      let d :=
        if i ≥ blockIndex 0 then d.modSes loc fun s => { s with blocks := s.blocks ++ [y.storedAt] }
        else match tget s.pages i with
          | some x => (d.release p x).modSes loc fun s => { s with pages := tput s.pages i y }
          | none => d.freeRun p y.storedAt y.sectors
      (d.retable loc).parkEnd loc
    else
      let bad := (d.extentAt y.storedAt).map fun e => e.handle
      let raw := match d.readKey p y.keyId.toNat with
        | some key => openSectors key y.storedAt.toNat sent
        | none => sent
      let d := d.modSes loc fun s => { s with writing := tdel s.writing i }
      let stored : Stored := { form := y.form, format := y.format, sectors := y.sectors, bytes := raw }
      let d := if i ≥ blockIndex 0 then d.sendPage loc i y stored bad
        else match tget s.pages i with
          | some x => d.sendPage loc i x stored bad
          | none => d
      d.parkEnd loc

/-! ### Park and demotion -/

/-- A page starts on its way down: from T1 its stored form is sent or packed; a page below T1 is read first. -/
def Dev.parkPage (d : Dev) (loc i : Nat) (x : Page) : Dev :=
  let s := d.ses loc
  let h := d.sesHdr (d.sesPart loc) loc
  let st : Stored := if x.tier = 0 then storeTile s.parkPeat 2 x.format 32 h.cols x.raw
    else { form := x.form, format := x.format, sectors := x.sectors, bytes := x.data }
  let nan := s.parkPeat = 2 && x.tier = 0 && (x.format = 6 || x.format = 7) && peatQNan x.format (x.raw.take (32 * h.cols))
  let d := if nan then d.raise (some (d.sesPart loc)) 0x0413 (d.frameAddr x.frame) 2 0x102 else d
  if s.parkTier = 1 then d.packPage loc i x st
  else if x.tier ≤ 1 then d.sendPage loc i x st none
  else
    let d := d.modSes loc fun s => { s with writing := tput s.writing i x }
    d.request (d.sesPart loc) (.demotePage loc i) x.storedAt (512 * x.sectors) none

/-- Page-table blocks sent RAW ahead of the pages of a park below T1 (R157). -/
def Dev.parkBlocks (d : Dev) (loc : Nat) : Dev :=
  let s := d.ses loc
  if s.parkTier < 2 || !s.blocks.isEmpty then d
  else (tableBlocks s.pages).foldl (fun d k =>
    let bytes := (List.range 64).flatMap fun j => d.pteOf loc (64 * k + j) s.pages
    d.sendPage loc (blockIndex k) {} { form := 0, format := 0, sectors := 8, bytes := bytes } none) d

/-- Yo-yo moves a session's pages to its park tier: leading layers of tail ranges are dropped below T1 (R108), the others
are written. -/
def Dev.parkStart (d : Dev) (loc : Nat) : Dev :=
  let s := d.ses loc
  let p := d.sesPart loc
  let h := d.sesHdr p loc
  let ext := (d.parkExtents p s.parkTier).head?
  let drops := if s.parkTier < 2 then [] else
    (d.movable loc).filter fun e => e.2.tier = 0 && decide (h.layerOf e.1 < d.chooseDepth loc (h.rangeOf e.1) ext)
  let d := drops.foldl (fun d e => d.dropPage loc e.1) d
  let d := d.modSes loc fun s => { s with leftInT1 := 0, cursor := none }
  let d := if (d.movable loc).isEmpty then d else d.parkBlocks loc
  ((d.movable loc).foldl (fun d e => d.parkPage loc e.1 e.2) d).parkEnd loc

/-- A page that is being demoted was read from its old tier: it is written at the new one. A page that cannot be read stays
where it is. -/
def Dev.demoteRead (d : Dev) (loc i : Nat) (res : Except Byte (List Byte)) : Dev :=
  let s := d.ses loc
  match tget s.pages i, res with
  | some x, .ok bs =>
    let raw := match d.readKey (d.sesPart loc) x.keyId.toNat with
      | some key => openSectors key x.storedAt.toNat bs
      | none => bs
    let d := d.modSes loc fun s => { s with writing := tdel s.writing i }
    (d.sendPage loc i x { form := x.form, format := x.format, sectors := x.sectors, bytes := raw } none).parkEnd loc
  | _, _ => (d.modSes loc fun s => { s with writing := tdel s.writing i }).parkEnd loc

/-- Default park tier of a partition (Table 04.12). -/
def Dev.defaultDepth (d : Dev) (p : Nat) : Nat := d.getB (YOY_PARK_CFG_DEPTH p)

/-- Default PEAT of a partition. -/
def Dev.defaultPeat (d : Dev) (p : Nat) : Nat := d.getB (YOY_PARK_CFG_PEAT p)

/-- A session enters PARKING toward a tier and PEAT form; 0 stands for the partition's default. -/
def Dev.toParking (d : Dev) (loc tier peat : Nat) : Dev :=
  let p := d.sesPart loc
  let t := if tier = 0 then d.defaultDepth p else tier
  let q := if peat = 0 then d.defaultPeat p else peat
  (d.enter loc .parking).modSes loc fun s => { s with parkTier := t, parkPeat := q, wake := false, linger := false }

/-- Parks in flight on the device. -/
def Dev.parksBusy (d : Dev) : Nat := (d.tus.slot.filter fun e => e.2.st == .parking && !e.2.writing.isEmpty).length

/-- PARK_WRITES_START (R114): Yo-yo starts writing a parking session's pages when one of the 64 park slots is free. -/
def execParkWritesStart (loc : Nat) (s : State) : Res :=
  guarded (.parkWritesStart loc) (onDev s fun d =>
    if (d.ses loc).st = .parking && (d.ses loc).writing.isEmpty && d.parksBusy < 64 then
      (if (d.ses loc).wake then d.parkEnd loc else d.parkStart loc)
    else d)

/-- DEMOTION_TIMER (R117): a session parked at T2 goes to T3 after DEMOTE_S seconds, unless 0 forbids it. -/
def execDemotionTimer (loc : Nat) (s : State) : Res :=
  guarded (.demotionTimer loc) (onDev s fun d =>
    let x := d.ses loc
    if x.st = .parked && x.depth == 2 && d.getB (YOY_PARK_CFG_DEMOTE_S (d.sesPart loc)) != 0 && x.writing.isEmpty then
      (d.modSes loc fun s => { s with parkTier := 3, parkPeat := d.defaultPeat (d.sesPart loc) }).parkStart loc
    else d)

/-! ### Revival (R103–R106, R108, R110) -/

/-- An APPEND of the session is being read or tokenised (R25). -/
def Dev.appending (d : Dev) (loc : Nat) : Bool :=
  d.rng.descs.any fun e => e.2.op == 0x11 && hLocal e.2.d.target == loc &&
    (match e.2.st with
     | .waiting _ => true
     | _ => false)

/-- Every page of the session is in a T1 frame. -/
def Session.allHere (s : Session) : Bool := s.pages.all fun e => e.2.here

/-- Revivals in flight on the device. -/
def Dev.revivalsBusy (d : Dev) : Nat := (d.tus.slot.filter fun e => e.2.st == .reviving && !e.2.allHere).length

/-- Final completion of a REVIVE that waits on the session. -/
def Dev.endRevive (d : Dev) (loc : Nat) (st : Byte) : Dev :=
  let s := d.ses loc
  (tkeys d.rng.descs fun _ e => e.st == .waiting (.revive loc)).foldl
    (fun d k => if st = stOk then d.ok k (BitVec.ofNat 64 s.positions) (BitVec.ofNat 32 s.recount) else d.failOpen k st none) d

/-- A REVIVING session with every page present, nothing staged and nothing armed becomes IDLE at once (Table 04.4). -/
def Dev.reviveIdle (d : Dev) (loc : Nat) : Dev :=
  let s := d.ses loc
  if s.st = .reviving && s.allHere && s.staged == 0 && !s.genArmed && !d.appending loc then (d.enter loc .idle).endRevive loc stOk
  else d

/-- A revival whose pages are all present: DEPTH 0b00, table version 1, blocks let go (R157). -/
def Dev.revived (d : Dev) (loc : Nat) : Dev :=
  let s := d.ses loc
  if s.st = .reviving && s.allHere && s.fetching.isEmpty && s.depth ≠ 0 then
    let p := d.sesPart loc
    let d := s.blocks.foldl (fun d a => d.freeRun p a 8) d
    let d := d.modSes loc fun s => { s with depth := 0, dropped := 0, ptVersion := 0, blocks := [] }
    (((d.publish loc).satL (YOY_STATUS_REVIVALS p) 1)).reviveIdle loc
  else d.reviveIdle loc

/-- Extent of the tier in which a page is stored. -/
def Dev.pageExtent (d : Dev) (x : Page) : Option ExtentInfo := if x.tier ≥ 2 then d.extentAt x.storedAt else none

/-- A session restored from a Tussock snapshot has no page left: every page of its ranges is dropped (16 R436). -/
def Dev.fillDropped (d : Dev) (loc : Nat) : Dev :=
  let s := d.ses loc
  let p := d.sesPart loc
  let h := d.sesHdr p loc
  let mine := (d.serving p s.cls).elim [] fun i => d.pairs (d.job p i)
  if s.dropped ≠ 0xFFFF ∨ !s.pages.isEmpty then d
  else
    let idx := (List.range (rangesOf s.positions)).flatMap fun r => mine.map fun x => (r, h.page r x.1 x.2)
    let ps := idx.foldl (fun (t : Tbl Page) (x : Nat × Nat) =>
      tput t x.2 { dropped := true, format := h.kvFormat, rows := min 32 (s.positions - 32 * x.1), keyId := s.keyId }) []
    (d.modSes loc fun s => { s with pages := ps }).retable loc

/-- Yo-yo reserves the frames of a READY session and issues its fetches (R105, R108). With too few frames the session stays
READY and counts toward need_frames. -/
def Dev.reviveStart (d : Dev) (loc : Nat) : Dev :=
  let d := d.fillDropped loc
  let s := d.ses loc
  let p := d.sesPart loc
  let h := d.sesHdr p loc
  let need := (s.pages.filter fun e => !e.2.here).length
  if d.freeFrames p < need then
    let d := (List.range (need - d.freeFrames p)).foldl (fun d _ => d.dropCopy p) d
    d.modSes loc fun s => { s with wanted := need }
  else
    let d := d.moveFrames p 0 4 need
    let d := (d.enter loc .reviving).modSes loc fun s => { s with wanted := 0, recount := 0 }
    let deep := s.pages.filter fun e => decide (e.2.tier ≥ 2) && !e.2.dropped &&
      decide (h.layerOf e.1 < d.chooseDepth loc (h.rangeOf e.1) (d.pageExtent e.2))
    let d := deep.foldl (fun d e => d.dropPage loc e.1) d
    let far := (d.ses loc).pages.filter fun e => !e.2.dropped && e.2.tier ≠ 0
    let d := d.modSes loc fun s => { s with fetching := far.map fun e => e.1 }
    let d := s.blocks.zipIdx.foldl (fun d b => d.request p (.fetchPage loc (blockIndex b.2)) b.1 4096 none) d
    let d := far.foldl (fun d e =>
      if e.2.tier = 1 then d else d.request p (.fetchPage loc e.1) e.2.storedAt (512 * e.2.sectors) none) d
    d.revived loc

/-- A READY session below T1, of the active job, with no older one before it (R105). -/
def Dev.nextRevival (d : Dev) (loc : Nat) : Bool :=
  let p := d.sesPart loc
  let ready := d.byTime (d.sesWhere p fun s => s.st == .ready && s.depth != 0)
  ready.find? (fun l => d.isActive p l) == some loc

/-- REVIVAL_START (R105): at most 64 revivals are in flight. -/
def execRevivalStart (loc : Nat) (s : State) : Res :=
  guarded (.revivalStart loc) (onDev s fun d =>
    if d.nextRevival loc && d.revivalsBusy < 64 then d.reviveStart loc else d)

/-- A stored page cannot be read: it is treated as dropped, and its range is recomputed through its layer (R110). -/
def Dev.pageLost (d : Dev) (loc i : Nat) : Dev :=
  match tget (d.ses loc).pages i with
  | none => d
  | some x =>
    let p := d.sesPart loc
    let h := d.sesHdr p loc
    let d := d.raise (some p) 0x0310 x.storedAt 2 0x101
    let same := ((d.ses loc).pages.filter fun e => h.rangeOf e.1 == h.rangeOf i && decide (h.layerOf e.1 ≤ h.layerOf i) &&
      !e.2.here && !e.2.dropped).map fun e => e.1
    let d := same.foldl (fun d j => d.dropPage loc j) d
    d.modSes loc fun s => { s with fetching := s.fetching.filter fun j => !same.contains j && j != i }

/-- Stored sectors of a page of a revival arrived, or could not be read. -/
def Dev.fetchAck (d : Dev) (loc i : Nat) (res : Except Byte (List Byte)) : Dev :=
  let s := d.ses loc
  if i ≥ blockIndex 0 || s.st ≠ .reviving || !s.fetching.contains i then d
  else match res with
    | .ok bs => d.modSes loc fun s => { s with pages := tupd s.pages i fun x => { x with data := bs } }
    | .error _ => (d.pageLost loc i).revived loc

/-- A fetched page decoded into its reserved frame (R106, R146). -/
def Dev.decodePage (d : Dev) (loc i : Nat) : Dev :=
  let s := d.ses loc
  let p := d.sesPart loc
  let h := d.sesHdr p loc
  match tget s.pages i with
  | none => d
  | some x =>
    let res := if x.tier = 1 then
        (if crc32c x.data ≠ x.crc then .error stPoison else .ok (loadTile x.form x.format 32 h.cols x.data))
      else d.openStored p x.form x.format 32 h.cols x.keyId.toNat x.crc x.digest x.storedAt x.data
    match res with
    | .error _ => ((d.digestMismatch p x.storedAt).pageLost loc i).revived loc
    | .ok raw =>
      let (f, d) := d.newKvFrame p 4
      let d := (d.refUp p f).release p x
      let y : Page := { x with tier := 0, frame := f, form := 0, sectors := 128, data := raw, digest := crc64 raw,
                               crc := crc32c raw, storedAt := 0, off := 0 }
      let d := d.modSes loc fun s => { s with pages := tput s.pages i y, fetching := s.fetching.filter fun j => j != i }
      (d.countDecoded x.form).revived loc

/-- PEAT_DECODE_DONE (R106): a fetched page whose sectors are in, or a run in T1, is decoded. -/
def execPeatDecodeDone (loc page : Nat) (s : State) : Res :=
  guarded (.peatDecodeDone loc page) (onDev s fun d =>
    match tget (d.ses loc).pages page with
    | some x => if (d.ses loc).st = .reviving && (d.ses loc).fetching.contains page && !x.data.isEmpty then d.decodePage loc page
        else d
    | none => d)

/-! ### Recomputed pages (R109, R110; 05 R147; 06 R172) -/

/-- An entry that is held may be allotted positions again: no page is missing and its layer has risen (06 R172, 07 R194). -/
def Dev.unhold (d : Dev) (loc : Nat) : Dev :=
  let s := d.ses loc
  let p := d.sesPart loc
  let waits := match s.heldFor with
    | some (l, lv) => (tgetD (tgetD d.ari p {}).layer l {}).level ≤ lv
    | none => false
  if s.heldStep && s.allHere && !waits then d.modSes loc fun s => { s with heldStep := false, heldFor := none } else d

/-- One recomputed page put in a frame: from RESERVED during a revival, otherwise a new private one. -/
def Dev.putRecomputed (d : Dev) (loc i : Nat) (x : Page) (raw : List Byte) : Dev :=
  let s := d.ses loc
  let p := d.sesPart loc
  let h := d.sesHdr p loc
  let mx := x.format = 0x10
  let fp8 := raw.take (32 * h.cols)
  let d := if mx && peatQNan h.kvFormat fp8 then d.raise (some p) 0x0413 x.storedAt 2 0x102 else d
  let bytes := if mx then peatQ h.kvFormat fp8 else padTo tileSize raw
  let (f, d) := d.newKvFrame p (if s.st = .reviving then 4 else 0)
  let y : Page := { x with tier := 0, frame := f, off := 0, form := 0, sectors := 128, dropped := false, poison := false,
                           format := if mx then 0x10 else h.kvFormat, data := bytes, digest := crc64 bytes, crc := crc32c bytes }
  (d.refUp p f).modSes loc fun s => { s with pages := tput s.pages i y }

/-- A recomputation job wrote the dropped pages of a range through layers 0 to `depth` − 1. -/
def Dev.recomputed (d : Dev) (loc range depth : Nat) (pages : List (Nat × List Byte)) (ns : Nat) : Dev :=
  let p := d.sesPart loc
  let h := d.sesHdr p loc
  let fill := fun (d : Dev) (x : Nat × List Byte) =>
    match tget (d.ses loc).pages x.1 with
    | some y => if y.dropped && h.rangeOf x.1 == range && decide (h.layerOf x.1 < depth) then d.putRecomputed loc x.1 y x.2 else d
    | none => d
  let d := pages.foldl fill d
  let t := { d.tus with tRe := tput d.tus.tRe p (((depth, ns) :: tgetD d.tus.tRe p []).take 256) }
  let d := ({ d with tus := t }).satL (YOY_STATUS_RECOMPUTED p) 1
  let d := (d.modSes loc fun s => { s with recount := s.recount + 1 }).recountDropped loc
  (d.revived loc).unhold loc

/-- RECOMPUTE_JOB_DONE (R109): a job of a REVIVING or held session; with its history unreadable the session is FAULTED. -/
def execRecomputeJobDone (loc range depth : Nat) (pages : List (Nat × List Byte)) (ns : Nat) (historyOk : Bool) (s : State) : Res :=
  guarded (.recomputeJobDone loc range depth pages ns historyOk) (onDev s fun d =>
    let x := d.ses loc
    if x.st = .reviving || (x.st = .resident && x.heldStep) then
      (if historyOk then d.recomputed loc range depth pages ns else d.loseHistory loc stPoison)
    else d)

end Sys2Proof.Machine
end

