-- ==== Sys2Proof/Machine/Sessions.lean ====
section
/-! DEFINITION. The session opcodes 0x10–0x16 and the state changes they make (04_sessions_tussock_yoyo.md R84–R101, R459,
R461; 09_token_engine.md R250, R251, R258). -/

namespace Sys2Proof.Machine

/-! ### Token-engine state that sessions rest on (09 R250, R251) -/

/-- Token-engine state of a partition. -/
def Dev.tokp (d : Dev) (p : Nat) : TokP := tgetD d.tok p {}

/-- The device with a partition's token-engine state changed. -/
def Dev.modTok (d : Dev) (p : Nat) (f : TokP → TokP) : Dev := { d with tok := tmod d.tok p {} f }

/-- Generation record of a session. -/
def Dev.genRec (d : Dev) (loc : Nat) : GenRec := tgetD (d.tokp (d.sesPart loc)).gens loc {}

/-- A generation record changed. -/
def Dev.modGen (d : Dev) (loc : Nat) (f : GenRec → GenRec) : Dev :=
  d.modTok (d.sesPart loc) fun t => { t with gens := tmod t.gens loc {} f }

/-- The vocabulary of the job that serves a session class. -/
def Dev.vocabOf (d : Dev) (p cls : Nat) : Option Vocab := (d.serving p cls).bind fun i => (d.job p i).vocab

/-! ### Generations (R96, R97) -/

/-- The generation that a STEP_REQUEST or TOOL_WAIT body describes. -/
def genOf (k : Nat) (e : DescEntry) : Gen :=
  { desc := k, tool := e.op = 0x13, stream := e.d.flags.getLsbD 2, profile := fieldAt e.d 20 2, listSet := fieldAt e.d 22 2,
    maxTok := fieldAt e.d 16 4, outAddr := BitVec.ofNat 64 (fieldAt e.d 24 8), outSize := fieldAt e.d 32 4,
    park := (fieldAt e.d 36 1).testBit 0, depth := fieldAt e.d 37 1, peat := fieldAt e.d 38 1 }

/-- A generation is armed: its profile and list set go to the descriptor, its record is cleared but for SEED (R251). -/
def Dev.armGen (d : Dev) (loc : Nat) (g : Gen) : Dev :=
  let d := d.modSes loc fun s => { s with genArmed := true, waitArmed := false, armed := some g, listSet := g.listSet, profile := g.profile }
  d.modGen loc fun r => { seed := r.seed }

/-- Position of the last token of the history; a free value while the generation has none (Table 04.6 states none). -/
def Dev.lastPos (d : Dev) (loc : Nat) : Nat × Dev :=
  if (d.genRec loc).gen.isEmpty then let (v, d) := d.draw; (v.toNat % 2 ^ 32, d) else ((d.ses loc).hist.length - 1, d)

/-- The header of a generation's output buffer (09 R258). -/
def GenRec.header (r : GenRec) : List Byte := record [(4, r.outBytes), (4, if r.full then 1 else 0)]

/-- Text bytes given out by a generation: those that fit in OUT_SIZE, and the record with FULL set when one does not
(09 R258). -/
def GenRec.put (r : GenRec) (g : Gen) (bs : List Byte) : List Byte × GenRec :=
  let fits := if r.full then [] else bs.take (g.outSize - 8 - r.outBytes)
  (fits, { r with outBytes := r.outBytes + fits.length, full := r.full || decide (fits.length < bs.length) })

/-- Text and header written to the output buffer (09 R258, R261). -/
def Dev.writeText (d : Dev) (loc : Nat) (g : Gen) (start : Nat) (text : List Byte) (r : GenRec) : Dev :=
  let p := d.sesPart loc
  let d := if text.isEmpty then d else d.emitFor p (.hostWrite p (g.outAddr + BitVec.ofNat 64 (8 + start)) text)
  d.emitFor p (.hostWrite p g.outAddr r.header)

/-- At an end other than STOP the bytes held back are written before the final completion (09 R259). -/
def Dev.flushHeld (d : Dev) (loc : Nat) : Dev :=
  let r := d.genRec loc
  match (d.ses loc).armed with
  | none => d
  | some g =>
    if r.held.isEmpty then d
    else
      let x := ({ r with held := [] } : GenRec).put g r.held
      (d.modGen loc fun _ => x.2).writeText loc g r.outBytes x.1 x.2

/-- The armed or awaited generation ends with a status and an END_REASON: the session holds it no longer, and the final completion
is due (Table 04.6). -/
def Dev.takeGen (d : Dev) (loc reason : Nat) (st : Byte) : Dev × List Due :=
  let d := d.flushHeld loc
  let n := (d.genRec loc).gen.length
  let (pos, d) := d.lastPos loc
  let ks := tkeys d.rng.descs fun _ e => e.st == .waiting (.generation loc)
  let d := d.modSes loc fun s => { s with genArmed := false, waitArmed := false, armed := none }
  let (r, x, d) := d.openPair
  let ok := st.toNat < 0x10
  (d, ks.map fun k => { desc := k, st := st, result := if ok then BitVec.ofNat 64 (pos + reason * 2 ^ 32) else r,
                        detail := if ok then BitVec.ofNat 32 n else x, final := true })

/-- Completions that are due, written. -/
def Dev.payDue (d : Dev) (xs : List Due) : Dev :=
  xs.foldl (fun d x => if x.final then d.fail x.desc x.st x.result x.detail else d.progress x.desc x.result x.detail) d

/-- The generation ends now. -/
def Dev.endGen (d : Dev) (loc reason : Nat) (st : Byte) : Dev :=
  let (d, xs) := d.takeGen loc reason st
  d.payDue xs

/-! ### SESSION_OPEN (R95, R460; 10 R287) -/

/-- HIST_REGION meets R460. -/
def Region.isHistory (r : Region) : Bool := !r.wback && r.kind == 5 && !r.weight && r.homeTier != 1

/-- MEM_INDEX names no index, or a memory-class index of the partition (10 R287). -/
def Dev.memIndexOk (d : Dev) (p i : Nat) : Bool :=
  i == 0xFFFFFFFF || (tget d.red.index i).any fun x => x.part == p && x.memory

/-- Sessions that name an index. -/
def Dev.nameIndex (d : Dev) (i : Nat) (up : Bool) : Dev :=
  let f := fun (x : Index) => { x with names := if up then x.names + 1 else x.names - 1 }
  { d with red := { d.red with index := tupd d.red.index i f } }

/-- Checks of SESSION_OPEN (Table 04.6): a stale handle in HIST_REGION by 05 R128, a region that is not as R460 asks. -/
def chkSessionOpen (d : Dev) (p : Nat) (x : Desc) : Byte :=
  let h := BitVec.ofNat 64 (fieldAt x 24 8)
  if fieldAt x 16 1 > 63 ∨ !d.memIndexOk p (fieldAt x 32 4) then stBad
  else if d.regionStatus p h ≠ stOk then d.regionStatus p h
  else match d.region (hRegion h) with
    | some r => if r.isHistory then stOk else stBad
    | none => stBad

/-- SESSION_OPEN applied: the slot's generation rises and the session is IDLE with no page table. -/
def doSessionOpen (d : Dev) (k : Nat) (e : DescEntry) : Dev :=
  let p := e.part
  let keyId := fieldAt e.d 20 2
  let hr := hRegion (BitVec.ofNat 64 (fieldAt e.d 24 8))
  let mem := fieldAt e.d 32 4
  if (d.storeKey p keyId).isNone then d.refuse k stWrong
  else match (tgetD d.tus.numbers p {}).take (d.getF (TUS_PART_FIRST p)) (d.getF (TUS_PART_COUNT p)), d.region hr with
    | some (loc, nums), some r =>
      let g := nextGen (d.ses loc).gen 0x7FFFFFF
      let h := mkHandle d.id p g loc
      let s : Session :=
        { gen := g, st := .idle, pin := (fieldAt e.d 18 1).testBit 0, cls := fieldAt e.d 16 1, prio := fieldAt e.d 17 1 % 4,
          keyId := BitVec.ofNat 16 keyId, histAddr := d.tileAddr r 0, stateTime := d.clock.now,
          memIndex := BitVec.ofNat 32 mem, histReg := hr }
      let d := (d.tussockAccess).setSes loc s
      let d := { d with tus := { d.tus with numbers := tput d.tus.numbers p nums } }
      let d := if mem = 0xFFFFFFFF then d else d.nameIndex mem true
      (d.modTok p fun t => { t with gens := tput t.gens loc {} }).ok k h 0
    | _, _ => d.refuse k stLimit

/-- SESSION_OPEN (R95). -/
def execSessionOpen (ring : Nat) (x : Desc) (s : State) : Res :=
  guarded (.sessionOpen ring x) (onDev s fun d => d.runOp 0x10 ring x chkSessionOpen doSessionOpen)

/-! ### APPEND (R97–R99; 09 R243, R244, R250) -/

/-- Work reaches a session (Table 04.4): what APPEND, STEP_REQUEST and REVIVE do to its state. -/
def Dev.workArrives (d : Dev) (loc : Nat) : Dev :=
  let s := d.ses loc
  match s.st with
  | .idle => d.enter loc .ready
  | .parked => d.enter loc .ready
  | .parking => (d.modSes loc fun s => { s with wake := true }).parkEnd loc
  | .waiting => if s.inBatch then d.enter loc .resident else d.enter loc .ready
  | .resident => d.modSes loc fun s => { s with linger := false, ended := false }
  | _ => d

/-- The device reads an APPEND's bytes from host memory. -/
def Dev.readAppend (d : Dev) (k : Nat) : Dev :=
  match tget d.rng.descs k with
  | none => d
  | some e => (d.emitFor e.part (.hostRead e.part (BitVec.ofNat 64 (fieldAt e.d 16 8)) (fieldAt e.d 24 4))).wait k .hostRead

/-- An APPEND has completed: the session's next one is read (09 R243); a session left with nothing to do goes on as R99 and
Table 04.4 say. -/
def Dev.appendEnd (d : Dev) (loc : Nat) : Dev :=
  let waits := tkeys d.rng.descs fun _ e => e.st == .waiting (.tokenise loc)
  match waits with
  | k :: _ => d.readAppend k
  | [] =>
    let s := d.ses loc
    if s.st = .ready && s.depth == 0 && s.staged == 0 && !s.genArmed && !s.waitArmed then d.enter loc .idle
    else d.reviveIdle loc

/-- Checks of APPEND (Table 04.5, 09 R244). -/
def chkAppend (d : Dev) (p : Nat) (x : Desc) : Byte :=
  let len := fieldAt x 24 4
  let role := fieldAt x 29 1
  if d.sessionStatus p x.target ≠ stOk then d.sessionStatus p x.target
  else if len = 0 ∨ len > 16777216 ∨ role ≥ 64 ∨ (role % 16 = 0 ∧ role ≥ 16) then stBad
  else stOk

/-- A session state admits an APPEND (R98). -/
def Session.admitsAppend (s : Session) : Bool :=
  match s.st with
  | .free => false
  | .closing => false
  | .faulted => false
  | .resident => !s.genArmed
  | _ => true

/-- APPEND applied by Tussock. A restored session whose key is not installed yet answers WRONG_STATE (16 R436), here and below. -/
def doAppend (d : Dev) (k : Nat) (e : DescEntry) : Dev :=
  let p := e.part
  let loc := hLocal e.d.target
  let s := d.ses loc
  let d := d.tussockAccess
  if d.tenantGone p s.keyId.toNat then d.refuse k stTenant
  else if !s.admitsAppend || (d.key p s.keyId.toNat).isNone || (d.tokp p).bound.isNone || d.classMax p s.cls == 0 || (d.vocabOf p s.cls).isNone then d.refuse k stWrong
  else
    let busy := d.appending loc
    let d := d.workArrives loc
    if busy then d.wait k (.tokenise loc) else d.readAppend k

/-- APPEND (R98). -/
def execAppend (ring : Nat) (x : Desc) (s : State) : Res :=
  guarded (.append ring x) (onDev s fun d => d.runOp 0x11 ring x chkAppend doAppend)

/-! ### STEP_REQUEST, TOOL_WAIT (R96–R98, R459) -/

/-- Checks of STEP_REQUEST and TOOL_WAIT (Table 04.5; 09 R258, R262). -/
def chkGen (d : Dev) (p : Nat) (x : Desc) (tool : Bool) : Byte :=
  let set := fieldAt x 22 2
  if d.sessionStatus p x.target ≠ stOk then d.sessionStatus p x.target
  else if fieldAt x 16 4 = 0 ∨ fieldAt x 16 4 > 1048576 ∨ fieldAt x 24 8 % 8 ≠ 0 ∨ fieldAt x 32 4 < 8 ∨ fieldAt x 20 2 > 4095 ∨
      (set ≠ 0xFFFF ∧ (tget (d.tokp p).sets set).isNone) ∨ (tool ∧ (fieldAt x 37 1 > 3 ∨ fieldAt x 38 1 > 2)) then stBad
  else stOk

/-- STEP_REQUEST applied. -/
def doStepRequest (d : Dev) (k : Nat) (e : DescEntry) : Dev :=
  let p := e.part
  let loc := hLocal e.d.target
  let s := d.ses loc
  let d := d.tussockAccess
  if d.tenantGone p s.keyId.toNat then d.refuse k stTenant
  else if (d.window p).failed then d.refuse k stWeight
  else if s.genArmed || s.waitArmed || s.positions + s.staged == 0 || (d.key p s.keyId.toNat).isNone || (d.tokp p).bound.isNone ||
      !(s.st == .idle || s.st == .parked || s.st == .parking || s.st == .resident) then d.refuse k stWrong
  else ((d.armGen loc (genOf k e)).workArrives loc).wait k (.generation loc)

/-- STEP_REQUEST (R98). -/
def execStepRequest (ring : Nat) (x : Desc) (s : State) : Res :=
  guarded (.stepRequest ring x) (onDev s fun d => d.runOp 0x12 ring x (fun d p x => chkGen d p x false) doStepRequest)

/-- TOOL_WAIT applied. -/
def doToolWait (d : Dev) (k : Nat) (e : DescEntry) : Dev :=
  let p := e.part
  let loc := hLocal e.d.target
  let s := d.ses loc
  let d := d.tussockAccess
  if d.tenantGone p s.keyId.toNat then d.refuse k stTenant
  else if (d.window p).failed then d.refuse k stWeight
  else if s.genArmed || s.waitArmed || (d.tokp p).bound.isNone || !(s.st == .idle || s.st == .resident) then d.refuse k stWrong
  else
    let d := (d.enter loc .waiting).modSes loc fun s =>
      { s with waitArmed := true, armed := some (genOf k e), linger := false, ended := false, fromIdle := !s.inBatch }
    d.wait k (.generation loc)

/-- TOOL_WAIT (R97). -/
def execToolWait (ring : Nat) (x : Desc) (s : State) : Res :=
  guarded (.toolWait ring x) (onDev s fun d => d.runOp 0x13 ring x (fun d p x => chkGen d p x true) doToolWait)

/-! ### PARK, REVIVE (R101, R461) -/

/-- PARK applied. -/
def doPark (d : Dev) (k : Nat) (e : DescEntry) : Dev :=
  let p := e.part
  let loc := hLocal e.d.target
  let s := d.ses loc
  let tier := if fieldAt e.d 16 1 = 0 then d.defaultDepth p else fieldAt e.d 16 1
  let peat := fieldAt e.d 17 1
  let d := d.tussockAccess
  if d.tenantGone p s.keyId.toNat then d.refuse k stTenant
  else if s.pin then d.refuse k stWrong
  else if s.st = .idle || (s.st = .waiting && !s.inBatch) then (d.toParking loc tier peat).wait k (.park loc)
  else if s.st = .parked && tier > s.depth && s.writing.isEmpty then
    let q := if peat = 0 then d.defaultPeat p else peat
    let d := (d.modSes loc fun s => { s with parkTier := tier, parkPeat := q }).wait k (.park loc)
    d.parkStart loc
  else d.refuse k stWrong

/-- PARK (R101). -/
def execPark (ring : Nat) (x : Desc) (s : State) : Res :=
  guarded (.park ring x) (onDev s fun d =>
    d.runOp 0x14 ring x
      (fun d p x =>
        if d.sessionStatus p x.target ≠ stOk then d.sessionStatus p x.target
        else if fieldAt x 16 1 > 3 ∨ fieldAt x 17 1 > 2 then stBad else stOk)
      doPark)

/-- REVIVE applied. With RECOMPUTE_ALL a parked session's stored pages are freed first, and a FAULTED session recomputes
every range from its history (R461). -/
def doRevive (d : Dev) (k : Nat) (e : DescEntry) : Dev :=
  let p := e.part
  let loc := hLocal e.d.target
  let s := d.ses loc
  let all := (fieldAt e.d 16 1).testBit 0
  let d := d.tussockAccess
  if d.tenantGone p s.keyId.toNat then d.refuse k stTenant
  else if (d.key p s.keyId.toNat).isNone then d.refuse k stWrong
  else match s.st with
    | .parked =>
      let d := if all then (d.dropAll loc).1 else d
      (d.workArrives loc).wait k (.revive loc)
    | .parking => ((d.modSes loc fun s => { s with reviveAll := s.reviveAll || all }).wait k (.revive loc)).workArrives loc
    | .faulted =>
      if all then
        let d := (d.dropAll loc).1
        let need := ((d.ses loc).pages.filter fun x => !x.2.here).length
        if d.freeFrames p < need then ((d.enter loc .ready).modSes loc fun s => { s with depth := 1, wanted := need }).wait k (.revive loc)
        else ((d.modSes loc fun s => { s with depth := max 1 s.depth }).wait k (.revive loc)).reviveStart loc
      else d.refuse k stWrong
    | _ => d.refuse k stWrong

/-- REVIVE (R461). -/
def execRevive (ring : Nat) (x : Desc) (s : State) : Res :=
  guarded (.revive ring x) (onDev s fun d => d.runOp 0x15 ring x (fun d p x => d.sessionStatus p x.target) doRevive)

/-! ### CLOSE (R93) -/

/-- The pages, stored runs, reserved frames and carry of a closing session let go; how many pages. -/
def Dev.closePages (d : Dev) (loc : Nat) : Dev × Nat :=
  let s := d.ses loc
  let p := d.sesPart loc
  let d := d.discardVersion loc
  let reserved := if s.wanted = 0 ∧ s.fetching ≠ [] then (s.pages.filter fun e => !e.2.here).length else 0
  let d := if reserved = 0 then d else d.moveFrames p 4 0 reserved
  let d := s.writing.foldl (fun d e => d.freeRun p e.2.storedAt e.2.sectors) d
  let d := s.blocks.foldl (fun d a => d.freeRun p a 8) d
  let (d, n) := d.releasePages loc fun _ _ => true
  let d := d.modSes loc fun s => { s with carry := [], blocks := [], writing := [], fetching := [], staged := 0 }
  (d.publish loc, n)

/-- CLOSE applied: at once, or at E11 when the session is in the batch. -/
def doClose (d : Dev) (k : Nat) (e : DescEntry) : Dev :=
  let loc := hLocal e.d.target
  let s := d.ses loc
  let d := d.tussockAccess
  if s.st = .closing then d.refuse k stWrong
  else
    let d := if s.genArmed || s.waitArmed then d.endGen loc 4 stOk else d
    let others := (d.sesDescs loc).filter fun j => j != k
    let d := others.foldl (fun d j => d.failOpen j stWrong none) d
    let d := d.enter loc .closing
    if s.inBatch then d.wait k (.close loc)
    else
      let (d, n) := d.closePages loc
      (d.modDesc k fun e => { e with detail := BitVec.ofNat 32 n }).wait k (.close loc)

/-- CLOSE (R93). -/
def execClose (ring : Nat) (x : Desc) (s : State) : Res :=
  guarded (.close ring x) (onDev s fun d => d.runOp 0x16 ring x (fun d p x => d.sessionStatus p x.target) doClose)

end Sys2Proof.Machine
end

