-- ==== Sys2Proof/Machine/Token.lean ====
section
/-! DEFINITION. The token engine: vocabularies, tokenisation, choosing a token, output bytes, and the opcodes 0x50–0x57
(09_token_engine.md R238–R267). -/

namespace Sys2Proof.Machine

/-! ### Cache and token region (R241, R250) -/

/-- Look-ups in the vocabulary cache: how many hit or miss is not specified (R241; log 10). -/
def Dev.vocabAccess (d : Dev) : Dev :=
  let (h, d) := d.draw
  let (m, d) := d.draw
  (d.addF TOK_CACHE_STATS_HITS h.toNat).addF TOK_CACHE_STATS_MISSES m.toNat

/-- Tiles that a token region needs (R250). -/
def tokTiles (count : Nat) : Nat := 6 + ceilDiv count 1024

/-- Bytes of a class record (Table 09.3). -/
def ClassRec.bytes (c : ClassRec) : List Byte :=
  padTo 64 (record [(4, c.contextMax), (4, c.appendMax), (4, c.headKeep), (4, c.tailKeep), (4, c.elision)])

/-- Bytes of a sampling profile, as the PROFILE_SET body from offset 20. -/
def Profile.bytes (x : Profile) : List Byte :=
  padTo 64 (record [(4, x.temp.toNat), (4, x.topP.toNat), (4, x.topK), (1, if x.skip then 1 else 0)])

/-- Bytes of a generation record (Table 09.4). -/
def GenRec.bytes (r : GenRec) : List Byte :=
  let force := match r.forced with
    | some (i, n) => i + n * 2 ^ 16 + 2 ^ 31
    | none => 0
  record [(4, r.gen.length), (4, r.outBytes), (4, if r.gen.isEmpty then 0 else (Config.banState r.gen).toNat), (4, force),
          (1, r.held.length), (7, 0), (8, r.seed.toNat)] ++ padTo 32 r.held

/-- Bytes of a tile of the bound token region (Table 09.3). COUNT of a list-directory entry stands at its natural
alignment (log 24). -/
def Dev.tokTile (d : Dev) (p t : Nat) : List Byte :=
  let x := tgetD d.tok p {}
  let bytes :=
    if t = 0 then
      (List.range 64).flatMap (fun i => (tgetD x.cls i {}).bytes) ++
      (List.range 4096).flatMap fun i =>
        match tget x.sets i with
        | some (a, b, c) => record [(2, a), (2, b), (2, c), (2, 0)]
        | none => List.replicate 8 0
    else if t = 1 then
      (List.range 4096).flatMap fun i =>
        match tget x.lists i with
        | some l => record [(8, (d.regionHandle l.region).toNat), (1, l.kind), (3, 0), (4, l.records.length)]
        | none => List.replicate 16 0
    else if t < 6 then (List.range 1024).flatMap fun i => (tgetD x.profile (1024 * (t - 2) + i) {}).bytes
    else (List.range 1024).flatMap fun i =>
      (tgetD x.gens (d.getF (TUS_PART_FIRST p) + 1024 * (t - 6) + i) {}).bytes
  padTo tileSize bytes

/-- A tile of a T1 region that an engine writes, content and digests given: copied first when protected. -/
def Dev.engineTileWith (d : Dev) (n t : Nat) (raw : List Byte) (digest : U64) (crc : U32) : Dev :=
  let d := d.touch n t
  let (a, d) := match d.region n with
    | some r => if (r.at t).gen = 0 then d.newFrame else ((r.at t).storedAt, d)
    | none => (0, d)
  d.modTile n t fun x => { x with gen := x.gen + 1, data := raw, digest := digest, crc := crc, storedAt := a, tier := 1, bad := 0 }

/-- A tile of a T1 region that an engine writes. -/
def Dev.engineTile (d : Dev) (n t : Nat) (raw : List Byte) : Dev := d.engineTileWith n t raw (crc64 raw) (crc32c raw)

/-- A tile of the bound token region follows the engine's records. -/
def Dev.syncTok (d : Dev) (p t : Nat) : Dev :=
  match (d.tokp p).bound with
  | some n => d.engineTile n t (d.tokTile p t)
  | none => d

/-- Tile of the token region that holds a session's generation record. -/
def Dev.genTile (d : Dev) (loc : Nat) : Nat := 6 + (loc - d.getF (TUS_PART_FIRST (d.sesPart loc))) / 1024

/-! ### UTF-8 (R242) -/

/-- Ranges that the bytes after a first byte must lie in (RFC 3629); none for a byte that cannot begin a sequence. -/
def utf8Ranges (b : Nat) : Option (List (Nat × Nat)) :=
  if b < 0x80 then some []
  else if 0xC2 ≤ b ∧ b ≤ 0xDF then some [(0x80, 0xBF)]
  else if b = 0xE0 then some [(0xA0, 0xBF), (0x80, 0xBF)]
  else if b = 0xED then some [(0x80, 0x9F), (0x80, 0xBF)]
  else if 0xE1 ≤ b ∧ b ≤ 0xEF then some [(0x80, 0xBF), (0x80, 0xBF)]
  else if b = 0xF0 then some [(0x90, 0xBF), (0x80, 0xBF), (0x80, 0xBF)]
  else if 0xF1 ≤ b ∧ b ≤ 0xF3 then some [(0x80, 0xBF), (0x80, 0xBF), (0x80, 0xBF)]
  else if b = 0xF4 then some [(0x80, 0x8F), (0x80, 0xBF), (0x80, 0xBF)]
  else none

/-- Continuation bytes that fit their ranges, in order: how many fit, and whether the input ended before all were there. -/
def utf8Follow : List (Nat × Nat) → List Byte → Nat × Bool
  | [], _ => (0, false)
  | _ :: _, [] => (0, true)
  | (lo, hi) :: rs, b :: bs =>
    if lo ≤ b.toNat ∧ b.toNat ≤ hi then let x := utf8Follow rs bs; (x.1 + 1, x.2) else (0, false)

/-- Code point of a whole sequence of bytes. -/
def utf8Value (b : Nat) (cont : List Byte) : Nat :=
  let top := match cont.length with
    | 0 => b
    | 1 => b % 32
    | 2 => b % 16
    | _ => b % 8
  cont.foldl (fun a c => a * 64 + c.toNat % 64) top

/-- The replacement character. -/
def uFFFD : Nat := 0xFFFD

/-- Code points, replacements and bytes held over; the fuel is the number of bytes plus one. With `fin` an incomplete
sequence at the end is replaced instead of held. -/
def utf8Decode (fin : Bool) : Nat → List Byte → List Nat × Nat × List Byte
  | 0, _ => ([], 0, [])
  | _, [] => ([], 0, [])
  | f + 1, b :: bs =>
    match utf8Ranges b.toNat with
    | none =>
      let x := utf8Decode fin f bs
      (uFFFD :: x.1, x.2.1 + 1, x.2.2)
    | some rs =>
      let q := utf8Follow rs bs
      if q.2 && !fin then ([], 0, b :: bs)
      else
        let x := utf8Decode fin f (bs.drop q.1)
        if q.1 = rs.length then (utf8Value b.toNat (bs.take q.1) :: x.1, x.2)
        else (uFFFD :: x.1, x.2.1 + 1, x.2.2)

/-- UTF-8 bytes of a code point. -/
def utf8Encode (c : Nat) : List Byte :=
  let k := fun (n : Nat) => BitVec.ofNat 8 (0x80 + n % 64)
  if c < 0x80 then [BitVec.ofNat 8 c]
  else if c < 0x800 then [BitVec.ofNat 8 (0xC0 + c / 64), k c]
  else if c < 0x10000 then [BitVec.ofNat 8 (0xE0 + c / 4096), k (c / 64), k c]
  else [BitVec.ofNat 8 (0xF0 + c / 262144), k (c / 4096), k (c / 64), k c]

/-! ### Pieces and merges (R245, R246) -/

/-- A code point with its marks: class and bytes. -/
abbrev Cluster := Nat × List Byte

/-- Code points joined with the class 5 ones that follow them (rule 1). -/
def clusters (v : Vocab) : List Nat → List Cluster → List Cluster
  | [], acc => acc.reverse
  | c :: cs, acc =>
    let k := tgetD v.classes c 4
    match acc with
    | (a, bs) :: r => if k = 5 then clusters v cs ((a, bs ++ utf8Encode c) :: r) else clusters v cs ((k, utf8Encode c) :: acc)
    | [] => clusters v cs [(k, utf8Encode c)]

/-- Runs of one class (rule 2). -/
def classRuns : List Cluster → List (Nat × List Cluster)
  | [] => []
  | c :: cs =>
    match classRuns cs with
    | (k, r) :: rest => if k = c.1 then (k, c :: r) :: rest else (c.1, [c]) :: (k, r) :: rest
    | [] => [(c.1, [c])]

/-- A single space before a run of class 0, 1 or 4 starts that run (rule 3). -/
def moveSpaces : List (Nat × List Cluster) → List (Nat × List Cluster)
  | [] => []
  | (k, r) :: rest =>
    match moveSpaces rest with
    | (j, q) :: tail =>
      if k = 2 ∧ (j = 0 ∨ j = 1 ∨ j = 4) ∧ r.getLast? = some (2, [0x20]) then
        (k, r.dropLast) :: (j, (2, [0x20]) :: q) :: tail
      else (k, r) :: (j, q) :: tail
    | [] => [(k, r)]

/-- A digit piece cut into groups of `g` digits from its left; a space that rule 3 moved stays with the first group
(DEDUCED, log 24). -/
def digitGroups (g : Nat) : Nat → List Cluster → List Cluster → List (List Cluster)
  | _, [], cur => if cur.isEmpty then [] else [cur.reverse]
  | n, c :: cs, cur =>
    if c.1 = 1 then
      (if n = g then cur.reverse :: digitGroups g 1 cs [c] else digitGroups g (n + 1) cs (c :: cur))
    else digitGroups g n cs (c :: cur)

/-- A piece cut at its last boundary at or before `top` bytes, repeatedly (rule 5). -/
def cutPiece (top : Nat) : List Cluster → List Byte → List (List Byte)
  | [], cur => if cur.isEmpty then [] else [cur]
  | c :: cs, cur =>
    if !cur.isEmpty && decide (cur.length + c.2.length > top) then cur :: cutPiece top cs c.2
    else cutPiece top cs (cur ++ c.2)

/-- Pieces of a text. -/
def pieces (v : Vocab) (cps : List Nat) : List (List Byte) :=
  let cl := clusters v cps []
  let ps :=
    if v.pretok = 0 then [cl]
    else (moveSpaces (classRuns cl)).flatMap fun x =>
      if x.1 = 1 ∧ v.digits > 0 then digitGroups v.digits 0 x.2 [] else [x.2]
  ps.flatMap fun x => cutPiece v.pieceMax x []

/-- The leftmost pair (a, b) of a list replaced. -/
def replacePair (a b r : Nat) : List Nat → List Nat
  | x :: y :: t => if x = a ∧ y = b then r :: t else x :: replacePair a b r (y :: t)
  | t => t

/-- A pair stands side by side in a list. -/
def hasPair (a b : Nat) : List Nat → Bool
  | x :: y :: t => (x == a && y == b) || hasPair a b (y :: t)
  | _ => false

/-- Merges of one piece; each round shortens the list, so its length is enough fuel. -/
def mergePiece (ms : List (Nat × Nat × Nat)) : Nat → List Nat → List Nat
  | 0, t => t
  | f + 1, t =>
    match ms.find? fun m => hasPair m.1 m.2.1 t with
    | some m => mergePiece ms f (replacePair m.1 m.2.1 m.2.2 t)
    | none => t

/-- Tokens of a text. -/
def textTokens (v : Vocab) (cps : List Nat) : List Nat :=
  (pieces v cps).flatMap fun x => mergePiece v.merges x.length (x.map BitVec.toNat)

/-- Truncation to APPEND_MAX (R248). -/
def truncate (c : ClassRec) (t : List Nat) : List Nat × Bool :=
  if t.length ≤ c.appendMax then (t, false)
  else (t.take c.headKeep ++ [c.elision] ++ t.drop (t.length - c.tailKeep), true)

/-- Tokens that APPEND's ROLE places before and after its text (R244). -/
def roleTokens (v : Vocab) (role : Nat) : List Nat × List Nat :=
  let r := v.roles.getD (role % 16) ([], [])
  (if role.testBit 4 then r.1 else [], if role.testBit 5 then r.2 else [])

/-! ### APPEND is tokenised (R242–R249; 04 R97, R99, R460) -/

/-- Session of an APPEND. -/
def appendLoc (e : DescEntry) : Nat := hLocal e.d.target

/-- The tokens of an APPEND stand in the history: they are staged, and the APPEND completes. The entry's data hold the
number of carried bytes, those bytes, and the tokens. -/
def Dev.appendDone (d : Dev) (k : Nat) : Dev :=
  match tget d.rng.descs k with
  | none => d
  | some e =>
    let loc := appendLoc e
    let p := e.part
    let nc := leAt e.data 0 1
    let n := (e.data.length - 1 - nc) / 4
    let s := d.ses loc
    let d := d.modSes loc fun s => { s with staged := s.staged + n, carry := (e.data.drop 1).take nc }
    let d := ((d.satL (TOK_INPUT_TOKENS_IN p) n).satL (TOK_INPUT_REPLACED p) e.detail.toNat).satL (TOK_INPUT_TRUNCATED p)
      (if e.status = stTruncated then 1 else 0)
    let d := match (if (fieldAt e.d 28 1).testBit 0 && s.waitArmed then s.armed else none) with
      | some g => let d := d.armGen loc g; d.syncTok p (d.genTile loc)
      | none => d
    (d.finish k e.status (BitVec.ofNat 64 (s.positions + s.staged + n)) e.detail false).appendEnd loc

/-- The bytes of an APPEND arrived: decoded, tokenised, truncated, checked against the context limit, and written to the
history. -/
def Dev.appendArrived (d : Dev) (k : Nat) (bytes : List Byte) : Dev :=
  match tget d.rng.descs k with
  | none => d
  | some e =>
    let loc := appendLoc e
    let p := e.part
    let s := d.ses loc
    let c := tgetD (d.tokp p).cls s.cls {}
    match d.vocabOf p s.cls with
    | none => (d.refuse k stWrong).appendEnd loc
    | some v =>
      let d := d.vocabAccess
      let u := utf8Decode ((fieldAt e.d 28 1).testBit 0) (s.carry.length + bytes.length + 1) (s.carry ++ bytes)
      let t := truncate c (textTokens v u.1)
      let r := roleTokens v (fieldAt e.d 29 1)
      let toks := r.1 ++ t.1 ++ r.2
      if s.positions + s.staged + toks.length > d.contextLimit p loc then (d.refuse k stLimit).appendEnd loc
      else
        let st := if t.2 then stTruncated else if u.2.1 > 0 then stReplaced else stOk
        let data := BitVec.ofNat 8 u.2.2.length :: u.2.2 ++ toks.flatMap fun x => leBytes 4 x
        let d := d.modDesc k fun e => { e with data := data, status := st, detail := BitVec.ofNat 32 u.2.1 }
        if toks.isEmpty then d.appendDone k
        else
          let d := d.modSes loc fun s => { s with hist := s.hist ++ toks.map fun x => BitVec.ofNat 32 x }
          let (d, w) := d.writeHistory loc (s.positions + s.staged) toks.length (some k)
          d.wait k (.requests w)

/-- The history write of an APPEND failed: it completes with the write's status and stages nothing (04 R460). -/
def Dev.appendFailed (d : Dev) (k : Nat) (st : Byte) : Dev :=
  match tget d.rng.descs k with
  | none => d
  | some e =>
    let loc := appendLoc e
    let d := d.modSes loc fun s => { s with hist := s.hist.take (s.positions + s.staged) }
    (d.failOpen k st none).appendEnd loc

/-! ### Choosing a token (R252–R256) -/

/-- Records of the lists of a session's list set: banned, forced, stop. -/
def Dev.listsOf (d : Dev) (loc : Nat) : List (Nat × List Nat) × List (Nat × List Nat) × List (Nat × List Nat) :=
  let t := d.tokp (d.sesPart loc)
  let recs := fun (n : Nat) => ((tget t.lists n).map fun l => l.records).getD []
  match tget t.sets (d.ses loc).listSet with
  | some (a, b, c) => (recs a, recs b, recs c)
  | none => ([], [], [])

/-- The tokens of a generation end with a sequence. -/
def endsWith (gen x : List Nat) : Bool := decide (x.length ≤ gen.length) && gen.drop (gen.length - x.length) == x

/-- Tokens that the banned list masks (R254). -/
def bannedMask (gen : List Nat) (ban : List (Nat × List Nat)) : List Nat :=
  ban.filterMap fun b => if endsWith gen b.2.dropLast then b.2.getLast? else none

/-- The forced tail that runs or starts: sequence index and tail position of the next token (R252, R255). -/
def forcedTail (g : GenRec) (fs : List (Nat × List Nat)) : Option (Nat × Nat) :=
  match g.forced with
  | some x => some x
  | none =>
    let hits := fs.zipIdx.filter fun f => endsWith g.gen (f.1.2.take f.1.1)
    (hits.foldl (fun (best : Option (Nat × Nat)) f =>
      match best with
      | some (i, t) => if f.1.1 > t then some (f.2, f.1.1) else some (i, t)
      | none => some (f.2, f.1.1)) none)

/-- Token at a tail position. -/
def tailToken (fs : List (Nat × List Nat)) (x : Nat × Nat) : Nat := ((fs.getD x.1 (0, [])).2).getD x.2 0

/-- The tail after a token of it is emitted: still running, or ended. -/
def tailNext (fs : List (Nat × List Nat)) (x : Nat × Nat) : Option (Nat × Nat) :=
  if x.2 + 1 < (fs.getD x.1 (0, [])).2.length then some (x.1, x.2 + 1) else none

/-- draw of R256, in units of 2^−24. -/
def drawOf (seed : U64) (pos : Nat) : Nat :=
  let x := seed ^^^ (BitVec.ofNat 64 pos * 0x9E3779B97F4A7C15)
  let x := (x ^^^ (x >>> 30)) * 0xBF58476D1CE4E5B9
  let x := (x ^^^ (x >>> 27)) * 0x94D049BB133111EB
  let x := x ^^^ (x >>> 31)
  x.toNat / 2 ^ 40

/-- Candidates inserted by value descending, then ID ascending. -/
def insertCand (x : Nat × U32) : List (Nat × U32) → List (Nat × U32)
  | [] => [x]
  | y :: r => if (f32 y.2).lt (f32 x.2) then x :: y :: r else y :: insertCand x r

/-- Running sums in FP32 in candidate order. -/
def runningSums : U32 → List U32 → List U32
  | _, [] => []
  | a, w :: r => fadd a w :: runningSums (fadd a w) r

/-- log2(e) in FP32. -/
def log2e : U32 := 0x3FB8AA3B

/-- FP32 quotient of finite words, rounded to nearest even; NaN by zero. -/
def fdiv (a b : U32) : U32 :=
  match f32 a, f32 b with
  | .fin s m e, .fin t n g =>
    if n = 0 then toF32 .nan
    else
      let q := m * 2 ^ 64 / n
      let sticky := if m * 2 ^ 64 % n = 0 then 0 else 1
      toF32 (.fin (s != t) (2 * q + sticky) (e - g - 65))
  | _, _ => toF32 .nan

/-- The token that R256 picks among ordered candidates, given u in units of 2^−24. Products are compared exactly (DEDUCED,
log 25). -/
def pickCand (pf : Profile) (cs : List (Nat × U32)) (u : Nat) : Nat :=
  match cs with
  | [] => 0
  | c :: _ =>
    let ws := cs.map fun x => Config.exp2 (fdiv (fmul (fsub x.2 c.2) log2e) pf.temp)
    let sums := runningSums 0 ws
    let total := f32 (sums.getLastD 0)
    let full := sums.length
    let n := if (f32 pf.topP).lt (.fin false 1 0) then
        ((List.range full).find? fun j => !(f32 (sums.getD j 0)).lt ((f32 pf.topP).mul total)).elim full fun j => j + 1
      else full
    let total := f32 (sums.getD (n - 1) 0)
    let j := ((List.range n).find? fun j => ((Num.fin false u (-24)).mul total).lt (f32 (sums.getD j 0))).getD (n - 1)
    (cs.getD j (0, 0)).1

/-- Whether every logit is −inf. -/
def allMasked (z : List (Nat × U32)) : Bool := z.all fun x => f32 x.2 == .inf true

/-- sample of R256 over unmasked logits. Logits of which none is finite though not all are −inf give a free token: the
manual states none (log 25). -/
def Dev.sampleToken (d : Dev) (p : Nat) (v : Vocab) (pf : Profile) (seed : U64) (pos : Nat) (z : List (Nat × U32)) : Nat × Dev :=
  if allMasked z then
    (v.eos, (d.flag TOK_STATUS_ALL_MASKED TOK_STATUS_ALL_MASKED_COUNT).raiseOpen (some p) 0x0810 0x103)
  else if (f32 pf.temp == .fin false 0 (-149)) || (f32 pf.temp == .fin true 0 (-149)) then
    ((z.foldl (fun (b : Nat × U32) x => if (f32 b.2).lt (f32 x.2) then x else b) (z.headD (0, 0))).1, d)
  else
    let cs := (z.filter fun x => (f32 x.2).finite).foldl (fun l x => insertCand x l) []
    let cs := if pf.topK = 0 then cs else cs.take pf.topK
    if cs.isEmpty then let (w, d) := d.draw; (w.toNat % max 1 v.tokens.length, d)
    else (pickCand pf cs (drawOf seed pos), d)

/-- Token IDs that a shard covers (08 R232). -/
def shardIds : Nat := 16384

/-- Shards of a vocabulary. -/
def Vocab.shards (v : Vocab) : Nat := ceilDiv v.tokens.length shardIds

/-- The token of an entry whose shards are all in: forced, or sampled (R252). -/
def Dev.chooseToken (d : Dev) (loc : Nat) (v : Vocab) (e : LenEntry) : Nat × Dev :=
  let p := d.sesPart loc
  let g := d.genRec loc
  let ls := d.listsOf loc
  match forcedTail g ls.2.1 with
  | some x => (tailToken ls.2.1 x, d)
  | none =>
    let mask := bannedMask g.gen ls.1
    let z := (List.range v.tokens.length).map fun i =>
      let w := (tgetD e.shards (i / shardIds) []).getD (i % shardIds) 0xFF800000
      let no := (v.tokens.getD i ([], false, false)).2.2 || mask.contains i
      (i, if no then (0xFF800000 : U32) else w)
    let seed := if g.seed = 0 then d.sesHandle loc else g.seed
    d.sampleToken p v (tgetD (d.tokp p).profile (d.ses loc).profile {}) seed (e.ctx + e.new) z

/-- LOGITS_SHARD_ARRIVAL (R252; 08 R232): with every shard in, the entry's token is chosen. -/
def execLogitsShardArrival (loc shard : Nat) (z : List U32) (s : State) : Res :=
  guarded (.logitsShardArrival loc shard z) (onDev s fun d =>
    let p := d.sesPart loc
    match d.lenOf p loc, d.vocabOf p (d.ses loc).cls with
    | some e, some v =>
      if d.phase p = 0 && e.sample && !e.held && e.tokens.isEmpty && decide (shard < v.shards) then
        let e := { e with shards := tput e.shards shard z }
        let d := d.modLen p loc fun _ => e
        if (List.range v.shards).all fun i => (tget e.shards i).isSome then
          let (t, d) := (d.vocabAccess).chooseToken loc v e
          d.modLen p loc fun x => { x with tokens := [BitVec.ofNat 32 t] }
        else d
      else d
    | _, _ => d)

/-! ### Output bytes and ends (R253, R258–R261) -/

/-- Output bytes of a token (R258). -/
def tokenText (v : Vocab) (pf : Profile) (t : Nat) : List Byte :=
  let x := v.tokens.getD t ([], false, false)
  if t = v.eos || (x.2.1 && pf.skip) then [] else x.1

/-- A list begins with another. -/
def startsWith (bs x : List Byte) : Bool := bs.take x.length == x && decide (x.length ≤ bs.length)

/-- First place at which some stop string stands in the bytes. -/
def stopAt (stops : List (List Byte)) (buf : List Byte) : Option Nat :=
  (List.range buf.length).find? fun i => stops.any fun x => startsWith (buf.drop i) x

/-- Bytes at the end of the output that could begin a stop string: the longest such tail. -/
def heldTail (stops : List (List Byte)) (buf : List Byte) : Nat :=
  ((List.range buf.length).map fun i => buf.length - i).find? (fun n =>
    stops.any fun x => decide (n < x.length) && x.take n == buf.drop (buf.length - n)) |>.getD 0

/-- What one emitted token does to a generation (R253–R260): the record, text written, and END_REASON if it ends. -/
def emission (v : Vocab) (pf : Profile) (fs : List (Nat × List Nat)) (stops : List (List Byte)) (g : Gen) (limit pos t : Nat)
    (r : GenRec) : GenRec × List Byte × Option Nat :=
  let tail := (forcedTail r fs).bind (tailNext fs)
  let buf := r.held ++ tokenText v pf t
  let r := { r with gen := r.gen ++ [t], forced := tail, held := [] }
  match stopAt stops buf with
  | some i =>
    let x := r.put g (buf.take i)
    ({ x.2 with forced := none }, x.1, some 3)
  | none =>
    let n := heldTail stops buf
    let x := r.put g (buf.take (buf.length - n))
    let keep := buf.drop (buf.length - n)
    let reason := if t = v.eos then some 1 else if pos + 1 ≥ limit then some 2
      else if x.2.gen.length ≥ g.maxTok || x.2.full then some 0 else none
    match reason with
    | none => ({ x.2 with held := keep }, x.1, none)
    | some why =>
      let y := x.2.put g keep
      ({ y.2 with forced := none }, x.1 ++ y.1, some why)

/-- The token of an entry emitted at E8 (R253, R261): history, record, counters, output; the END_REASON if the generation
ends, whose last token is left staged. -/
def Dev.emitToken (d : Dev) (loc t : Nat) : Dev × Option Nat :=
  let p := d.sesPart loc
  let s := d.ses loc
  match s.armed, d.vocabOf p s.cls with
  | some g, some v =>
    let r := d.genRec loc
    let ls := d.listsOf loc
    let pos := s.hist.length
    let isForced := (forcedTail r ls.2.1).isSome
    let stops := ls.2.2.map fun x => x.2.map fun b => BitVec.ofNat 8 b
    let x := emission v (tgetD (d.tokp p).profile s.profile {}) ls.2.1 stops g (d.contextLimit p loc) pos t r
    let d := d.modSes loc fun s =>
      { s with hist := s.hist ++ [BitVec.ofNat 32 t], staged := if x.2.2.isSome then s.staged + 1 else s.staged }
    let d := (d.modGen loc fun _ => x.1).syncTok p (d.genTile loc)
    let d := d.satL (if isForced then TOK_OUTPUT_FORCED p else TOK_OUTPUT_SAMPLED p) 1
    let d := if x.2.2 = some 3 then d.satL (TOK_OUTPUT_STOPPED p) 1 else d
    (d.vocabAccess.writeText loc g r.outBytes x.2.1 x.1, x.2.2)
  | _, _ => (d, none)

/-! ### TOK_BIND (R250) -/

/-- The region may hold a partition's token state. -/
def Region.fitsTok (r : Region) (count : Nat) : Bool :=
  r.homeTier == 1 && !r.wback && r.kind == 0 && !r.weight && decide (tokTiles count ≤ r.tiles)

/-- TOK_BIND applied. -/
def doTokBind (d : Dev) (k : Nat) (e : DescEntry) : Dev :=
  let p := e.part
  let h := BitVec.ofNat 64 (fieldAt e.d 16 8)
  if h = 0 then
    if !(d.sesWhere p fun s => s.st != .free).isEmpty then d.refuse k stWrong
    else
      let d := match (d.tokp p).bound with
        | some n =>
          let d := (d.tokp p).lists.foldl (fun (d : Dev) (l : Nat × TokList) => d.modRegion l.2.region fun r => { r with bound := false }) d
          (d.modRegion n fun r => { r with bound := false }).moveFrames p 3 2 ((d.region n).elim 0 fun r => r.tiles)
        | none => d
      ((d.modTok p fun _ => {}).setReg (TOK_BIND p) 0).ok k 0 0
  else
    match d.region (hRegion h) with
    | none => d.refuse k stNoSession
    | some r =>
      if (d.tokp p).bound.isSome || r.bound || r.isSealed then d.refuse k stWrong
      else
        let n := hRegion h
        let d := (d.modRegion n fun r => { r with bound := true }).moveFrames p 2 3 r.tiles
        let d := (d.modTok p fun _ => { bound := some n }).setReg (TOK_BIND p) h
        let z := List.replicate tileSize (0 : Byte)
        let (z64, z32) := (crc64 z, crc32c z)
        let d := (List.range (min 6 r.tiles)).foldl (fun d t => d.syncTok p t) d
        ((List.range (r.tiles - 6)).foldl (fun (d : Dev) t => d.engineTileWith n (t + 6) z z64 z32) d).ok k 0 0

/-- TOK_BIND (R250). -/
def execTokBind (ring : Nat) (x : Desc) (s : State) : Res :=
  guarded (.tokBind ring x) (onDev s fun d =>
    d.runOp 0x50 ring x
      (fun d p x =>
        let h := BitVec.ofNat 64 (fieldAt x 16 8)
        if h = 0 then stOk
        else if d.regionStatus p h ≠ stOk then d.regionStatus p h
        else match d.region (hRegion h) with
          | some r => if r.fitsTok (d.getF (TUS_PART_COUNT p)) then stOk else stBad
          | none => stNoSession)
      doTokBind)

/-! ### VOCAB_LOAD (R238–R240) -/

/-- Slot of a job handle (08 R215). -/
def hSlot (h : U64) : Nat := h.toNat % 4

/-- Generation of a job handle. -/
def hJobGen (h : U64) : Nat := h.toNat / 4 % 2 ^ 47

/-- A job handle. -/
def mkJobHandle (dev part gen slot : Nat) : U64 := BitVec.ofNat 64 (dev * 2 ^ 52 + part * 2 ^ 49 + gen % 2 ^ 47 * 4 + slot % 4)

/-- Status of a job handle for a partition (08 R215, 03 R50). -/
def Dev.jobStatus (d : Dev) (p : Nat) (h : U64) : Byte :=
  if hDevice h ≠ d.id then stNoSession
  else if hPart h ≠ p then stDenied
  else if (d.job p (hSlot h)).st = .empty ∨ (d.job p (hSlot h)).gen ≠ hJobGen h then stNoSession
  else stOk

/-- Bytes of a region homed in T1, tile by tile (R238). -/
def Region.bytes (r : Region) : List Byte := (List.range r.tiles).flatMap fun t => padTo tileSize (r.at t).data

/-- Offsets at which a vocabulary image breaks Table 09.1 or its layout (R239, R240). -/
def vocabFaults (bs : List Byte) : List Nat :=
  let at_ := fun (o n : Nat) => leAt bs o n
  let n := at_ 8 4
  let m := at_ 12 4
  let len := bs.length
  let hdr := ([(0, at_ 0 4 != 0x42434F56), (4, at_ 4 2 != 1), (6, decide (at_ 6 1 > 1)), (7, decide (at_ 7 1 > 3)),
    (8, decide (n < 256 ∨ n > 1048576)), (12, decide (m + 256 > n)), (16, decide (at_ 16 4 ≥ n)),
    (20, decide (at_ 20 2 < 16 ∨ at_ 20 2 > 1024)), (22, at_ 22 2 != 0), (24, decide (at_ 24 8 + 8 * n > len)),
    (32, decide (at_ 32 8 + 12 * m > len)), (40, decide (at_ 40 8 > len)), (48, decide (at_ 48 8 + 1024 > len)),
    (56, decide (at_ 56 8 + 557056 > len))] : List (Nat × Bool)).filterMap fun x => if x.2 then some x.1 else none
  if !hdr.isEmpty then hdr
  else
    let tb := at_ 24 8
    let mo := at_ 32 8
    let bo := at_ 40 8
    let ro := at_ 48 8
    let tok := (List.range n).flatMap fun i =>
      let o := tb + 8 * i
      let off := at_ o 5
      let l := at_ (o + 5) 1
      let fl := at_ (o + 6) 1
      (if bo + off + l > len ∨ (i < 256 ∧ at_ (bo + off) 1 ≠ i) then [o] else []) ++
      (if i < 256 ∧ l ≠ 1 then [o + 5] else []) ++ (if fl ≥ 4 ∨ (i < 256 ∧ fl % 2 = 1) then [o + 6] else []) ++
      (if at_ (o + 7) 1 ≠ 0 then [o + 7] else [])
    let mer := (List.range m).flatMap fun i => (List.range 3).filterMap fun j =>
      if at_ (mo + 12 * i + 4 * j) 4 ≥ n then some (mo + 12 * i + 4 * j) else none
    let rol := (List.range 16).flatMap fun i => (List.range 2).filterMap fun j =>
      if at_ (ro + 64 * i + j) 1 > 7 then some (ro + 64 * i + j) else none
    tok ++ mer ++ rol

/-- The vocabulary that an image holds. -/
def parseVocab (bs : List Byte) : Vocab :=
  let at_ := fun (o n : Nat) => leAt bs o n
  let tb := at_ 24 8
  let mo := at_ 32 8
  let bo := at_ 40 8
  let ro := at_ 48 8
  let co := at_ 56 8
  { pretok := at_ 6 1, digits := at_ 7 1, eos := at_ 16 4, pieceMax := at_ 20 2,
    tokens := (chunks 8 (at_ 8 4) (bs.drop tb)).map fun r =>
      ((bs.drop (bo + leAt r 0 5)).take (leAt r 5 1), leAt r 6 1 % 2 == 1, leAt r 6 1 / 2 % 2 == 1),
    merges := (chunks 12 (at_ 12 4) (bs.drop mo)).map fun r => (leAt r 0 4, leAt r 4 4, leAt r 8 4),
    roles := (List.range 16).map fun i =>
      let r := bs.drop (ro + 64 * i)
      ((List.range (leAt r 0 1)).map fun j => leAt r (4 + 4 * j) 4, (List.range (leAt r 1 1)).map fun j => leAt r (32 + 4 * j) 4),
    classes := ((bs.drop co).take 557056).zipIdx.flatMap fun x =>
      ([(2 * x.2, x.1.toNat % 16), (2 * x.2 + 1, x.1.toNat / 16)] : List (Nat × Nat)).filter fun c => c.2 != 4,
    frames := ceilDiv bs.length tileSize }

/-- VOCAB_LOAD applied. -/
def doVocabLoad (d : Dev) (k : Nat) (e : DescEntry) : Dev :=
  let p := e.part
  let slot := hSlot e.d.target
  let j := d.job p slot
  let len := fieldAt e.d 24 8
  match d.region (hRegion (BitVec.ofNat 64 (fieldAt e.d 16 8))) with
  | none => d.refuse k stNoSession
  | some r =>
    let bs := r.bytes.take len
    let fault := if len > tileSize * r.tiles then [tileSize * r.tiles] else vocabFaults bs
    if j.st = .active ∨ j.st = .pending ∨ j.vocab.isSome then d.refuse k stWrong
    else match (List.range r.tiles).find? fun t => (r.at t).bad != 0 with
      | some t => d.failOpen k (r.at t).bad none
      | none =>
        match fault with
        | x :: xs => d.failOpen k stBad (some (BitVec.ofNat 32 (xs.foldl min x)))
        | [] =>
          let v := parseVocab bs
          let badClass := (List.range 64).any fun c => j.hdr.classes.getLsbD c &&
            (tget (d.tokp p).cls c).any fun q => decide (q.contextMax > 0 ∧ q.elision ≥ v.tokens.length)
          if (j.sect.elim 0 fun c => c.shards) < v.shards || badClass then d.refuse k stWrong
          else if d.freeFrames p < v.frames then d.refuse k stLimit
          else
            let d := d.moveFrames p 0 3 v.frames
            (d.modJob p slot fun j => { j with vocab := some v }).ok k (BitVec.ofNat 64 v.tokens.length) 0

/-- VOCAB_LOAD (R238): SOURCE must be sealed and homed in T1. -/
def execVocabLoad (ring : Nat) (x : Desc) (s : State) : Res :=
  guarded (.vocabLoad ring x) (onDev s fun d =>
    d.runOp 0x51 ring x
      (fun d p x =>
        let h := BitVec.ofNat 64 (fieldAt x 16 8)
        if d.jobStatus p x.target ≠ stOk then d.jobStatus p x.target
        else if d.regionStatus p h ≠ stOk then d.regionStatus p h
        else match d.region (hRegion h) with
          | some r => if r.isSealed && r.homeTier == 1 && !r.wback then stOk else stBad
          | none => stNoSession)
      doVocabLoad)

/-! ### CLASS_SET, PROFILE_SET -/

/-- Ranges of CLASS_SET (Table 09.5). -/
def chkClassSet (d : Dev) (p : Nat) (x : Desc) : Byte :=
  let ctx := fieldAt x 20 4
  let app := fieldAt x 24 4
  let v := d.vocabOf p (fieldAt x 16 1)
  if fieldAt x 16 1 > 63 ∨ ctx = 0 ∨ ctx > 2097152 ∨ app = 0 ∨ app > 1048576 ∨ app > ctx ∨
      fieldAt x 28 4 + fieldAt x 32 4 + 1 > app ∨ v.any (fun v => decide (fieldAt x 36 4 ≥ v.tokens.length)) then stBad
  else stOk

/-- CLASS_SET applied: it takes effect at the E11 that R77 names. -/
def doClassSet (d : Dev) (k : Nat) (e : DescEntry) : Dev :=
  let x := e.d
  let c : ClassRec := { contextMax := fieldAt x 20 4, appendMax := fieldAt x 24 4, headKeep := fieldAt x 28 4,
                        tailKeep := fieldAt x 32 4, elision := fieldAt x 36 4 }
  if (d.tokp e.part).bound.isNone then d.refuse k stWrong
  else (d.modTok e.part fun t => { t with newCls := t.newCls ++ [(fieldAt x 16 1, c, k)] }).wait k .boundary

/-- CLASS_SET (R262). -/
def execClassSet (ring : Nat) (x : Desc) (s : State) : Res :=
  guarded (.classSet ring x) (onDev s fun d => d.runOp 0x52 ring x chkClassSet doClassSet)

/-- Ranges of PROFILE_SET (Table 09.5). -/
def chkProfileSet (x : Desc) : Byte :=
  let temp := fmtF32.decode (fieldAt x 20 4)
  let top := fmtF32.decode (fieldAt x 24 4)
  let one : Num := .fin false 1 0
  let tempOk := match temp with
    | .fin s m _ => m == 0 || (!s && !temp.lt (.fin false 1 (-8)) && !(Num.fin false 64 0).lt temp)
    | _ => false
  let topOk := match top with
    | .fin s m _ => !s && m != 0 && !one.lt top
    | _ => false
  if fieldAt x 16 2 > 4095 ∨ !tempOk ∨ !topOk ∨ fieldAt x 28 4 > 4096 then stBad else stOk

/-- PROFILE_SET applied. -/
def doProfileSet (d : Dev) (k : Nat) (e : DescEntry) : Dev :=
  let x := e.d
  let q : Profile := { temp := BitVec.ofNat 32 (fieldAt x 20 4), topP := BitVec.ofNat 32 (fieldAt x 24 4), topK := fieldAt x 28 4,
                       skip := (fieldAt x 32 1).testBit 0 }
  if (d.tokp e.part).bound.isNone then d.refuse k stWrong
  else (d.modTok e.part fun t => { t with newProf := t.newProf ++ [(fieldAt x 16 2, q, k)] }).wait k .boundary

/-- PROFILE_SET (R262). -/
def execProfileSet (ring : Nat) (x : Desc) (s : State) : Res :=
  guarded (.profileSet ring x) (onDev s fun d => d.runOp 0x53 ring x (fun _ _ x => chkProfileSet x) doProfileSet)

/-- Classes and profiles set since the last boundary take effect at E11; the descriptors that then complete. -/
def Dev.applyTok (d : Dev) (p : Nat) : Dev × List Nat :=
  let t := d.tokp p
  let ks := t.newCls.map (fun x => x.2.2) ++ t.newProf.map fun x => x.2.2
  let d := d.modTok p fun t =>
    { t with cls := t.newCls.foldl (fun c x => tput c x.1 x.2.1) t.cls, newCls := [],
             profile := t.newProf.foldl (fun c x => tput c x.1 x.2.1) t.profile, newProf := [] }
  let tiles := ((if t.newCls.isEmpty then [] else [0]) ++ t.newProf.map fun (x : Nat × Profile × Nat) => 2 + x.1 / 1024).eraseDups
  (tiles.foldl (fun d i => d.syncTok p i) d, ks)

/-! ### Lists (R254, R255, R259, R262) -/

/-- Records of a list: each as TRIG and token IDs or bytes; the number of the first bad record. -/
def parseRecords (kind : Nat) : Nat → Nat → List Byte → Except Nat (List (Nat × List Nat))
  | 0, _, _ => .ok []
  | f + 1, i, bs =>
    let len := leAt bs 0 1
    let trig := leAt bs 1 1
    let size := if kind = 2 then 4 * ceilDiv (1 + len) 4 else 4 + 4 * len
    let pad := ((bs.drop (1 + len)).take (size - (1 + len))).all fun b => b == 0
    let bad := len = 0 ∨ len > 32 ∨ bs.length < size ∨
      (if kind = 2 then !pad
       else leAt bs 2 2 != 0 || (if kind = 0 then trig != 0 else decide (trig = 0 ∨ trig ≥ len)))
    if bad then .error i
    else
      let r := if kind = 2 then (0, (List.range len).map fun j => leAt bs (1 + j) 1)
        else (trig, (List.range len).map fun j => leAt bs (4 + 4 * j) 4)
      match parseRecords kind f (i + 1) (bs.drop size) with
      | .ok rs => .ok (r :: rs)
      | .error j => .error j

/-- Checks of LIST_LOAD (Table 09.5). -/
def chkListLoad (d : Dev) (p : Nat) (x : Desc) : Byte :=
  let kind := fieldAt x 18 1
  let count := fieldAt x 20 4
  let h := BitVec.ofNat 64 (fieldAt x 40 8)
  if fieldAt x 16 2 > 4095 ∨ kind > 2 ∨ count = 0 ∨ count > 65536 ∨ (kind = 2 ∧ count > 16) ∨ fieldAt x 24 8 % 4 ≠ 0 then stBad
  else if d.regionStatus p h ≠ stOk then d.regionStatus p h
  else match d.region (hRegion h) with
    | some r => if r.homeTier == 1 && !r.wback && r.kind == 0 then stOk else stBad
    | none => stNoSession

/-- Status of a LIST_LOAD whose body is in order. -/
def Dev.listStatus (d : Dev) (e : DescEntry) : Byte :=
  let t := d.tokp e.part
  match d.region (hRegion (BitVec.ofNat 64 (fieldAt e.d 40 8))) with
  | none => stNoSession
  | some r =>
    if t.bound.isNone ∨ (tget t.lists (fieldAt e.d 16 2)).isSome ∨ r.bound ∨ r.isSealed then stWrong
    else if r.tiles < ceilDiv (4 * fieldAt e.d 32 4) tileSize + 1 then stLimit
    else stOk

/-- LIST_LOAD (R262): its records are read from host memory. -/
def execListLoad (ring : Nat) (x : Desc) (s : State) : Res :=
  guarded (.listLoad ring x) (onDev s fun d =>
    d.runOp 0x54 ring x chkListLoad fun d k e =>
      if d.listStatus e ≠ stOk then d.refuse k (d.listStatus e)
      else (d.emitFor e.part (.hostRead e.part (BitVec.ofNat 64 (fieldAt e.d 24 8)) (fieldAt e.d 32 4))).wait k .hostRead)

/-- The records of a LIST_LOAD arrived: they are compiled into DEST, whose contents the manual does not lay out (log 24). -/
def Dev.listArrived (d : Dev) (k : Nat) (bytes : List Byte) : Dev :=
  match tget d.rng.descs k with
  | none => d
  | some e =>
    let kind := fieldAt e.d 18 1
    let n := hRegion (BitVec.ofNat 64 (fieldAt e.d 40 8))
    if d.listStatus e ≠ stOk then d.refuse k (d.listStatus e)
    else match parseRecords kind (fieldAt e.d 20 4) 0 bytes with
      | .error i => d.failOpen k stBad (some (BitVec.ofNat 32 i))
      | .ok rs =>
        let tiles := (d.region n).elim 0 fun r => r.tiles
        let img := Config.listImage kind rs
        let d := (d.modRegion n fun r => { r with bound := true })
        let d := (List.range tiles).foldl (fun d t => d.engineTile n t (padTo tileSize (img.drop (tileSize * t)))) d
        let l : TokList := { kind := kind, region := n, records := rs }
        let d := (d.modTok e.part fun t => { t with lists := tput t.lists (fieldAt e.d 16 2) l }).syncTok e.part 1
        d.ok k (BitVec.ofNat 64 rs.length) 0

/-- A list number of LISTSET_DEFINE is none, or a loaded list of the kind. -/
def TokP.listOk (t : TokP) (n kind : Nat) : Bool := n == 0xFFFF || (tget t.lists n).any fun l => l.kind == kind

/-- LISTSET_DEFINE applied. -/
def doListsetDefine (d : Dev) (k : Nat) (e : DescEntry) : Dev :=
  let t := d.tokp e.part
  let a := fieldAt e.d 18 2
  let b := fieldAt e.d 20 2
  let c := fieldAt e.d 22 2
  if t.bound.isNone || (tget t.sets (fieldAt e.d 16 2)).isSome || !t.listOk a 0 || !t.listOk b 1 || !t.listOk c 2 then
    d.refuse k stWrong
  else
    let d := d.modTok e.part fun t => { t with sets := tput t.sets (fieldAt e.d 16 2) (a, b, c) }
    (d.syncTok e.part 0).ok k 0 0

/-- LISTSET_DEFINE (R262). -/
def execListsetDefine (ring : Nat) (x : Desc) (s : State) : Res :=
  guarded (.listsetDefine ring x) (onDev s fun d =>
    d.runOp 0x55 ring x
      (fun _ _ x => if fieldAt x 16 2 > 4095 ∨ (List.range 3).any fun i =>
          decide (fieldAt x (18 + 2 * i) 2 > 4095) && fieldAt x (18 + 2 * i) 2 != 0xFFFF then stBad else stOk)
      doListsetDefine)

/-- A set is named by an armed generation of the partition. -/
def Dev.setArmed (d : Dev) (p n : Nat) : Bool :=
  !(d.sesWhere p fun s => (s.genArmed || s.waitArmed) && s.armed.any fun g => g.listSet == n).isEmpty

/-- LIST_FREE applied. -/
def doListFree (d : Dev) (k : Nat) (e : DescEntry) : Dev :=
  let p := e.part
  let n := fieldAt e.d 18 2
  let t := d.tokp p
  if fieldAt e.d 16 1 = 0 then
    if t.sets.any fun x => x.2.1 == n || x.2.2.1 == n || x.2.2.2 == n then d.refuse k stWrong
    else
      let d := match tget t.lists n with
        | some l => d.modRegion l.region fun r => { r with bound := false }
        | none => d
      ((d.modTok p fun t => { t with lists := tdel t.lists n }).syncTok p 1).ok k 0 0
  else if d.setArmed p n then d.refuse k stWrong
  else ((d.modTok p fun t => { t with sets := tdel t.sets n }).syncTok p 0).ok k 0 0

/-- LIST_FREE (R262). -/
def execListFree (ring : Nat) (x : Desc) (s : State) : Res :=
  guarded (.listFree ring x) (onDev s fun d =>
    d.runOp 0x56 ring x (fun _ _ x => if fieldAt x 16 1 > 1 ∨ fieldAt x 18 2 > 4095 then stBad else stOk) doListFree)

/-! ### TOK_SEED -/

/-- TOK_SEED applied. -/
def doTokSeed (d : Dev) (k : Nat) (e : DescEntry) : Dev :=
  let loc := hLocal e.d.target
  if (d.ses loc).genArmed || (d.tokp e.part).bound.isNone then d.refuse k stWrong
  else
    let old := (d.genRec loc).seed
    let d := d.modGen loc fun r => { r with seed := BitVec.ofNat 64 (fieldAt e.d 16 8) }
    (d.syncTok e.part (d.genTile loc)).ok k old 0

/-- TOK_SEED (R262). -/
def execTokSeed (ring : Nat) (x : Desc) (s : State) : Res :=
  guarded (.tokSeed ring x) (onDev s fun d => d.runOp 0x57 ring x (fun d p x => d.sessionStatus p x.target) doTokSeed)

end Sys2Proof.Machine
end

