-- ==== Sys2Proof/Machine/Arithmetic.lean ====
section
/-! DEFINITION. Arithmetic safeguards: non-finite values, shadow samples, escalation levels and epochs
(07_narrow_arithmetic.md R191–R204). -/

namespace Sys2Proof.Machine

/-- Arithmetic state of a partition. -/
def Dev.arip (d : Dev) (p : Nat) : AriP := tgetD d.ari p {}

/-- The device with a partition's arithmetic state changed. -/
def Dev.modAri (d : Dev) (p : Nat) (f : AriP → AriP) : Dev := { d with ari := tmod d.ari p {} f }

/-- A layer of a partition's model. -/
def Dev.layer (d : Dev) (p l : Nat) : Layer := tgetD (d.arip p).layer l {}

/-- A layer changed. -/
def Dev.modLayer (d : Dev) (p l : Nat) (f : Layer → Layer) : Dev :=
  d.modAri p fun a => { a with layer := tmod a.layer l {} f }

/-- Layers of the partition's model; 0 with no model loaded. -/
def Dev.layers (d : Dev) (p : Nat) : Nat := (d.activeJob p).elim 0 fun j => j.hdr.layers

/-- An escalation request of a layer, once. -/
def Dev.escalate (d : Dev) (p l : Nat) : Dev :=
  d.modStep p fun s => { s with escReq := if s.escReq.contains l then s.escReq else s.escReq ++ [l] }

/-! ### Non-finite values (R194) -/

/-- A NaN or infinity in the row of an entry. Below the layer's top level the entry is discarded and held until the level
rises; at the top level the value is clamped and the step goes on. -/
def Dev.nonfinite (d : Dev) (core loc l : Nat) : Dev :=
  let p := d.sesPart loc
  let x := d.layer p l
  let d := (d.flag ARI_STATUS_NONFINITE ARI_STATUS_NONFINITE_COUNT).satL (ARI_SAT_NONFINITE_ROWS p) 1
  if x.level < x.top then
    let d := (d.raiseOpen (some p) 0x0610 core).discardEntry loc
    (d.modSes loc fun s => { s with heldFor := some (l, x.level) }).escalate p l
  else d.raiseOpen (some p) 0x0611 core

/-! ### Shadow samples (R195, R197) -/

/-- Weight products of a layer are sampled (R195, Table 07.4): at level 0, and at level 1 with an escalation region. -/
def Layer.sampled (x : Layer) : Bool := x.level == 0 || (x.level == 1 && x.top == 2)

/-- SHADOW_SAMPLE_SELECT (R195): one weight-product job in 2^RATE_LOG2 of a layer is kept as a shadow sample. -/
def execShadowSampleSelect (p layer core : Nat) (s : State) : Res :=
  guarded (.shadowSampleSelect p layer core) (onDev s fun d =>
    let n := d.getB (ARI_SHADOW_CFG_RATE_LOG2 p)
    let x := d.layer p layer
    if n ≠ 0 ∧ x.sampled ∧ 2 ^ n ≤ x.jobs then
      d.modLayer p layer fun x => { x with jobs := x.jobs - 2 ^ n, shadow := x.shadow + 1 }
    else d)

/-- Threshold that a layer's samples are held against. -/
def Dev.threshold (d : Dev) (p : Nat) (x : Layer) : Nat :=
  if x.level = 0 then d.getB (ARI_SHADOW_CFG_THRESH1 p) else d.getB (ARI_SHADOW_CFG_THRESH2 p)

/-- SHADOW_JOB_DONE (R195): the error of a sample, and the run of samples over the threshold. -/
def execShadowJobDone (p layer : Nat) (y ref : List U32) (s : State) : Res :=
  guarded (.shadowJobDone p layer y ref) (onDev s fun d =>
    let x := d.layer p layer
    if x.shadow = 0 then d
    else
      let e := shadowError y ref
      let over_ := decide (e > d.threshold p x)
      let d := d.modLayer p layer fun x =>
        { x with shadow := x.shadow - 1, samples := x.samples + 1, err := e, run := if over_ then x.run + 1 else 0 }
      let d := (d.satL (ARI_SAT_SAMPLES p) 1).satL (ARI_SHADOW_EXCEEDED p) (if over_ then 1 else 0)
      if e > d.getL (ARI_SHADOW_MAX_ERROR p) then (d.setL (ARI_SHADOW_MAX_ERROR p) e).setL (ARI_SHADOW_MAX_LAYER p) layer
      else d)

/-- CONSEC_SAMPLES_EXCEEDED (R197): CONSEC samples in a row over the threshold request that the layer rise one level. -/
def execConsecSamplesExceeded (p layer : Nat) (s : State) : Res :=
  guarded (.consecSamplesExceeded p layer) (onDev s fun d =>
    let x := d.layer p layer
    if d.getB (ARI_SHADOW_CFG_CONSEC p) ≤ x.run ∧ x.level < x.top then
      (d.modLayer p layer fun x => { x with run := 0 }).escalate p layer
    else d)

/-- Samples not finished at E1 are abandoned and counted (R195). -/
def Dev.abandonShadows (d : Dev) (p : Nat) : Dev :=
  (d.arip p).layer.foldl (fun (d : Dev) (e : Nat × Layer) =>
    if e.2.shadow = 0 then d
    else (d.modLayer p e.1 fun x => { x with skipped := x.skipped + x.shadow, shadow := 0 }).satL (ARI_SHADOW_SKIPPED p) e.2.shadow) d

/-! ### Levels and epochs at E11 (R197–R200) -/

/-- ARI_ESC_p follows the levels, the epoch and the requests that wait. -/
def Dev.showLevels (d : Dev) (p : Nat) : Dev :=
  let ls := (List.range (d.layers p)).map fun l => (l, (d.layer p l).level)
  let n := fun (v : Nat) => (ls.filter fun x => x.2 == v).length
  let low := ((ls.find? fun x => x.2 != 0).map fun x => x.1).getD 0xFF
  let d := ((d.setL (ARI_ESC_LOWEST p) low).setL (ARI_ESC_L1_LAYERS p) (n 1)).setL (ARI_ESC_L2_LAYERS p) (n 2)
  (d.setL (ARI_ESC_PENDING p) (min 0xFF (d.stepP p).escReq.length)).setL (ARI_ESC_EPOCH p) (d.arip p).epoch

/-- New levels of a boundary: a clear first, then an escalation, which leads to the level above the one that requested it
(R198). -/
def newLevels (old : Tbl Layer) (n : Nat) (clears : List (Option Nat)) (raises : List Nat) : List (Nat × Nat) :=
  (List.range n).filterMap fun l =>
    let x := tgetD old l {}
    if raises.contains l then some (l, min x.top (x.level + 1))
    else if clears.any fun c => c.isNone || c == some l then some (l, 0)
    else none

/-- Level vector of a model (R199). -/
def AriP.vector (a : AriP) (n : Nat) : List Nat := (List.range n).map fun l => (tgetD a.layer l {}).level

/-- Changes of a commit token applied at E11 (R197, R198, R200). -/
def Dev.applyLevels (d : Dev) (p : Nat) (clears : List (Option Nat)) (raises : List Nat) : Dev :=
  let ch := newLevels (d.arip p).layer (d.layers p) clears raises
  if ch.isEmpty then d
  else if (d.arip p).epoch ≥ 4095 then
    (d.flag ARI_STATUS_ESC_SATURATED ARI_STATUS_SATURATED_COUNT).raiseOpen (some p) 0x0613 0x101
  else
    let d := ch.foldl (fun (d : Dev) c => d.modLayer p c.1 fun x =>
      { x with level := c.2, run := if x.level = c.2 then x.run else 0 }) d
    let d := d.modAri p fun a => { a with epoch := a.epoch + 1, vecs := a.vecs ++ [a.vector (d.layers p)] }
    let d := (d.flag ARI_STATUS_ESCALATED ARI_STATUS_ESCALATED_COUNT).raiseOpen (some p) 0x0612 0x101
    d.telem p 0x11 0x06 0 (d.stepP p).number
      (record ([(2, (d.arip p).epoch), (1, ch.length)] ++ [(1, 0)] ++ (ch.take 8).flatMap fun c => [(1, c.1), (1, c.2)]))

/-- A model is loaded: levels 0, top levels from its escalation regions, epoch 0 (R196, R199, R200). -/
def loadAri (j : Job) : AriP :=
  let tops := (j.sect.elim [] fun c => c.escalation).map fun w => w.layer
  let ls := (List.range j.hdr.layers).map fun l => (l, ({ top := if tops.contains l then 2 else 1 } : Layer))
  { layer := ls, epoch := 0, steps := 0, vecs := [List.replicate j.hdr.layers 0] }

/-- Counts of the closed step are latched and start again (R203, R204). -/
def Dev.clearAri (d : Dev) (p : Nat) : Dev :=
  let d := d.modAri p fun a => { a with layer := a.layer.map fun e => (e.1, { e.2 with sat := 0, samples := 0, skipped := 0 }) }
  { d with live := tput (tput d.live (ARI_SAT p) 0) (ARI_SHADOW p) 0 }

/-- Telemetry type 0x10, one record for each layer, of a closed step (R204). -/
def Dev.telemLayers (d : Dev) (p : Nat) (step : U64) : Dev :=
  (List.range (d.layers p)).foldl (fun (d : Dev) l =>
    let x := d.layer p l
    d.telem p 0x10 0x06 0 step
      (record [(1, l), (1, x.level), (2, x.err), (4, x.sat), (2, x.samples), (2, x.skipped), (1, x.run)])) d

end Sys2Proof.Machine
end

