-- ==== Sys2Proof/Machine/Semaphores.lean ====
section
/-! DEFINITION. Semaphores and their groups, from cores, rings and other devices of the job
(08_cores_placement_models.md R226–R231, R233, R234). -/

namespace Sys2Proof.Machine

/-! ### Semaphores and groups -/

/-- A semaphore. -/
def Dev.sem (d : Dev) (n : Nat) : Sem := tgetD d.plc.sem n {}

/-- The device with a semaphore set. -/
def Dev.setSem (d : Dev) (n : Nat) (x : Sem) : Dev := { d with plc := { d.plc with sem := tput d.plc.sem n x } }

/-- Group of a table that a semaphore is in: its first semaphore and the group. -/
def groupIn (t : Tbl SemGroup) (n : Nat) : Option (Nat × SemGroup) :=
  t.find? fun e => decide (e.1 ≤ n ∧ n < e.1 + e.2.count)

/-- Group of a semaphore in the banks. -/
def Dev.groupOf (d : Dev) (n : Nat) : Option (Nat × SemGroup) := groupIn d.plc.group n

/-- A semaphore parked with a LOADED job of a partition (R223): slot, first semaphore, group, and its snapshot. -/
def Dev.parkedSem (d : Dev) (p n : Nat) : Option (Nat × Nat × SemGroup × Sem) :=
  (List.range 4).findSome? fun i =>
    let j := d.job p i
    if j.st = .empty then none
    else (groupIn j.groups n).map fun g => (i, g.1, g.2, tgetD j.saved n {})

/-- A semaphore lies in a partition's banks (R226). -/
def Dev.semOwned (d : Dev) (p n : Nat) : Bool :=
  decide (64 * d.getF (PLC_SEM_FIRST_BANK p) ≤ n ∧ n < 64 * (d.getF (PLC_SEM_FIRST_BANK p) + d.getF (PLC_SEM_BANKS p)))

/-- Tokens of a semaphore that a holder holds. -/
def Sem.heldBy (x : Sem) (h : Holder) : Nat := ((x.held.find? fun e => e.1 == h).map fun e => e.2).getD 0

/-- A holder's count set; a count of 0 leaves no entry. -/
def Sem.setHeld (x : Sem) (h : Holder) (n : Nat) : Sem :=
  let r := x.held.filter fun e => e.1 != h
  { x with held := if n = 0 then r else (h, n) :: r }

/-- Tokens held by cores. -/
def Sem.coreHeld (x : Sem) : Nat := (x.held.map fun e => match e.1 with | .core _ => e.2 | _ => 0).sum

/-- Tokens held by rings, of this device or another. -/
def Sem.ringHeld (x : Sem) : Nat := (x.held.map fun e => match e.1 with | .core _ => 0 | _ => e.2).sum

/-- Ledger place of a holder (15 Table 15.1 class 0x2). -/
def Holder.place : Holder → Nat
  | .core _ => 1
  | _ => 2

/-- Tokens of a semaphore's group moved between places. -/
def Dev.moveTokens (d : Dev) (sem fromP toP n : Nat) : Dev :=
  match d.groupOf sem with
  | some (f, g) => d.move 2 f fromP toP n (some g.part)
  | none => d

/-! ### Operations (R227–R230) -/

/-- An operation of a holder applied: what it answers. -/
def Dev.semAnswer (d : Dev) (who : Holder) (id sem op n : Nat) (applied : Bool) : Dev :=
  let v := (d.sem sem).value
  match who with
  | .core _ => d
  | .ring _ =>
    if op = 2 && !applied then d.refuse id stWrong else d.ok id (BitVec.ofNat 64 v) (if applied then 1 else 0)
  | .remote dev part =>
    d.emit (.ctrl dev (.semReply { dev := d.id, part := part, sem := sem, op := op, n := n, try_ := false,
                                   tag := BitVec.ofNat 32 id, value := v, applied := applied, lost := false }))

/-- Tokens granted to a holder. -/
def Dev.semGrant (d : Dev) (sem : Nat) (w : SemWait) : Dev :=
  let x := d.sem sem
  let y := ({ x with value := x.value - w.n } : Sem).setHeld w.who (x.heldBy w.who + w.n)
  ((d.setSem sem y).moveTokens sem 0 w.who.place w.n).semAnswer w.who w.id sem 1 w.n true

/-- Waiters granted in strict order of arrival (R228); the fuel is their number. -/
def Dev.semDrain : Nat → Dev → Nat → Dev
  | 0, d, _ => d
  | f + 1, d, sem =>
    let x := d.sem sem
    match x.queue with
    | [] => d
    | w :: r =>
      if w.n ≤ x.value then Dev.semDrain f ((d.setSem sem { x with queue := r }).semGrant sem w) sem else d

/-- ACQUIRE (R227, R228). -/
def Dev.semAcquire (d : Dev) (sem : Nat) (w : SemWait) (try_ : Bool) : Dev :=
  let x := d.sem sem
  if x.queue.isEmpty && decide (w.n ≤ x.value) then d.semGrant sem w
  else if try_ then d.semAnswer w.who w.id sem 1 w.n false
  else
    let d := d.setSem sem { x with queue := x.queue ++ [w] }
    match w.who with
    | .core _ => (match d.groupOf sem with
      | some (_, g) => d.satL (PLC_CORE_SEM_WAITS g.part) 1
      | none => d)
    | .ring _ => d.wait w.id (.semaphore sem)
    | .remote _ _ => d

/-- Tokens of a holder over a whole group. -/
def Dev.groupHeld (d : Dev) (first count : Nat) (h : Holder) : Nat :=
  ((List.range count).map fun i => (d.sem (first + i)).heldBy h).sum

/-- Held counts of a holder lowered by `n`: of the semaphore itself first, then of its group in rising order (DEDUCED,
log 27). -/
def Dev.takeHeld (d : Dev) (h : Holder) : List Nat → Nat → Dev
  | [], _ => d
  | s :: r, n =>
    let k := min n ((d.sem s).heldBy h)
    Dev.takeHeld (d.setSem s ((d.sem s).setHeld h ((d.sem s).heldBy h - k))) h r (n - k)

/-- RELEASE (R227, R230): more tokens than the requester holds are not released. -/
def Dev.semRelease (d : Dev) (sem : Nat) (w : SemWait) : Dev :=
  match d.groupOf sem with
  | none => d.semAnswer w.who w.id sem 2 w.n false
  | some (f, g) =>
    if d.groupHeld f g.count w.who < w.n then
      match w.who with
      | .core c =>
        ((d.flag PLC_STATUS_SEM_OVER_RELEASE PLC_STATUS_OVER_RELEASE_COUNT).raise (some g.part) 0x0711 (BitVec.ofNat 64 sem) 2
          c).ledgerEvent 2 f g.part
      | _ => d.semAnswer w.who w.id sem 2 w.n false
    else
      let others := (List.range g.count).filterMap fun i => if f + i = sem then none else some (f + i)
      let d := d.takeHeld w.who (sem :: others) w.n
      let x := d.sem sem
      let d := (d.setSem sem { x with value := x.value + w.n }).moveTokens sem w.who.place 0 w.n
      let d := d.semAnswer w.who w.id sem 2 w.n true
      d.semDrain ((d.sem sem).queue.length) sem

/-- One operation: 1 ACQUIRE, 2 RELEASE, 3 READ. -/
def Dev.semApply (d : Dev) (sem op : Nat) (w : SemWait) (try_ : Bool) : Dev :=
  match op with
  | 1 => d.semAcquire sem w try_
  | 2 => d.semRelease sem w
  | _ => d.semAnswer w.who w.id sem 3 0 true

/-- Tokens that a ring holds go back where they were acquired (R227); those of another device's semaphores are released
there. Its waiting ACQUIREs leave the queues. -/
def Dev.returnTokens (d : Dev) (ring : Nat) : Dev :=
  let h := Holder.ring ring
  let d := d.plc.sem.foldl (fun (d : Dev) (e : Nat × Sem) =>
    let x := d.sem e.1
    let n := x.heldBy h
    if n = 0 then d
    else
      let y := ({ x with value := x.value + n } : Sem).setHeld h 0
      let d := (d.setSem e.1 y).moveTokens e.1 2 0 n
      d.semDrain y.queue.length e.1) d
  let back := fun (x : Sem) => ({ x with value := x.value + x.heldBy h } : Sem).setHeld h 0
  let jobs := d.plc.job.map fun (e : Nat × Job) => (e.1, { e.2 with saved := e.2.saved.map fun y => (y.1, back y.2) })
  let d := { d with plc := { d.plc with job := jobs } }
  let mine := d.plc.remote.filter fun r => r.1 == ring
  let p := (d.ringOwner ring).getD 0
  let d := mine.foldl (fun (d : Dev) r => d.emit (.ctrl r.2.1 (.semOp
    { dev := d.id, part := p, sem := r.2.2.1, op := 2, n := r.2.2.2, try_ := false, tag := 0xFFFFFFFF, value := 0,
      applied := false, lost := false }))) d
  { d with plc := { d.plc with remote := d.plc.remote.filter fun r => r.1 != ring } }

/-! ### SEM_GROUP_CREATE, SEM_GROUP_DESTROY (R226, R234) -/

/-- A run of semaphores meets no group of the partition, in the banks or parked. -/
def Dev.runFree (d : Dev) (p first count : Nat) : Bool :=
  (List.range count).all fun i => (d.groupOf (first + i)).isNone && (d.parkedSem p (first + i)).isNone

/-- A run lies within one bank. -/
def inOneBank (first count : Nat) : Bool := first / 64 == (first + count - 1) / 64

/-- Lowest free run of a partition's banks. -/
def Dev.freeSems (d : Dev) (p count : Nat) : Option Nat :=
  ((List.range (64 * d.getF (PLC_SEM_BANKS p))).map fun i => 64 * d.getF (PLC_SEM_FIRST_BANK p) + i).find? fun f =>
    inOneBank f count && d.runFree p f count

/-- A group with its initial values, and its ledger instance. -/
def Dev.newGroup (d : Dev) (first : Nat) (g : SemGroup) (init : List Nat) : Dev :=
  let d := { d with plc := { d.plc with group := tput d.plc.group first g } }
  let d := (List.range g.count).foldl (fun d i => d.setSem (first + i) { value := init.getD i 0 }) d
  d.move 2 first outside 0 g.total (some g.part)

/-- Checks of SEM_GROUP_CREATE. -/
def chkSemCreate (d : Dev) (p : Nat) (x : Desc) : Byte :=
  let f := fieldAt x 16 2
  let n := fieldAt x 18 1
  if n = 0 ∨ n > 64 ∨ n * fieldAt x 20 4 ≥ 2 ^ 32 then stBad
  else if f = 0xFFFF then stOk
  else if !inOneBank f n then stBad
  else if d.semOwned p f then stOk else stDenied

/-- SEM_GROUP_CREATE applied. -/
def doSemCreate (d : Dev) (k : Nat) (e : DescEntry) : Dev :=
  let p := e.part
  let n := fieldAt e.d 18 1
  let init := fieldAt e.d 20 4
  let make := fun (d : Dev) (f : Nat) =>
    (d.newGroup f { part := p, first := f, count := n, total := n * init, home := d.id } (List.replicate n init)).ok k
      (BitVec.ofNat 64 f) 0
  if fieldAt e.d 16 2 = 0xFFFF then
    match d.freeSems p n with
    | some f => make d f
    | none => d.refuse k stLimit
  else if d.runFree p (fieldAt e.d 16 2) n then make d (fieldAt e.d 16 2)
  else d.refuse k stWrong

/-- SEM_GROUP_CREATE (R226). -/
def execSemGroupCreate (ring : Nat) (x : Desc) (s : State) : Res :=
  guarded (.semGroupCreate ring x) (onDev s fun d => d.runOp 0x43 ring x chkSemCreate doSemCreate)

/-- A group leaves the banks with all its tokens. -/
def Dev.endGroup (d : Dev) (first : Nat) (g : SemGroup) : Dev :=
  let d := (d.move 2 first 0 outside g.total (some g.part)).endLed 2 first
  { d with plc := { d.plc with group := tdel d.plc.group first,
                               sem := (List.range g.count).foldl (fun t i => tdel t (first + i)) d.plc.sem } }

/-- SEM_GROUP_DESTROY applied. -/
def doSemDestroy (d : Dev) (k : Nat) (e : DescEntry) : Dev :=
  let f := fieldAt e.d 16 2
  match tget d.plc.group f with
  | none => d.refuse k stBad
  | some g =>
    let busy := (List.range g.count).any fun i => !(d.sem (f + i)).held.isEmpty || !(d.sem (f + i)).queue.isEmpty
    if g.job.isSome || busy then d.refuse k stWrong else (d.endGroup f g).ok k 0 0

/-- SEM_GROUP_DESTROY (R234). -/
def execSemGroupDestroy (ring : Nat) (x : Desc) (s : State) : Res :=
  guarded (.semGroupDestroy ring x) (onDev s fun d =>
    d.runOp 0x44 ring x
      (fun d p x => if !d.semOwned p (fieldAt x 16 2) then stDenied
        else if (tget d.plc.group (fieldAt x 16 2)).isNone then stBad else stOk)
      doSemDestroy)

/-! ### SEM_OP (R227, R229) -/

/-- Total of a DOMAIN group of the active job homed on another device, by one of its semaphores. -/
def Dev.domainTotal (d : Dev) (p home sem : Nat) : Option Nat :=
  match (d.activeJob p).bind fun j => j.sect with
  | none => none
  | some c => (c.groups.find? fun g => g.domain && c.devices[g.home]? == some home &&
      decide (g.first ≤ sem ∧ sem < g.first + g.count)).map fun g => g.init.sum

/-- HOME of a SEM_OP: another device, or none for this one. -/
def semHome (d : Dev) (x : Desc) : Option Nat :=
  let h := fieldAt x 18 2
  if h = 0xFFFF ∨ h = d.id then none else some h

/-- Checks of SEM_OP (Table 08.7): n from 1 to T. -/
def chkSemOp (d : Dev) (p : Nat) (x : Desc) : Byte :=
  let sem := fieldAt x 16 2
  let op := fieldAt x 20 1
  let n := fieldAt x 24 4
  let total := match semHome d x with
    | some h => d.domainTotal p h sem
    | none => some (((d.groupOf sem).map fun (g : Nat × SemGroup) => g.2.total).getD 0)
  if op = 0 ∨ op > 3 ∨ (op = 3 ∧ n ≠ 0) ∨ (op ≠ 3 ∧ n = 0) ∨ ((fieldAt x 21 1).testBit 0 ∧ op ≠ 1) ∨ total.isNone ∨
      (op = 1 ∧ (semHome d x).isSome ∧ n > total.getD 0) then stBad
  else if (semHome d x).isNone ∧ !d.semOwned p sem then stDenied
  else if op = 1 ∧ n > total.getD 0 then stBad
  else stOk

/-- SEM_OP applied: here, or at the home of its DOMAIN group. -/
def doSemOp (d : Dev) (k : Nat) (e : DescEntry) : Dev :=
  let sem := fieldAt e.d 16 2
  let op := fieldAt e.d 20 1
  let n := fieldAt e.d 24 4
  let t := (fieldAt e.d 21 1).testBit 0
  match semHome d e.d with
  | none => d.semApply sem op { who := .ring e.ring, id := k, n := n } t
  | some h =>
    (d.emit (.ctrl h (.semOp { dev := d.id, part := e.part, sem := sem, op := op, n := n, try_ := t, tag := BitVec.ofNat 32 k,
                               value := 0, applied := false, lost := false }))).wait k (.semaphore sem)

/-- SEM_OP (R227). -/
def execSemOp (ring : Nat) (x : Desc) (s : State) : Res :=
  guarded (.semOp ring x) (onDev s fun d => d.runOp 0x45 ring x chkSemOp doSemOp)

/-- SEMAPHORE_OPERATION (R229): an operation of another device on a DOMAIN group homed here. -/
def execSemaphoreOperation (m : SemMsg) (s : State) : Res :=
  guarded (.semaphoreOperation m) (onDev s fun d =>
    match d.groupOf m.sem with
    | some (_, g) =>
      if g.domain && g.home == d.id && g.part == m.part then
        d.semApply m.sem m.op { who := .remote m.dev m.part, id := m.tag.toNat, n := m.n } m.try_
      else d
    | none => d)

/-- Tokens that a ring holds of another device's semaphore, changed. -/
def Dev.noteRemote (d : Dev) (ring home sem n : Nat) (more : Bool) : Dev :=
  let old := ((d.plc.remote.find? fun r => r.1 == ring && r.2.1 == home && r.2.2.1 == sem).map fun r => r.2.2.2).getD 0
  let rest := d.plc.remote.filter fun r => !(r.1 == ring && r.2.1 == home && r.2.2.1 == sem)
  let v := if more then old + n else old - n
  { d with plc := { d.plc with remote := if v = 0 then rest else rest ++ [(ring, home, sem, v)] } }

/-- SEMAPHORE_REPLY (R229): the home's answer, or its loss, completes the SEM_OP. -/
def execSemaphoreReply (m : SemMsg) (s : State) : Res :=
  guarded (.semaphoreReply m) (onDev s fun d =>
    let k := m.tag.toNat
    match tget d.rng.descs k with
    | none => d
    | some e =>
      if e.op ≠ 0x45 || !(match e.st with | .waiting (.semaphore _) => true | _ => false) || semHome d e.d != some m.dev then d
      else if m.lost then d.failOpen k stPeer none
      else if m.op = 2 && !m.applied then d.refuse k stWrong
      else
        let d := if m.applied && m.op != 3 then d.noteRemote e.ring m.dev m.sem (fieldAt e.d 24 4) (m.op == 1) else d
        d.ok k (BitVec.ofNat 64 m.value) (if m.applied then 1 else 0))

/-! ### STATE_READ kind 0x3 (R231) -/

/-- The record of a semaphore (Table 08.12). -/
def Dev.semRecord (d : Dev) (p n : Nat) : List Byte :=
  let make := fun (first total : Nat) (domain : Bool) (job : Option Nat) (parked : Bool) (x : Sem) =>
    let fl := 1 + (if domain then 2 else 0) + (if job.isSome then 4 else 0) + (if parked then 8 else 0)
    let head := x.queue.head?
    let ring := match head.map fun w => w.who with
      | some (.ring r) => r
      | _ => 0xFFFF
    let core := match head.map fun w => w.who with
      | some (.core c) => c
      | _ => 0xFFFF
    padTo 64 (record [(2, n), (2, first), (1, fl), (1, job.getD 0xFF), (2, min 256 x.queue.length), (4, x.value), (4, total),
      (4, x.coreHeld), (4, x.ringHeld), (4, (head.map fun w => w.n).getD 0), (2, ring), (2, core)])
  match d.groupOf n with
  | some (f, g) => if g.home = d.id then make f g.total g.domain g.job false (d.sem n) else make f 0 true g.job false {}
  | none =>
    match d.parkedSem p n with
    | some (slot, f, g, x) => make f g.total g.domain (some slot) true x
    | none => padTo 64 (record [(2, n), (2, 0xFFFF), (1, 0), (1, 0xFF), (2, 0), (4, 0), (4, 0), (4, 0), (4, 0), (4, 0), (2, 0xFFFF), (2, 0xFFFF)])

end Sys2Proof.Machine
end

