-- ==== Sys2Proof/Machine/Placement.lean ====
section
/-! DEFINITION. Placement images, job slots, the layer window, tile jobs of the cores, and what a job switch does at E9
(08_cores_placement_models.md R205–R225, R233–R236; 05_state_tiers_peat.md R137, R140; 14_checkpoint_shrink.md R377–R378). -/

namespace Sys2Proof.Machine

/-! ### Images (R210, R211) -/

/-- The header of an image (Table 08.2). -/
def parseHdr (b : List Byte) : ImageHdr :=
  { assembly := BitVec.ofNat 8 (leAt b 7 1), devices := leAt b 8 2, rung := leAt b 10 1, rungs := leAt b 11 1,
    syncRoot := leAt b 12 2, layers := leAt b 14 1, w := leAt b 15 1, ladder := BitVec.ofNat 64 (leAt b 16 8),
    seed := BitVec.ofNat 64 (leAt b 24 8), classes := BitVec.ofNat 64 (leAt b 32 8), bMax := leAt b 40 4, posMax := leAt b 44 4,
    length := leAt b 48 8, kvFormat := leAt b 56 1, group := leAt b 57 1, heads := leAt b 58 1, dim32 := leAt b 59 1,
    qpk := leAt b 60 1, first := leAt b 61 1, chunk := leAt b 62 2, digest := BitVec.ofNat 384 (leAt b 64 48) }

/-- TYPE and OFFSET of every section entry. -/
def sectionTable (b : List Byte) : List (Nat × Nat) :=
  (List.range (leAt b 112 2)).map fun i => (leAt b (128 + 16 * i) 2, leAt b (128 + 16 * i + 8) 8)

/-- Check 1 of Table 08.4 for one image of `len` bytes with `rungs` rung images. -/
def imageBad1 (b : List Byte) (len rungs : Nat) : Bool :=
  let h := parseHdr b
  let ts := sectionTable b
  let need := [1, 2, 3, 6, 9] ++ (if h.devices > 1 then [5] else []) ++ (if h.rungs > 0 then [0x0A] else [])
  leAt b 0 4 != 0x494C5058 || leAt b 4 2 != 1 || leAt b 6 1 != 7 || h.length != len || h.devices == 0 ||
    decide (h.devices > 256) || decide (h.syncRoot ≥ h.devices) || ts.any (fun t => decide (t.1 = 0 ∨ t.1 > 0x0A ∨ t.2 ≥ len)) ||
    decide (128 + 16 * ts.length > len) || need.any (fun t => !ts.any fun e => e.1 == t) || h.rungs != rungs

/-- SHA-384 over every byte but IMAGE_DIGEST (Table 08.2). -/
def imageDigest (b : List Byte) : Digest := Config.sha384 (b.take 64 ++ b.drop 112)

/-- Cores that an image names on the device at a position. -/
def coresAt (c : Sections) (pos : Nat) : List CoreEnt := c.cores.filter fun x => x.pos == pos

/-- A named core is usable and of the partition (R209). -/
def Dev.coreUsable (d : Dev) (p c : Nat) : Bool :=
  decide (c < 256) && (d.reg (PLC_PART_CORES p (c / 64))).getLsbD (c % 64)

/-- Partition that a core belongs to. -/
def Dev.corePart (d : Dev) (c : Nat) : Option Nat := (List.range 8).find? fun p => d.coreUsable p c

/-- Check 6 for one weight or escalation region that this device holds. -/
def Dev.weightBad (d : Dev) (p : Nat) (w : WeightDef) : Bool :=
  hDevice w.region == d.id &&
  (d.regionStatus p w.region != stOk || match d.region (hRegion w.region) with
    | none => true
    | some r => !r.isSealed || !r.weight || r.tiles != w.tiles)

/-- Check 7 (06 R152, 07 R179, 05 R150). -/
def imageBad7 (h : ImageHdr) (c : Sections) : Bool :=
  !([2, 3, 4, 6, 8].contains h.dim32) || decide (h.heads = 0) || decide (h.heads > 64) || h.group == 0 || h.heads % h.group != 0 ||
    decide (h.ng > 16) || h.qpk == 0 || decide (h.qpk > 16) || !([4, 6, 7].contains h.kvFormat) ||
    decide (64 * h.group * (32 * h.dim32) * kvBytes h.kvFormat > 65536) || h.layers == 0 || h.chunk == 0 ||
    decide (h.chunk > 256) || c.pairings.any (fun x => (modeOf x.1 x.2).isNone) ||
    !(decide (2 ≤ h.w ∧ h.w ≤ h.layers) || h.w == h.layers)

/-- What every image of a ladder has in common (check 8). -/
def ladderKey (h : ImageHdr) : List Nat :=
  [h.ladder.toNat, h.chunk, h.seed.toNat, h.kvFormat, h.group, h.heads, h.dim32, h.layers, h.qpk, h.classes.toNat]

/-- Losses of `k` positions of `n` to which a rung applies, each with the survivors in rung order (R213, R214). -/
def lossPatterns (n : Nat) (chain : Bool) (k : Nat) : List (List Nat × List Nat) :=
  if k ≥ n then []
  else if chain then
    (List.range (k + 1)).map fun a =>
      ((List.range a) ++ (List.range (k - a)).map fun i => n - (k - a) + i, (List.range (n - k)).map fun i => a + i)
  else
    (List.range n).map fun m =>
      ((List.range k).map fun i => (m + i) % n, (List.range (n - k)).map fun i => (m + k + i) % n)

/-- Survivors in rung order after a loss; none when no rung applies (R214). -/
def rungOrder (n : Nat) (chain : Bool) (lost : List Nat) : Option (List Nat) :=
  ((lossPatterns n chain lost.length).find? fun x => lost.all fun l => x.1.contains l).map fun x => x.2

/-- (layer, group) pairs that a position of an image computes. -/
def pairsAt (c : Sections) (pos : Nat) : List (Nat × Nat) :=
  ((coresAt c pos).flatMap fun x => x.layers.flatMap fun l => x.groups.map fun g => (l, g)).eraseDups

/-- A rung keeps every survivor's pairs and gives survivors only pairs of lost devices, for one loss (14 R378). -/
def rungKeeps (full rung : Sections) (x : List Nat × List Nat) : Bool :=
  let lost := x.1.flatMap fun l => pairsAt full l
  x.2.zipIdx.all fun y =>
    (pairsAt full y.1).all (fun q => (pairsAt rung y.2).contains q) &&
      (pairsAt rung y.2).all fun q => (pairsAt full y.1).contains q || lost.contains q

/-- Check 8 for the rung of number `k`: some loss to which it applies keeps R378 (DEDUCED, log 28). -/
def rungBad (n : Nat) (h : ImageHdr) (c : Sections) (k : Nat) (g : ImageHdr) (r : Sections) : Bool :=
  g.rung != k || g.devices + k != n || g.rungs != 0 || ladderKey g != ladderKey h ||
    !((lossPatterns n c.chain k).any fun x => rungKeeps c r x)

/-- RAW frames of the largest layer whose weights this device homes below T1 (R217). -/
def Dev.layerFrames (d : Dev) (c : Sections) : Nat :=
  let mine := c.weights.filter fun w => hDevice w.region == d.id &&
    (d.region (hRegion w.region)).any fun r => r.homeTier != 1
  mine.foldl (fun a w => max a ((mine.filter fun x => x.layer == w.layer).map fun x => x.tiles).sum) 0

/-- The first check of Table 08.4 that an image, or a rung image of it, fails; 0 when all pass. -/
def Dev.imageCheck (d : Dev) (p len : Nat) (x : HostRead) : Nat :=
  match x.sect with
  | none => 1
  | some c =>
    let h := parseHdr x.bytes
    let rs := x.rungs.map fun r => (parseHdr r.1, r.2)
    let all := (h, c) :: rs
    let me := d.position c
    let ports := 8 * d.getF GLB_ASSEMBLY_L_DIES
    let groupBad := fun (own : Bool) (g : GroupDef) =>
      decide (g.count = 0 ∨ g.count > 64) || !inOneBank g.first g.count ||
        (own && !(d.semOwned p g.first && d.semOwned p (g.first + g.count - 1)))
    if imageBad1 x.bytes len x.rungs.length || x.rungs.any (fun r => imageBad1 r.1 r.1.length 0) then 1
    else if all.any fun y => y.1.assembly.toNat % 16 != d.getF GLB_ASSEMBLY_STACKS ||
        y.1.assembly.toNat / 16 != d.getF GLB_ASSEMBLY_L_DIES then 2
    else if imageDigest x.bytes != h.digest || x.rungs.any (fun r => imageDigest r.1 != (parseHdr r.1).digest) then 3
    else if me.isNone then 4
    else if all.any (fun y => y.2.cores.any fun k => decide (k.bgSlots < 4)) ||
        (coresAt c (me.getD 0)).any (fun k => !d.coreUsable p k.core) ||
        rs.any (fun y => y.2.cores.any fun k => !d.coreUsable p k.core) then 5
    else if all.any fun y => (y.2.weights ++ y.2.escalation).any fun w => d.weightBad p w then 6
    else if all.any fun y => imageBad7 y.1 y.2 then 7
    else if rs.zipIdx.any fun y => rungBad h.devices h c (y.2 + 1) y.1.1 y.1.2 then 8
    else if all.any (fun y => y.1.bMax == 0 || decide (y.1.bMax > 65536) || decide (y.1.posMax < y.1.bMax) || y.1.first == 0 ||
        decide (y.1.first > y.1.w)) || decide (h.rungs > 4) then 9
    else if all.any (fun y => y.2.routes.any fun r => decide (r.ports.toNat ≥ 2 ^ ports)) ||
        c.groups.any (fun g => groupBad (some g.home == me) g) || rs.any (fun y => y.2.groups.any fun g => groupBad false g) then 10
    else if ((List.range 4).all fun i => (d.job p i).st != .empty) ||
        all.any (fun y => decide (y.1.w * d.layerFrames y.2 > d.getL (TIER_FRAMES_QUOTA p))) then 11
    else if (List.range 4).any fun i => (d.job p i).st != .empty && (d.job p i).hdr.classes &&& h.classes != 0 then 12
    else 0

/-- Status of a failed check (Table 08.4). -/
def checkStatus (c : Nat) : Byte := if c = 11 then stLimit else if c = 12 then stWrong else stBad

/-- The image's bytes have arrived: it is checked and held in the lowest EMPTY slot (R212, R215). -/
def Dev.imageArrived (d : Dev) (k : Nat) (x : HostRead) : Dev :=
  match tget d.rng.descs k with
  | none => d
  | some e =>
    let p := e.part
    let c := d.imageCheck p (fieldAt e.d 24 8) x
    if c ≠ 0 then d.failOpen k (checkStatus c) (some (BitVec.ofNat 32 c))
    else match (List.range 4).find? fun i => (d.job p i).st == .empty with
      | none => d.refuse k stLimit
      | some i =>
        let g := nextGen (d.job p i).gen (2 ^ 47 - 1)
        let j : Job := { st := .loaded, gen := g, hdr := parseHdr x.bytes, full := (parseHdr x.bytes).digest, sect := x.sect,
                         rungs := x.rungs.map fun r => (parseHdr r.1, r.2) }
        (d.setJob p i j).ok k (mkJobHandle d.id p g i) 0

/-- IMAGE_LOAD (R212). -/
def execImageLoad (ring : Nat) (x : Desc) (s : State) : Res :=
  guarded (.imageLoad ring x) (onDev s fun d =>
    d.runOp 0x40 ring x
      (fun _ _ x => if fieldAt x 16 8 % 4096 ≠ 0 ∨ fieldAt x 24 8 < 256 ∨ fieldAt x 24 8 > 268435456 then stBad else stOk)
      fun d k e => (d.emitFor e.part (.hostRead e.part (BitVec.ofNat 64 (fieldAt e.d 16 8)) (fieldAt e.d 24 8))).wait k .hostRead)

/-- Parked tokens of a job leave the ledger with it. -/
def Dev.dropParked (d : Dev) (p slot : Nat) : Dev :=
  (d.job p slot).groups.foldl (fun (d : Dev) (e : Nat × SemGroup) =>
    if e.2.home ≠ d.id then d
    else
      let d := d.move 2 e.1 3 outside e.2.total (some p)
      let other := (tget d.plc.group e.1).isSome ||
        (List.range 4).any fun i => i != slot && (tget (d.job p i).groups e.1).isSome
      if other then d else d.endLed 2 e.1) d

/-- Host waiters of a job's parked semaphores. -/
def Job.waiters (j : Job) : List Nat :=
  j.saved.flatMap fun e => e.2.queue.filterMap fun w => match w.who with
    | .ring _ => some w.id
    | _ => none

/-! ### JOB_SWITCH (R218, R222) -/

/-- This device is the sync root of a job by its image. -/
def Dev.rootOf (d : Dev) (j : Job) : Bool :=
  match j.sect with
  | none => true
  | some c => d.position c == some j.hdr.syncRoot

/-- Positions of the other devices of a job. -/
def Dev.others (d : Dev) (j : Job) : List (Nat × Nat) :=
  match j.sect with
  | none => []
  | some c => (c.devices.zipIdx.filter fun x => x.1 != d.id).map fun x => (x.2, x.1)

/-- A switch whose devices have all confirmed: it waits for its boundary, and its job is PENDING. -/
def Dev.acceptSwitch (d : Dev) (p : Nat) (job : Option Nat) : Dev :=
  let d := match job with
    | some i => d.modJob p i fun j => { j with st := .pending }
    | none => d
  d.modStep p fun s => { s with switchTo := some job }

/-- The device with the switch of a partition set. -/
def Dev.setSwitch (d : Dev) (p : Nat) (x : Switch) : Dev := { d with plc := { d.plc with switch := tput d.plc.switch p x } }

/-- The device with no switch of a partition. -/
def Dev.dropSwitch (d : Dev) (p : Nat) : Dev := { d with plc := { d.plc with switch := tdel d.plc.switch p } }

/-- JOB_SWITCH applied. -/
def doJobSwitch (d : Dev) (k : Nat) (e : DescEntry) : Dev :=
  let p := e.part
  let i := hSlot e.d.target
  let j := d.job p i
  let stop := (fieldAt e.d 16 1).testBit 0
  let root := match d.activeJob p with
    | some a => d.rootOf a
    | none => d.rootOf j
  if !root || (tget d.plc.switch p).isSome || j.ended then d.refuse k stWrong
  else if stop then
    if j.st = .active then
      ((d.setSwitch p { desc := some k, job := none }).acceptSwitch p none).wait k .switch
    else d.refuse k stWrong
  else if j.st ≠ .loaded || j.vocab.isNone then d.refuse k stWrong
  else
    let ask := d.others j
    let d := ask.foldl (fun d x => d.emit (.ctrl x.2 (.probe p (.job j.full)))) d
    let d := (d.setSwitch p { desc := some k, job := some i, asked := ask.map fun x => x.1 }).wait k .switch
    if ask.isEmpty then d.acceptSwitch p (some i) else d

/-- JOB_SWITCH (R218). -/
def execJobSwitch (ring : Nat) (x : Desc) (s : State) : Res :=
  guarded (.jobSwitch ring x) (onDev s fun d => d.runOp 0x41 ring x (fun d p x => d.jobStatus p x.target) doJobSwitch)

/-- A switch that still awaits answers. -/
def Dev.probing (d : Dev) (p : Nat) : Option Switch := (tget d.plc.switch p).filter fun x => !x.asked.isEmpty

/-- A device answered a switch probe: the last confirmation lists the switch; a refusal ends it with the position. -/
def Dev.switchAnswer (d : Dev) (p pos : Nat) (x : Switch) (holds : Bool) : Dev :=
  if !x.asked.contains pos then d
  else if holds then
    let left := x.asked.filter fun q => q != pos
    let d := d.setSwitch p { x with asked := left }
    if left.isEmpty then d.acceptSwitch p x.job else d
  else
    let d := d.dropSwitch p
    match x.desc with
    | some k => d.failOpen k stWrong (some (BitVec.ofNat 32 pos))
    | none => d

/-- No answer within 50 ms: PEER_LOST. -/
def Dev.switchTimeout (d : Dev) (p : Nat) (x : Switch) : Dev :=
  let d := d.dropSwitch p
  match x.desc with
  | some k => d.failOpen k stPeer none
  | none => d

/-! ### The layer window (R217; 05 R137, R140) -/

/-- Weight regions of a layer that this device homes below T1. -/
def Dev.deepWeights (d : Dev) (c : Sections) (l : Nat) : List WeightDef :=
  c.weights.filter fun w => w.layer == l && hDevice w.region == d.id && (d.region (hRegion w.region)).any fun r => r.homeTier != 1

/-- Every weight tile of a layer can be read in T1. -/
def Dev.layerPresent (d : Dev) (c : Sections) (l : Nat) : Bool :=
  (d.deepWeights c l).all fun w => match d.region (hRegion w.region) with
    | some r => (List.range r.tiles).all fun t => (r.rawHere t).isSome
    | none => true

/-- The next source of a weight tile after `tried` have failed: a home or replica in T1 serves at once, one below T1 is read,
one of another device answers as a free value (log 22); with none left the layer is degraded (05 R137, R138). -/
def Dev.weightNext : Nat → Dev → Nat → Nat → Nat → U64 → Dev
  | 0, d, n, t, _, addr => d.degrade n t addr
  | fuel + 1, d, n, t, tried, addr =>
    match d.region n with
    | none => d
    | some r =>
      let keep := fun (d : Dev) (raw : List Byte) =>
        (d.modTile n t fun x => { x with cache := some (raw, false), bad := 0 }).failover r.part addr
      if tried ≥ r.sources then d.degrade n t addr
      else if tried = 0 then d.request r.part (.weight n t 0) (d.tileAddr r t) (512 * (r.at t).sectors) none
      else
        let h := r.replicas.getD (tried - 1) 0
        if hDevice h ≠ d.id then
          let (v, d) := d.draw
          if v.getLsbD 0 then
            let base := d.free
            let raw := (List.range 8192).flatMap fun i => leBytes 8 (Config.freeValue (base + i)).toNat
            keep { d with free := base + 8192 } raw
          else Dev.weightNext fuel d n t (tried + 1) addr
        else match d.region (hRegion h) with
          | none => Dev.weightNext fuel d n t (tried + 1) addr
          | some q =>
            if (q.at t).bad ≠ 0 then Dev.weightNext fuel d n t (tried + 1) addr
            else match q.rawHere t with
              | some raw => keep d raw
              | none => d.request r.part (.weight n t tried) (d.tileAddr q t) (512 * (q.at t).sectors) none

/-- A source of a weight tile answered. -/
def Dev.weightAck (d : Dev) (n t tried : Nat) (addr : U64) (res : Except Byte (List Byte)) : Dev :=
  match d.region n with
  | none => d
  | some r =>
    let src := if tried = 0 then n else hRegion (r.replicas.getD (tried - 1) 0)
    match d.tileArrived src t res with
    | (d, .ok raw) =>
      let d := d.modTile n t fun x => { x with cache := some (raw, false), bad := 0 }
      if tried = 0 then d else d.failover r.part (d.tileAddr r t)
    | (d, .error _) => Dev.weightNext 8 d n t (tried + 1) addr

/-- Fetches issued for the slots that are due and whose frames the window has. -/
def Dev.windowAsk (d : Dev) (p : Nat) : Dev :=
  let w := d.window p
  match (d.activeJob p).bind fun j => j.sect with
  | none => d
  | some c =>
    let due := w.wanted.filter fun x => !w.asked.contains x && decide ((x.1 + 1) * w.each ≤ w.frames)
    due.foldl (fun (d : Dev) x =>
      let d := d.modWindow p fun w => { w with asked := w.asked ++ [x] }
      (d.deepWeights c x.2).foldl (fun d e =>
        (List.range e.tiles).foldl (fun d t => Dev.weightNext 8 d (hRegion e.region) t 0 0) d) d) d

/-- Frames that the window still lacks, taken from FREE (R217: found under 05 R132 and R220). -/
def Dev.windowFrames (d : Dev) (p want : Nat) : Dev :=
  let w := d.window p
  let n := min (want - w.frames) (d.freeFrames p)
  if n = 0 then d
  else ((d.moveFrames p 0 2 n).modWindow p fun w => { w with frames := w.frames + n }).windowAsk p

/-- Frames that a window's slots need. -/
def Dev.windowWant (d : Dev) (p : Nat) : Nat :=
  match d.activeJob p with
  | some j => j.hdr.w * (d.window p).each
  | none => 0

/-- The window of the incoming job is filled in layer order from J4 (R217). Layers with nothing homed below T1 are present. -/
def Dev.startWindow (d : Dev) (p : Nat) (j : Job) : Dev :=
  match j.sect with
  | none => d
  | some c =>
    let ls := List.range (min j.hdr.w j.hdr.layers)
    let deep := fun (l : Nat) => !(d.deepWeights c l).isEmpty
    let each := d.layerFrames c
    let d := d.modWindow p fun w =>
      { w with holds := (ls.filter fun l => !deep l).map fun l => (l, l), wanted := (ls.filter deep).map fun l => (l, l),
               asked := [], each := each }
    d.windowFrames p (j.hdr.w * each)

/-- T1 copies of a layer's weights dropped; their frames stay with the window. -/
def Dev.dropLayer (d : Dev) (c : Sections) (l : Nat) : Dev :=
  (d.deepWeights c l).foldl (fun (d : Dev) w => d.modRegion (hRegion w.region) fun r =>
    { r with tile := r.tile.map fun e => (e.1, { e.2 with cache := none }) }) d

/-- The window of the outgoing job is released (R220). -/
def Dev.endWindow (d : Dev) (p : Nat) (j : Job) : Dev :=
  let w := d.window p
  let d := match j.sect with
    | some c => (List.range j.hdr.layers).foldl (fun (d : Dev) l => d.dropLayer c l) d
    | none => d
  let d := if w.frames = 0 then d else d.moveFrames p 2 0 w.frames
  d.modWindow p fun w => { w with holds := [], wanted := [], asked := [], frames := 0, each := 0 }

/-- A slot of the window holds a layer. -/
def Dev.layerHeld (d : Dev) (p l : Nat) : Bool := (d.window p).holds.any fun x => x.2 == l

/-- Cores of this device that wait for a layer which is not present (05 R140). -/
def Dev.stallAt (d : Dev) (p l : Nat) : Dev :=
  match d.activeJob p, (d.activeJob p).bind fun j => j.sect with
  | some j, some c =>
    if decide (l < j.hdr.layers) && !d.layerHeld p l then
      d.satL (TIER_WINDOW_STALLS p) ((coresAt c ((d.position c).getD 0)).filter fun x => x.layers.contains l).length
    else d
  | _, _ => d

/-- J7: the first FIRST_LAYERS layers are present, and the switch completes (Table 08.6). -/
def Dev.switchDone (d : Dev) (p : Nat) : Dev :=
  match (d.window p).filling with
  | none => d
  | some f =>
    if (List.range f.first).all fun l => d.layerHeld p l then
      let d := d.modWindow p fun w => { w with filling := none }
      let us := (d.clock.now - f.since).toNat / 1000
      let d := (d.setL (PLC_SWITCH_WINDOW_US p) us).setL (PLC_JOB_SWITCHES p) (d.getL (PLC_JOB_SWITCHES p) + 1)
      match f.desc with
      | some k => d.ok k f.step (BitVec.ofNat 32 f.reissued)
      | none => d
    else d

/-- LAYER_FINISHED (05 R140): every core has finished a layer of the step: with W below L its slot is refilled with layer
(l + W) mod L, and a next layer that is not present makes its cores wait. -/
def execLayerFinished (p layer : Nat) (s : State) : Res :=
  guarded (.layerFinished p layer) (onDev s fun d =>
    match d.activeJob p, (d.activeJob p).bind fun j => j.sect with
    | some j, some c =>
      if d.phase p ≠ 0 || layer ≥ j.hdr.layers then d
      else
        let d := d.stallAt p (layer + 1)
        let k := layer % j.hdr.w
        if j.hdr.w < j.hdr.layers && (d.window p).holds.any (fun x => x.1 == k && x.2 == layer) then
          let next := (layer + j.hdr.w) % j.hdr.layers
          let d := d.dropLayer c layer
          let d := d.modWindow p fun w => { w with holds := tdel w.holds k }
          if (d.deepWeights c next).isEmpty then d.modWindow p fun w => { w with holds := tput w.holds k next }
          else (d.modWindow p fun w => { w with wanted := w.wanted ++ [(k, next)] }).windowAsk p
        else d
    | _, _ => d)

/-- WINDOW_SLOT_FILLED (05 R140): a slot whose layer's tiles are all in holds that layer. -/
def execWindowSlotFilled (p slot : Nat) (s : State) : Res :=
  guarded (.windowSlotFilled p slot) (onDev s fun d =>
    match (d.activeJob p).bind fun j => j.sect, (d.window p).asked.find? fun x => x.1 == slot with
    | some c, some x =>
      if d.layerPresent c x.2 then
        (d.modWindow p fun w =>
          { w with holds := tput w.holds slot x.2, wanted := w.wanted.filter (· != x), asked := w.asked.filter (· != x) }).switchDone p
      else d
    | _, _ => d)

/-! ### What a switch does at E9 (Table 08.6, R221, R223) -/

/-- J2: semaphores of the outgoing job are saved with their groups, and its tokens are parked (R223). -/
def Dev.saveSems (d : Dev) (p slot : Nat) : Dev :=
  let mine := d.plc.group.filter fun e => e.2.part == p && e.2.job == some slot
  let nums := mine.flatMap fun e => (List.range e.2.count).map fun i => e.1 + i
  let d := mine.foldl (fun (d : Dev) (e : Nat × SemGroup) =>
    if e.2.home ≠ d.id then d
    else
      let xs := (List.range e.2.count).map fun i => d.sem (e.1 + i)
      let d := d.move 2 e.1 0 3 ((xs.map fun x => x.value).sum) (some p)
      let d := d.move 2 e.1 1 3 ((xs.map fun x => x.coreHeld).sum) (some p)
      d.move 2 e.1 2 3 ((xs.map fun x => x.ringHeld).sum) (some p)) d
  let saved := nums.filterMap fun n => (tget d.plc.sem n).map fun x => (n, x)
  let d := d.modJob p slot fun j => { j with groups := mine, saved := saved }
  { d with plc := { d.plc with group := mine.foldl (fun t e => tdel t e.1) d.plc.group,
                               sem := nums.foldl (fun t n => tdel t n) d.plc.sem } }

/-- J4: groups of the incoming job restored, or created with their initial values at its first run (R223, R226). -/
def Dev.restoreSems (d : Dev) (p slot : Nat) : Dev :=
  let j := d.job p slot
  if j.hasRun then
    let d := { d with plc := { d.plc with
      group := j.groups.foldl (fun t e => tput t e.1 { e.2 with job := some slot }) d.plc.group,
      sem := j.saved.foldl (fun t e => tput t e.1 e.2) d.plc.sem } }
    let d := j.groups.foldl (fun (d : Dev) (e : Nat × SemGroup) =>
      if e.2.home ≠ d.id then d
      else
        let xs := (List.range e.2.count).map fun i => d.sem (e.1 + i)
        let d := d.move 2 e.1 3 0 ((xs.map fun x => x.value).sum) (some p)
        let d := d.move 2 e.1 3 1 ((xs.map fun x => x.coreHeld).sum) (some p)
        d.move 2 e.1 3 2 ((xs.map fun x => x.ringHeld).sum) (some p)) d
    d.modJob p slot fun j => { j with groups := [], saved := [] }
  else
    match j.sect with
    | none => d
    | some c => c.groups.foldl (fun (d : Dev) g =>
        let home := c.devices.getD g.home 0
        let x : SemGroup := { part := p, first := g.first, count := g.count, total := g.init.sum, domain := g.domain,
                              job := some slot, home := home }
        if home = d.id then d.newGroup g.first x g.init
        else if g.domain then { d with plc := { d.plc with group := tput d.plc.group g.first x } }
        else d) d

/-- Tokens that a partition's LOADED jobs have parked. -/
def Dev.parkedTokens (d : Dev) (p : Nat) : Nat :=
  ((List.range 4).map fun i => ((d.job p i).groups.map fun e => if e.2.home = d.id then e.2.total else 0).sum).sum

/-- PARKED_TOKENS shows the parked tokens, saturating. -/
def Dev.showParked (d : Dev) (p : Nat) : Dev := d.setF (PLC_SEM_PARKED_TOKENS p) (min (d.parkedTokens p) (2 ^ 32 - 1))

/-- Registers that report the active image (06 R152, 04 R102, 07 R189, 02 R47, 05 Table 05.13). -/
def Dev.showImage (d : Dev) (p : Nat) (h : ImageHdr) (root cores : Nat) : Dev :=
  let d := ((d.setL (KVA_GEOM_KV_FORMAT p) h.kvFormat).setL (KVA_GEOM_LAYERS p) h.layers).setL (KVA_GEOM_CHUNK_PAGES p) h.chunk
  let d := ((d.setL (KVA_GEOM_QPK p) (h.qpk - 1)).setL (KVA_GEOM_DIM32 p) h.dim32).setL (KVA_GEOM_GROUP p) h.group
  let d := ((d.setL (KVA_GEOM_KV_HEADS p) h.heads).setL (YOY_BATCH_B_MAX p) h.bMax).setL (YOY_BATCH_POS_MAX p) h.posMax
  let d := (d.setL (TIER_WINDOW_LAYERS p) h.layers).setL (TIER_WINDOW_W p) h.w
  let d := (d.setL (PLC_JOB_RUNG p) h.rung).setL (PLC_CORE_CORES p) cores
  (d.setF (GLB_SYNC_CFG_ROOT_DEVICE p) root).setReg (ARI_ROUND_SEED p) h.seed

/-- J2 for the outgoing job: it is LOADED, its context is held. -/
def Dev.jobOut (d : Dev) (p slot : Nat) : Dev :=
  let d := d.saveSems p slot
  let a := tgetD d.ari p {}
  let d := d.modJob p slot fun j => { j with st := .loaded, hasRun := true, ari := some a }
  d.endWindow p (d.job p slot)

/-- J4 for the incoming job: its context is restored or made, its sessions with work enter READY (R221), its window starts. -/
def Dev.jobIn (d : Dev) (p slot : Nat) : Dev :=
  let d := d.restoreSems p slot
  let j := d.job p slot
  let d := { d with ari := tput d.ari p (j.ari.getD (loadAri j)) }
  let d := d.modJob p slot fun j => { j with st := .active, ari := none }
  let c := j.sect.getD { devices := [d.id], chain := false, cores := [], groups := [], routes := [], weights := [], escapes := [], escalation := [], shards := 0, pairings := [] }
  let d := d.showImage p j.hdr (c.devices.getD j.hdr.syncRoot 0) (((coresAt c ((d.position c).getD 0)).map fun x => x.core).eraseDups).length
  let wake := d.sesWhere p fun s => (s.st == .parked || s.st == .idle) && (s.genArmed || s.staged != 0) && j.hdr.classes.getLsbD s.cls
  let d := wake.foldl (fun d l => d.modSes l fun s => { s with st := .ready }) d
  d.startWindow p j

/-- No job is active: what reported one reads 0. -/
def Dev.noImage (d : Dev) (p : Nat) : Dev :=
  { d.showImage p {} 0 0 with ari := tdel d.ari p }

/-- JOB_UNLOAD applied: the slot is EMPTY again; the frames of its vocabulary become FREE at the next E8, and ACQUIREs that
still wait at its parked semaphores complete with WRONG_STATE (DESIGN CHOICE, log 29). A job that halted for want of a rung
is unloaded whatever its sessions, which a new image may serve (14 R380; DEDUCED, log 30). -/
def doJobUnload (d : Dev) (k : Nat) (e : DescEntry) : Dev :=
  let p := e.part
  let i := hSlot e.d.target
  let j := d.job p i
  if (j.st = .active && !j.ended) || j.st = .pending || (!j.ended &&
      d.tus.slot.any (fun (x : Nat × Session) => d.locOwner x.1 == some p && x.2.st != .free && j.hdr.classes.getLsbD x.2.cls)) then
    d.refuse k stWrong
  else
    let d := d.dropParked p i
    let n := j.vocab.elim 0 fun v => v.frames
    let g := fun (f : Frames) => { f with freeMeta := f.freeMeta + n }
    let d := { d with tier := { d.tier with frames := tmod d.tier.frames p {} g } }
    let d := (j.waiters).foldl (fun d w => d.refuse w stWrong) d
    let d := if j.st = .active then (((d.endWindow p j).noImage p).modStep p fun s => { s with noRung := false }).setPhase p 6 else d
    (d.setJob p i { gen := j.gen }).ok k 0 0

/-- JOB_UNLOAD (R234). -/
def execJobUnload (ring : Nat) (x : Desc) (s : State) : Res :=
  guarded (.jobUnload ring x) (onDev s fun d => d.runOp 0x42 ring x (fun d p x => d.jobStatus p x.target) doJobUnload)

/-- A REVIVING session of a job that is not active is PARKED once its fetches are acknowledged (R220). -/
def Dev.reviveStop (d : Dev) (loc : Nat) : Dev :=
  let s := d.ses loc
  let p := d.sesPart loc
  let busy := d.reqCount (fun q => match q with
    | .fetchPage l _ => l == loc
    | _ => false) > 0
  if s.st = .reviving && !d.isActive p loc && !busy then
    let n := (s.pages.filter fun e => !e.2.here).length
    let d := if n = 0 then d else d.moveFrames p 4 0 n
    ((d.enter loc .parked).modSes loc fun s => { s with fetching := [], depth := max 1 (depthOf s.pages) }).recountDropped loc
  else d

/-- J5: the outgoing job's sessions leave the batch for PARKING, and its revivals stop (R220). -/
def Dev.batchOut (d : Dev) (p slot : Nat) : Dev :=
  let mine := fun (s : Session) => (d.job p slot).hdr.classes.getLsbD s.cls
  let out := d.sesWhere p fun s => s.inBatch && (s.st == .resident || s.st == .waiting) && mine s
  let d := out.foldl (fun d l => (d.toParking l 0 0).modSes l fun s => { s with inBatch := false, heldStep := false, heldFor := none }) d
  (d.sesWhere p fun s => s.st == .reviving && mine s).foldl (fun d l => d.reviveStop l) d

/-! ### Tile jobs of the cores (R206, R208; 07 R186, R191, R192, R194, R195) -/

/-- A core. -/
def Dev.core (d : Dev) (c : Nat) : Core := tgetD d.plc.core c {}

/-- A core changed. -/
def Dev.modCore (d : Dev) (c : Nat) (f : Core → Core) : Dev := { d with plc := { d.plc with core := tmod d.plc.core c {} f } }

/-- The tile loader puts a tile into a slot of its core; a damaged weight tile is fetched from its next source (R206, 05 R137). -/
def Dev.loadSlot (d : Dev) (p c slot n t : Nat) : Dev :=
  match d.region n with
  | none => d
  | some r =>
    if r.part ≠ p then d
    else if r.weight && (r.at t).bad != 0 && (r.at t).cache.isNone then Dev.weightNext 8 d n t 1 (r.at t).storedAt
    else match r.rawHere t with
      | some raw => d.modCore c fun x => { x with slots := tput x.slots (slot % 48) raw }
      | none => d

/-- The operand in a slot. -/
def Core.operand (x : Core) (slot fmt rows cols : Nat) : Operand :=
  { fmt := fmt, rows := rows, cols := cols, data := padTo tileSize (tgetD x.slots (slot % 48) []) }

/-- An FP32 value that is NaN or infinite. -/
def notFinite (x : U32) : Bool := !(f32 x).finite

/-- At a layer's top level NaN becomes 0 and an infinity the largest finite value of its sign (07 R194). -/
def clampFinite (x : U32) : U32 :=
  match f32 x with
  | .nan => 0
  | .inf neg => if neg then 0xFF7FFFFF else 0x7F7FFFFF
  | .fin _ _ _ => x

/-- A weight product: outputs in FP32 in slot `o`, escape sums added after the last chunk, clamps counted, rows with
non-finite values trapped. -/
def Dev.runProduct (d : Dev) (p c layer mode w a o wfmt afmt rows acts k : Nat) (esc : Option (Nat × Nat × Nat))
    (entries : List Nat) : Dev :=
  let x := d.core c
  let r := product mode (x.operand w wfmt rows k) (x.operand a afmt acts k)
  let outs : List (List U32) := match esc with
    | none => r.1
    | some (ew, ea, n) =>
      let q := (product 4 (x.operand ew 0x13 rows n) (x.operand ea 0x13 acts n)).1
      (r.1.zip q).map fun y => (y.1.zip y.2).map fun z => fadd z.1 z.2
  let d := d.countSat p layer r.2
  let d := d.modLayer p layer fun l => { l with jobs := l.jobs + 1 }
  let top := (d.layer p layer).level == (d.layer p layer).top
  let d := (outs.zip entries).foldl (fun (d : Dev) (y : List U32 × Nat) => if y.1.any notFinite then d.nonfinite c y.2 layer else d) d
  let outs := if top then outs.map fun row => row.map clampFinite else outs
  let bytes := outs.flatMap fun row => row.flatMap fun v => leBytes 4 v.toNat
  d.modCore c fun x => { x with slots := tput x.slots (o % 48) (padTo tileSize bytes), sat := x.sat + r.2 }

/-- CORE_TILE_JOB_DONE (R208): what a finished job of a core's stream, or a background job, leaves. -/
def execCoreTileJobDone (core : Nat) (job : TileJob) (s : State) : Res :=
  guarded (.coreTileJobDone core job) (onDev s fun d =>
    match d.corePart core with
    | none => d
    | some p =>
      let d := d.modCore core fun x => { x with jobs := x.jobs + 1 }
      match job with
      | .background => d.satL (PLC_CORE_BG_JOBS p) 1
      | .semOp sem op n => if (d.groupOf sem).any (fun (g : Nat × SemGroup) => g.2.part == p) then
          d.semApply sem op { who := .core core, id := core, n := n } false else d
      | .damaged loc page => if d.locOwner loc = some p then d.pageDamaged core loc page else d
      | .nonfinite loc layer => if d.locOwner loc = some p then d.nonfinite core loc layer else d
      | .scatter loc layer group first rows => if d.locOwner loc = some p then d.scatter loc layer group first rows else d
      | .attention loc layer head chunk q own => if d.locOwner loc = some p then d.attention core loc layer head chunk q own else d
      | .product layer loads wfmt afmt w a o rows acts k esc entries =>
        match modeOf wfmt afmt with
        | none => d
        | some mode =>
          let d := loads.foldl (fun d x => d.loadSlot p core x.1 x.2.1 x.2.2) d
          d.runProduct p core layer mode w a o wfmt afmt rows acts k esc entries)

end Sys2Proof.Machine
end

