-- ==== Sys2Proof/Machine/Reed.lean ====
section
/-! DEFINITION. The Reed vector-search engine: indexes, inserts and deletes by epoch, queries, merges
(10_reed_vector_search.md R268–R287, R291, R292). -/

namespace Sys2Proof.Machine

/-! ### Indexes -/

/-- An index. -/
def Dev.index (d : Dev) (i : Nat) : Option Index := tget d.red.index i

/-- An index changed. -/
def Dev.modIndex (d : Dev) (i : Nat) (f : Index → Index) : Dev :=
  { d with red := { d.red with index := tupd d.red.index i f } }

/-- Partition of an index number (R268). -/
def Dev.idxOwner (d : Dev) (n : Nat) : Option Nat :=
  (List.range 8).find? fun p => decide (d.getF (RED_PART_FIRST p) ≤ n ∧ n < d.getF (RED_PART_FIRST p) + d.getF (RED_PART_COUNT p))

/-- Status of an index handle for a partition (R50, R268). -/
def Dev.indexStatus (d : Dev) (p : Nat) (h : U64) : Byte :=
  if hDevice h ≠ d.id then stNoSession
  else if hPart h ≠ p ∨ d.idxOwner (hLocal h) ≠ some p then stDenied
  else match d.index (hLocal h) with
    | none => stNoSession
    | some x => if x.gen ≠ hGen h ∨ x.dying then stNoSession else stOk

/-- No epoch (Table 10.3). -/
def noEpoch : Nat := 0xFFFFFFFF

/-! ### Layout (R272, R273) -/

/-- Bytes of an entry record. -/
def Index.recBytes (x : Index) : Nat :=
  ceilDiv (32 + (if x.memory then x.bits / 8 else x.m + 8 * x.r)) 32 * 32

/-- Records of a node tile. -/
def Index.perTile (x : Index) : Nat := tileSize / x.recBytes

/-- Codebook tiles. -/
def Index.cbTiles (x : Index) : Nat := if x.memory then 0 else ceilDiv (512 * x.dim) tileSize

/-- Side-list tiles. -/
def Index.slTiles (x : Index) : Nat := ceilDiv (16 * x.sideMax) tileSize

/-- First node tile. -/
def Index.nodeFirst (x : Index) : Nat := 1 + x.cbTiles + x.slTiles

/-- Tiles of the index region. -/
def Index.tileCount (x : Index) : Nat := x.nodeFirst + ceilDiv x.capacity x.perTile

/-- Vectors of a tile of the vector region. -/
def Index.vecPer (x : Index) : Nat := tileSize / (2 * x.dim)

/-- Node tile of an entry. -/
def Index.nodeTile (x : Index) (i : Nat) : Nat := x.nodeFirst + i / x.perTile

/-- Vector tile of an entry. -/
def Index.vecTile (x : Index) (i : Nat) : Nat := i / x.vecPer

/-- The record of an entry (Table 10.3). -/
def Index.recordOf (x : Index) (e : Entry) : List Byte :=
  let bank := fun (b : List Nat) => (List.range x.r).flatMap fun j => leBytes 4 (b.getD j noEpoch)
  padTo x.recBytes (record [(4, e.born), (4, e.dead), (4, e.linked), (4, e.from0), (4, e.from1), (2, if e.repaired then 1 else 0),
    (2, 0), (8, e.label.toNat)] ++ e.codes ++ (if x.memory then [] else bank e.bank0 ++ bank e.bank1))

/-- Payload of a tile of the index region (Table 10.2; the header's and the side list's places, log 31). -/
def Index.tileAt (x : Index) (t : Nat) : List Byte :=
  if t = 0 then padTo tileSize (Config.reedHeader ([x.epoch, x.lastCommit, x.high, x.dim, x.m, x.r, x.bits, x.capacity, x.sideMax] ++ x.free))
  else if t ≤ x.cbTiles then padTo tileSize ((x.codebook.flatMap fun c => leBytes 2 c.toNat).drop ((t - 1) * tileSize))
  else if t < x.nodeFirst then
    let side := x.side.flatMap fun s => record [(4, s.1), (4, s.2.1), (1, if s.2.2 then 1 else 0), (7, 0)]
    padTo tileSize (side.drop ((t - 1 - x.cbTiles) * tileSize))
  else padTo tileSize ((List.range x.perTile).flatMap fun j =>
    match tget x.entries ((t - x.nodeFirst) * x.perTile + j) with
    | some e => x.recordOf e
    | none => List.replicate x.recBytes 0)

/-- Payload of a tile of the vector region. -/
def Index.vecAt (x : Index) (t : Nat) : List Byte :=
  padTo tileSize ((List.range x.vecPer).flatMap fun j =>
    match tget x.entries (t * x.vecPer + j) with
    | some e => e.vec.flatMap fun v => leBytes 2 v.toNat
    | none => List.replicate (2 * x.dim) 0)

/-- A T1 frame for a copy: a FREE one, or that of a clean copy, which is dropped (05 R132); none when there is neither. -/
def Dev.copyFrame (d : Dev) (p : Nat) : Option Dev :=
  if d.freeFrames p > 0 then some (d.moveFrames p 0 2 1)
  else match d.cleanCopies p with
    | [] => none
    | (n, t) :: _ => some (d.modTile n t fun x => { x with cache := none })

/-- Frames that copies of some tiles of a region still need. -/
def Dev.copiesMissing (d : Dev) (n : Nat) (ts : List Nat) : Nat :=
  match d.region n with
  | some r => if r.wback then (ts.filter fun t => (r.at t).cache.isNone).length else 0
  | none => 0

/-- Reed writes a tile of a bound region: in T1, or as a DIRTY copy (R271). -/
def Dev.reedTile (d : Dev) (n t : Nat) (raw : List Byte) : Dev :=
  match d.region n with
  | none => d
  | some r =>
    if !r.wback then d.engineTile n t raw
    else
      let d := d.touch n t
      let d := if (r.at t).cache.isSome then d else (d.copyFrame r.part).getD d
      d.modTile n t fun x =>
        { x with gen := x.gen + 1, digest := crc64 raw, cache := some (raw, true), bad := 0, tier := r.tierOf t,
                 storedAt := d.tileAddr r t, keyId := r.keyId }

/-- Tiles of the index region and of the vector region rewritten from the index. -/
def Dev.reedSync (d : Dev) (i : Nat) (ts vs : List Nat) : Dev :=
  match d.index i with
  | none => d
  | some x =>
    let d := ts.foldl (fun d t => d.reedTile x.region t (x.tileAt t)) d
    match x.vecRegion with
    | some v => vs.foldl (fun d t => d.reedTile v t (x.vecAt t)) d
    | none => d

/-! ### Arithmetic (R270, R277, R283) -/

/-- FP32 fused multiply-add. -/
def fma (a b c : U32) : U32 := toF32 (((f32 a).mul (f32 b)).add (f32 c))

/-- FP32 value of a BF16 element. -/
def bf (x : U16) : U32 := BitVec.ofNat 32 (x.toNat * 65536)

/-- Dot product in ascending element order. -/
def dotVec (a b : List U16) : U32 := (a.zip b).foldl (fun s x => fma (bf x.1) (bf x.2) s) 0

/-- Squared Euclidean distance in ascending element order. -/
def distVec (a b : List U16) : U32 :=
  (a.zip b).foldl (fun s x => let q := fsub (bf x.1) (bf x.2); fma q q s) 0

/-- δ from a score: the smaller ranks first. -/
def deltaOf (metric : Nat) (s : U32) : U32 := if metric = 2 then s else toF32 (f32 s).negate

/-- Score from δ. -/
def scoreOf (metric : Nat) (x : U32) : U32 := if metric = 2 then x else toF32 (f32 x).negate

/-- A vector of a cosine index normalised (R270). -/
def normalise (v : List U16) : List U16 :=
  let r := Config.rsqrt (dotVec v v)
  v.map fun x => BitVec.ofNat 16 (fmtBF16.encode false (f32 (fmul (bf x) r)))

/-- A vector that an insert or a query refuses. -/
def vectorBad (metric : Nat) (v : List U16) : Bool :=
  v.any (fun x => !(fmtBF16.decode x.toNat).finite) || (metric == 1 && v.all fun x => x.toNat % 32768 == 0)

/-- A centroid of a codebook. -/
def Index.centroid (x : Index) (s c : Nat) : List U16 :=
  let n := x.dim / x.m
  (x.codebook.drop ((s * 256 + c) * n)).take n

/-- Subvector `s` of a vector. -/
def Index.sub (x : Index) (v : List U16) (s : Nat) : List U16 := (v.drop (s * (x.dim / x.m))).take (x.dim / x.m)

/-- Product codes of a vector: the nearest centroid of each subspace, ties to the lower code (R277). -/
def Index.encode (x : Index) (v : List U16) : List Byte :=
  (List.range x.m).map fun s =>
    let ds := (List.range 256).map fun c => (distVec (x.sub v s) (x.centroid s c), c)
    BitVec.ofNat 8 ((ds.foldl (fun b y => if (f32 y.1).lt (f32 b.1) then y else b) (ds.headD (0, 0))).2)

/-- An entry of a query's distance table, FP16 (R277). -/
def Index.tableEntry (x : Index) (q : List U16) (s c : Nat) : U32 :=
  let v := if x.metric = 2 then distVec (x.sub q s) (x.centroid s c) else dotVec (x.sub q s) (x.centroid s c)
  toF32 (fmtF16.decode (fmtF16.encode false (f32 v)))

/-- PQ score of codes. -/
def Index.pqScore (x : Index) (q : List U16) (codes : List Byte) : U32 :=
  codes.zipIdx.foldl (fun a y => fadd a (x.tableEntry q y.2 y.1.toNat)) 0

/-- Exact score of an entry. -/
def Index.exact (x : Index) (q v : List U16) : U32 := if x.metric = 2 then distVec q v else dotVec q v

/-- Order of R270: smaller δ, then lower ID. -/
def ranksBefore (a b : U32 × Nat) : Bool :=
  (f32 a.1).lt (f32 b.1) || (!(f32 b.1).lt (f32 a.1) && decide (a.2 < b.2))

/-- A pair inserted in rank order. -/
def rankIn (x : U32 × Nat) : List (U32 × Nat) → List (U32 × Nat)
  | [] => [x]
  | y :: r => if ranksBefore x y then x :: y :: r else y :: rankIn x r

/-- A pair offered to a list of the best `n`; an ID already in is not offered again. -/
def offerTo (n : Nat) (l : List (U32 × Nat)) (x : U32 × Nat) : List (U32 × Nat) :=
  if l.any fun y => y.2 == x.2 then l else (rankIn x l).take n

/-! ### What a snapshot sees (R275) -/

/-- An entry is visible. -/
def Entry.visible (e : Entry) (snap : Nat) : Bool := decide (e.born ≤ snap ∧ snap < e.dead)

/-- The bank whose FROM is the greatest at or below the snapshot. -/
def Entry.edges (e : Entry) (snap : Nat) : List Nat :=
  let a := e.from0 ≠ noEpoch ∧ e.from0 ≤ snap
  let b := e.from1 ≠ noEpoch ∧ e.from1 ≤ snap
  (if a ∧ (¬b ∨ e.from1 ≤ e.from0) then e.bank0 else if b then e.bank1 else []).filter fun v => v != noEpoch

/-- ENTRY at a snapshot. -/
def Index.entryAt (x : Index) (snap : Nat) : Option Nat :=
  let ok := fun (b : Option (Nat × Nat)) => b.filter fun y => decide (y.1 ≤ snap)
  match ok x.entry0, ok x.entry1 with
  | some a, some b => some (if a.1 ≤ b.1 then b.2 else a.2)
  | some a, none => some a.2
  | none, some b => some b.2
  | none, none => none

/-! ### Graph search (R278, R283) -/

/-- A search in progress. -/
structure Beam where
  cand   : List (U32 × Nat) := []
  res    : List (U32 × Nat) := []
  exp    : List Nat := []
  capped : Bool := false
  deriving DecidableEq, Repr

/-- The loop of R278: `score` is δ of a node, none when it is absent; `edges` its neighbours; `dead` its DEAD. -/
def searchLoop (ef maxx snap : Nat) (score : Nat → Option U32) (edges : Nat → List Nat) (dead : Nat → Nat) : Nat → Beam → Beam
  | 0, b => b
  | f + 1, b =>
    match b.cand.find? fun y => !b.exp.contains y.2 with
    | none => b
    | some u =>
      if b.exp.length = maxx then { b with capped := true }
      else if b.res.length = ef ∧ (b.res.getLast?).any (fun w => (f32 w.1).lt (f32 u.1)) then b
      else
        let b := { b with exp := u.2 :: b.exp }
        let step := fun (b : Beam) (v : Nat) =>
          if b.exp.contains v || b.cand.any (fun y => y.2 == v) || b.res.any (fun y => y.2 == v) then b
          else match score v with
            | none => b
            | some s => { b with cand := offerTo ef b.cand (s, v), res := if dead v > snap then offerTo ef b.res (s, v) else b.res }
        searchLoop ef maxx snap score edges dead f ((edges u.2).foldl step b)

/-- A record of an entry, or of none. -/
def Index.entryOf (x : Index) (i : Nat) : Entry :=
  tgetD x.entries i { born := noEpoch, label := 0, codes := [], vec := [] }

/-- The beam of a catalogue query, before the re-rank. `bad` says which entries cannot be read. -/
def Index.catalogue (x : Index) (q : List U16) (snap ef maxx : Nat) (bad : Nat → Bool) : Beam :=
  let score := fun (v : Nat) => if bad v then none else some (deltaOf x.metric (x.pqScore q (x.entryOf v).codes))
  let side := (x.side.filter fun s => !s.2.2 && decide (s.2.1 ≤ snap)).map fun s => s.1
  let late := side.filter fun n => (x.entryOf n).visible snap && decide ((x.entryOf n).linked > snap)
  let res := late.foldl (fun l n => match score n with
    | some s => offerTo ef l (s, n)
    | none => l) []
  let b : Beam := match (x.entryAt snap).bind fun n => (score n).map fun s => (s, n) with
    | some y => { cand := [y], res := if (x.entryOf y.2).visible snap then offerTo ef res y else res }
    | none => { res := res }
  searchLoop ef maxx snap score (fun v => if bad v then [] else (x.entryOf v).edges snap) (fun v => (x.entryOf v).dead)
    (maxx + 1) b

/-- Popcount of the difference of two sketches. -/
def sketchDiff (a b : List Byte) : Nat :=
  ((a.zip b).map fun y => ((List.range 8).filter fun i => (y.1 ^^^ y.2).getLsbD i).length).sum

/-- Entries that a memory query re-ranks: the `n` visible ones whose sketches differ least (R279). -/
def Index.sketched (x : Index) (q : List Byte) (snap n : Nat) (bad : Nat → Bool) : List Nat :=
  let vis := x.entries.filter fun e => decide (e.1 < x.high) && e.2.visible snap && !bad e.1
  let ranked := vis.foldl (fun (l : List (U32 × Nat)) e =>
    (rankIn (fOfInt (sketchDiff q e.2.codes : Nat), e.1) l).take n) []
  ranked.map fun y => y.2

/-- Entries re-scored exactly, in rank order. -/
def Index.rescore (x : Index) (q : List U16) (ids : List Nat) : List (U32 × Nat) :=
  ids.foldl (fun l i => rankIn (deltaOf x.metric (x.exact q (x.entryOf i).vec), i) l) []

/-! ### Reeds, pages and load (R284) -/

/-- Pages that a query takes. -/
def Index.pages (x : Index) (ef rerank maxx : Nat) : Nat :=
  if x.memory then ceilDiv rerank 512
  else ceilDiv x.m 8 + ceilDiv ef 256 + ceilDiv (if maxx = 0 then 8 * ef else maxx) 768

/-- Queries of a partition that wait for a reed, in fetch order. -/
def Dev.queryWaits (d : Dev) (p : Nat) : List Nat :=
  tkeys d.rng.descs fun _ e => e.part == p && e.op == 0x64 && (match e.st with
    | .waiting (.query _) => true
    | _ => false)

/-- RED_LOAD_p follows the queries and merges. -/
def Dev.showReed (d : Dev) (p : Nat) : Dev :=
  let qs := d.red.query.filter fun q => q.part == p
  let ms := (d.red.index.filter fun e => e.2.part == p && e.2.mergeAt.isSome).length
  (((d.setF (RED_LOAD_WAITING p) (min 0xFFFF (d.queryWaits p).length)).setF (RED_LOAD_MERGING p) ms).setF
    (RED_LOAD_PAGES_BUSY p) ((qs.map fun q => q.pages).sum)).setF (RED_LOAD_REEDS_BUSY p) qs.length

/-! ### INDEX_CREATE, INDEX_DESTROY (R269–R271, R286, R287) -/

/-- The index that INDEX_CREATE describes. -/
def indexOf (g p : Nat) (x : Desc) : Index :=
  let v := BitVec.ofNat 64 (fieldAt x 24 8)
  { gen := g, part := p, memory := fieldAt x 50 1 = 1, metric := fieldAt x 51 1, dim := fieldAt x 48 2, m := fieldAt x 52 2,
    r := fieldAt x 54 1, bits := fieldAt x 56 2, alpha := fieldAt x 55 1, mergeEf := fieldAt x 58 2, capacity := fieldAt x 40 4,
    sideMax := fieldAt x 44 4, region := hRegion (BitVec.ofNat 64 (fieldAt x 16 8)),
    vecRegion := if v = 0 then none else some (hRegion v) }

/-- Parameters lie in Table 10.1 and Table 10.4. -/
def indexParams (x : Desc) : Bool :=
  let i := indexOf 0 0 x
  let cb := fieldAt x 32 8
  decide (fieldAt x 50 1 ≤ 1 ∧ i.metric ≤ 2 ∧ 8 ≤ i.dim ∧ i.dim ≤ 4096 ∧ i.dim % 8 = 0 ∧ 1024 ≤ i.sideMax ∧ i.sideMax ≤ 2 ^ 24 ∧
    1 ≤ i.capacity) &&
  if i.memory then
    decide (i.m = 0 ∧ i.r = 0 ∧ i.alpha = 0 ∧ i.mergeEf = 0 ∧ cb = 0 ∧ 256 ≤ i.bits ∧ i.bits ≤ 4096 ∧ i.bits % 256 = 0 ∧
      i.capacity ≤ 2 ^ 20) && i.vecRegion.isSome
  else
    decide (1 ≤ i.m ∧ i.m ≤ 256 ∧ i.dim % i.m = 0 ∧ 8 ≤ i.r ∧ i.r ≤ 64 ∧ i.r % 8 = 0 ∧ i.bits = 0 ∧ 64 ≤ i.alpha ∧ i.alpha ≤ 128 ∧
      i.r ≤ i.mergeEf ∧ i.mergeEf ≤ 1024 ∧ i.capacity ≤ 2 ^ 32 - 2 ∧ cb % 8 = 0)

/-- A region fit for an index (R271). -/
def Region.fitsReed (r : Region) (tiles : Nat) : Bool :=
  r.kind == 4 && !r.weight && !r.isSealed && !r.bound && decide (tiles ≤ r.tiles) && (r.wback || r.homeTier == 1)

/-- Checks of INDEX_CREATE. -/
def chkIndexCreate (d : Dev) (p : Nat) (x : Desc) : Byte :=
  if !indexParams x then stBad
  else
    let i := indexOf 0 p x
    let h := BitVec.ofNat 64 (fieldAt x 16 8)
    let v := BitVec.ofNat 64 (fieldAt x 24 8)
    if d.regionStatus p h ≠ stOk then (if d.regionStatus p h = stDenied then stDenied else stBad)
    else if v ≠ 0 ∧ d.regionStatus p v ≠ stOk then (if d.regionStatus p v = stDenied then stDenied else stBad)
    else
      let fit := fun (n tiles : Nat) => (d.region n).any fun r => r.fitsReed tiles
      if fit i.region i.tileCount && (match i.vecRegion with
          | some n => fit n (ceilDiv i.capacity i.vecPer) && n != i.region
          | none => true) then stOk else stBad

/-- Regions of an index bound to it, or released. -/
def Dev.bindReed (d : Dev) (x : Index) (b : Bool) : Dev :=
  let d := d.modRegion x.region fun r => { r with bound := b }
  match x.vecRegion with
  | some v => d.modRegion v fun r => { r with bound := b }
  | none => d

/-- INDEX_CREATE applied: a catalogue index waits for its codebook. -/
def doIndexCreate (d : Dev) (k : Nat) (e : DescEntry) : Dev :=
  let p := e.part
  match (tgetD d.red.numbers p {}).take (d.getF (RED_PART_FIRST p)) (d.getF (RED_PART_COUNT p)) with
  | none => d.refuse k stLimit
  | some (i, nums) =>
    let g := nextGen (tgetD d.red.gens i 0) 0x7FFFFFF
    let x := indexOf g p e.d
    let r := { d.red with index := tput d.red.index i x, numbers := tput d.red.numbers p nums, gens := tput d.red.gens i g }
    let d := ({ d with red := r }).bindReed x true
    if x.memory then (d.reedSync i [0] []).ok k (mkHandle d.id p g i) 0
    else
      let d := d.emitFor p (.hostRead p (BitVec.ofNat 64 (fieldAt e.d 32 8)) (512 * x.dim))
      (d.modDesc k fun e => { e with result := mkHandle d.id p g i }).wait k .hostRead

/-- An index leaves the table: its number is free, its regions are released. -/
def Dev.dropIndex (d : Dev) (i : Nat) : Dev :=
  match d.index i with
  | none => d
  | some x =>
    let d := d.bindReed x false
    let nums := (tgetD d.red.numbers x.part {}).give i
    { d with red := { d.red with index := tdel d.red.index i, numbers := tput d.red.numbers x.part nums } }

/-- The codebook has arrived, or could not be read. -/
def Dev.codebookArrived (d : Dev) (k : Nat) (bytes : List Byte) : Dev :=
  match tget d.rng.descs k with
  | none => d
  | some e =>
    let i := hLocal e.result
    match d.index i with
    | none => d
    | some x =>
      if bytes.length < 512 * x.dim then (d.dropIndex i).hostFailOpen k (e.failAt.getD (BitVec.ofNat 64 (fieldAt e.d 32 8)))
      else
        let cb := (chunks 2 (256 * x.dim + 1) bytes).map fun b => (BitVec.ofNat 16 (leNat b) : U16)
        let d := d.modIndex i fun x => { x with codebook := cb }
        (d.reedSync i (List.range (1 + x.cbTiles)) []).ok k e.result 0

/-- INDEX_CREATE (R271). -/
def execIndexCreate (ring : Nat) (x : Desc) (s : State) : Res :=
  guarded (.indexCreate ring x) (onDev s fun d => d.runOp 0x60 ring x chkIndexCreate doIndexCreate)

/-- Descriptors of a kind that still name an index. -/
def Dev.naming (d : Dev) (i : Nat) (ops : List Byte) : List Nat :=
  tkeys d.rng.descs fun _ e => ops.contains e.op && (match e.st with
    | .waiting (.query j) => j == i
    | .waiting (.mutation j) => j == i
    | .waiting (.merge j) => j == i
    | _ => false)

/-- An index being destroyed ends once its queries, mutations and merge have finished. -/
def Dev.reedSettle (d : Dev) (i : Nat) : Dev :=
  match d.index i with
  | none => d
  | some x =>
    if x.dying && x.mergeAt.isNone && (d.naming i [0x62, 0x63, 0x64, 0x65]).isEmpty && !(d.red.query.any fun q => q.index == i) then
      let ks := tkeys d.rng.descs fun _ e => e.st == .waiting (.indexDown i)
      ks.foldl (fun d k => d.ok k 0 0) (d.dropIndex i)
    else d

/-- INDEX_DESTROY applied. -/
def doIndexDestroy (d : Dev) (k : Nat) (e : DescEntry) : Dev :=
  let i := hLocal e.d.target
  match d.index i with
  | none => d.refuse k stNoSession
  | some x =>
    if x.names > 0 then d.refuse k stWrong
    else ((d.modIndex i fun x => { x with dying := true }).wait k (.indexDown i)).reedSettle i

/-- INDEX_DESTROY (R287). -/
def execIndexDestroy (ring : Nat) (x : Desc) (s : State) : Res :=
  guarded (.indexDestroy ring x) (onDev s fun d => d.runOp 0x61 ring x (fun d p x => d.indexStatus p x.target) doIndexDestroy)

/-! ### VEC_INSERT, VEC_DELETE (R274, R276, R277) -/

/-- Bytes of a record of VEC_INSERT (R285). -/
def Index.insertBytes (x : Index) : Nat := ceilDiv (8 + 2 * x.dim + (if x.memory then x.bits / 8 else 0)) 8 * 8

/-- LABEL, vector and sketch of a record. -/
def Index.parseInsert (x : Index) (b : List Byte) : U64 × List U16 × List Byte :=
  (BitVec.ofNat 64 (leAt b 0 8), (List.range x.dim).map (fun j => BitVec.ofNat 16 (leAt b (8 + 2 * j) 2)),
   (b.drop (8 + 2 * x.dim)).take (if x.memory then x.bits / 8 else 0))

/-- Side entries that no merge has taken up yet. -/
def Index.waitingSide (x : Index) : List (Nat × Nat × Bool) := x.side.filter fun s => !x.listedSide.contains s

/-- The merge threshold of a partition (R282). -/
def Dev.autoMerge (d : Dev) (i : Nat) : Dev :=
  match d.index i with
  | none => d
  | some x =>
    if d.getF (RED_MERGE_CFG_AUTO x.part) == 1 && decide (min (x.sideMax / 2) (2 ^ d.getF (RED_MERGE_CFG_MERGE_LOG2 x.part)) ≤
        x.waitingSide.length) then d.modIndex i fun x => { x with requested := true }
    else d

/-- Slots that new entries take: free ones, lowest first, then HIGH upward (R276). -/
def Index.slots (x : Index) (n : Nat) : List Nat :=
  x.free.take n ++ (List.range (n - x.free.length)).map fun i => x.high + i

/-- A status that a bound region's damaged tile gives a mutation or a merge (R281). -/
def Dev.reedBad (d : Dev) (n : Nat) (ts : List Nat) : Byte :=
  match d.region n with
  | some r => ((ts.map fun t => (r.at t).bad).find? fun b => b != 0).getD stOk
  | none => stOk

/-- One entry inserted. -/
def Index.insertOne (x : Index) (i : Nat) (rec_ : U64 × List U16 × List Byte) : Index :=
  let v := if x.metric = 1 then normalise rec_.2.1 else rec_.2.1
  let e := x.epoch + 1
  let y : Entry := { born := e, linked := if x.memory then e else noEpoch, label := rec_.1,
                     codes := if x.memory then rec_.2.2 else x.encode v, vec := v }
  { x with entries := tput x.entries i y, side := x.side ++ [(i, e, false)], high := max x.high (i + 1),
           free := x.free.filter fun f => f != i }

/-- A VEC_INSERT commits, or is refused whole. -/
def Dev.insertCommit (d : Dev) (k i : Nat) (e : DescEntry) (x : Index) : Dev :=
  let n := fieldAt e.d 32 4
  let recs := (chunks x.insertBytes (n + 1) e.data).map x.parseInsert
  let slots := x.slots n
  match recs.findIdx? fun r => vectorBad x.metric r.2.1 with
  | some j => d.failOpen k stBad (some (BitVec.ofNat 32 j))
  | none =>
    let ts := ([0] ++ (List.range x.slTiles).map (fun t => 1 + x.cbTiles + t) ++ slots.map x.nodeTile).eraseDups
    let vs := (slots.map x.vecTile).eraseDups
    if x.side.length + n > x.sideMax then (d.modIndex i fun x => { x with requested := true }).refuse k stLimit
    else if slots.any (fun s => decide (s ≥ x.capacity)) || decide (x.epoch + 1 ≥ noEpoch) then d.refuse k stLimit
    else if d.reedBad x.region ts ≠ stOk then d.refuse k (d.reedBad x.region ts)
    else
      let d := d.modIndex i fun x =>
        { ((slots.zip recs).foldl (fun x y => x.insertOne y.1 y.2) x) with epoch := x.epoch + 1 }
      let d := d.emitFor e.part (.hostWrite e.part (BitVec.ofNat 64 (fieldAt e.d 24 8)) (slots.flatMap fun s => leBytes 4 s))
      ((d.reedSync i ts vs).autoMerge i).ok k (BitVec.ofNat 64 (x.epoch + 1)) (BitVec.ofNat 32 n)

/-- A VEC_DELETE commits, or is refused whole: IDs that are not live, or named again, are skipped. -/
def Dev.deleteCommit (d : Dev) (k i : Nat) (e : DescEntry) (x : Index) : Dev :=
  let n := fieldAt e.d 24 4
  let ids := (chunks 4 (n + 1) e.data).map leNat
  let live := (ids.filter fun j => (tget x.entries j).any fun y => y.dead == noEpoch).eraseDups
  let ts := ([0] ++ (List.range x.slTiles).map (fun t => 1 + x.cbTiles + t) ++ live.map x.nodeTile).eraseDups
  if x.side.length + live.length > x.sideMax then (d.modIndex i fun x => { x with requested := true }).refuse k stLimit
  else if x.epoch + 1 ≥ noEpoch then d.refuse k stLimit
  else if d.reedBad x.region ts ≠ stOk then d.refuse k (d.reedBad x.region ts)
  else
    let c := x.epoch + 1
    let d := d.modIndex i fun x =>
      { x with entries := live.foldl (fun t j => tupd t j fun y => { y with dead := c }) x.entries,
               side := x.side ++ live.map (fun j => (j, c, true)), epoch := c }
    ((d.reedSync i ts []).autoMerge i).ok k (BitVec.ofNat 64 c) (BitVec.ofNat 32 (n - live.length))

/-- Mutations of an index whose data is in are applied in fetch order, each after every query fetched before it has its
snapshot (R274), and once the copies that it writes have frames. -/
def Dev.reedRun : Nat → Dev → Nat → Dev
  | 0, d, _ => d
  | f + 1, d, i =>
    match d.index i, (d.naming i [0x62, 0x63, 0x64]).head? with
    | some x, some k =>
      match tget d.rng.descs k with
      | none => d
      | some e =>
        if e.op = 0x64 then d
        else
          let need := if e.op = 0x62 then fieldAt e.d 32 4 * x.insertBytes else 4 * fieldAt e.d 24 4
          let room := if e.op = 0x62 then
              let s := x.slots (fieldAt e.d 32 4)
              d.copiesMissing x.region (([0] ++ s.map x.nodeTile).eraseDups) + (match x.vecRegion with
                | some v => d.copiesMissing v ((s.map x.vecTile).eraseDups)
                | none => 0)
            else 0
          if e.failAt.isSome then Dev.reedRun f (d.hostFailOpen k (e.failAt.getD 0)) i
          else if e.data.length < need then d
          else if d.freeFrames x.part + (d.cleanCopies x.part).length < room then d
          else Dev.reedRun f (((if e.op = 0x62 then d.insertCommit k i e x else d.deleteCommit k i e x)).reedSettle i) i
    | _, _ => d

/-- Mutations of one index still in the table. -/
def Dev.reedGo (d : Dev) (i : Nat) : Dev := d.reedRun (d.rng.descs.length + 1) i

/-- Checks of VEC_INSERT and VEC_DELETE. -/
def chkMutation (d : Dev) (p : Nat) (x : Desc) (off top : Nat) : Byte :=
  if d.indexStatus p x.target ≠ stOk then d.indexStatus p x.target
  else if fieldAt x off 4 = 0 ∨ fieldAt x off 4 > top ∨ fieldAt x 16 8 % 8 ≠ 0 ∨ (off = 32 ∧ fieldAt x 24 8 % 8 ≠ 0) then stBad
  else stOk

/-- VEC_INSERT (R274): the device reads COUNT records. -/
def execVecInsert (ring : Nat) (x : Desc) (s : State) : Res :=
  guarded (.vecInsert ring x) (onDev s fun d =>
    d.runOp 0x62 ring x (fun d p x => chkMutation d p x 32 4096) fun d k e =>
      let i := hLocal e.d.target
      let n := (d.index i).elim 0 fun y => y.insertBytes
      (d.emitFor e.part (.hostRead e.part (BitVec.ofNat 64 (fieldAt e.d 16 8)) (fieldAt e.d 32 4 * n))).wait k (.mutation i))

/-- VEC_DELETE (R276): the device reads COUNT IDs. -/
def execVecDelete (ring : Nat) (x : Desc) (s : State) : Res :=
  guarded (.vecDelete ring x) (onDev s fun d =>
    d.runOp 0x63 ring x (fun d p x => chkMutation d p x 24 65536) fun d k e =>
      (d.emitFor e.part (.hostRead e.part (BitVec.ofNat 64 (fieldAt e.d 16 8)) (4 * fieldAt e.d 24 4))).wait k (.mutation (hLocal e.d.target)))

/-! ### VEC_QUERY (R278–R281, R284) -/

/-- Index that a query names: its TARGET, or the memory index of its session. -/
def Dev.queryIndex (d : Dev) (x : Desc) : Nat :=
  if fieldAt x 40 1 % 2 = 1 then (d.ses (hLocal x.target)).memIndex.toNat else hLocal x.target

/-- Operands of a query fit the class of its index (Table 10.4). -/
def Index.queryFits (i : Index) (x : Desc) : Bool :=
  let k := fieldAt x 32 2
  let ef := fieldAt x 34 2
  let rr := fieldAt x 36 2
  let mx := fieldAt x 38 2
  decide (1 ≤ k ∧ k ≤ 1024) &&
  if i.memory then decide (ef = 0 ∧ mx = 0 ∧ k ≤ rr ∧ rr ≤ 4096)
  else decide (k ≤ ef ∧ ef ≤ 1024 ∧ (mx = 0 ∨ ef ≤ mx)) && (rr == 0 || (decide (k ≤ rr ∧ rr ≤ ef) && i.vecRegion.isSome))

/-- Checks of VEC_QUERY. -/
def chkVecQuery (d : Dev) (p : Nat) (x : Desc) : Byte :=
  let ses := fieldAt x 40 1 % 2 = 1
  let h := if ses then d.sessionStatus p x.target else d.indexStatus p x.target
  if h ≠ stOk then h
  else if fieldAt x 16 8 % 8 ≠ 0 ∨ fieldAt x 24 8 % 8 ≠ 0 ∨ fieldAt x 32 2 = 0 ∨ fieldAt x 32 2 > 1024 then stBad
  else match d.index (d.queryIndex x) with
    | some i => if i.queryFits x then stOk else stBad
    | none => stOk

/-- VEC_QUERY applied: it waits for a reed and pages. -/
def doVecQuery (d : Dev) (k : Nat) (e : DescEntry) : Dev :=
  let i := d.queryIndex e.d
  match d.index i with
  | none => d.refuse k stWrong
  | some x =>
    if x.pages (fieldAt e.d 34 2) (fieldAt e.d 36 2) (fieldAt e.d 38 2) > d.getF (RED_QUOTA_PAGES e.part) then d.refuse k stLimit
    else (d.wait k (.query i)).showReed e.part

/-- VEC_QUERY (R278). -/
def execVecQuery (ring : Nat) (x : Desc) (s : State) : Res :=
  guarded (.vecQuery ring x) (onDev s fun d => d.runOp 0x64 ring x chkVecQuery doVecQuery)

/-- A mutation of an index was fetched before a descriptor and has not committed. -/
def Dev.mutationBefore (d : Dev) (i k : Nat) : Bool := (d.naming i [0x62, 0x63]).any fun j => decide (j < k)

/-- QUERY_REED_ASSIGN (R284): the oldest waiting query of a partition takes its reed and pages when they are free and every
earlier mutation of its index has committed; its snapshot is the index's EPOCH, and its query is read. -/
def execQueryReedAssign (p : Nat) (s : State) : Res :=
  guarded (.queryReedAssign p) (onDev s fun d =>
    match (d.queryWaits p).head? with
    | none => d
    | some k =>
      match tget d.rng.descs k with
      | none => d
      | some e =>
        let i := d.queryIndex e.d
        match d.index i with
        | none => d
        | some x =>
          let n := x.pages (fieldAt e.d 34 2) (fieldAt e.d 36 2) (fieldAt e.d 38 2)
          let qs := d.red.query.filter fun q => q.part == p
          if qs.length + 1 > d.getF (RED_QUOTA_REEDS p) ∨ (qs.map fun q => q.pages).sum + n > d.getF (RED_QUOTA_PAGES p) ∨
              d.mutationBefore i k then d
          else
            let q : Query := { desc := k, part := p, index := i, snap := x.epoch, pages := n }
            let d := { d with red := { d.red with query := d.red.query ++ [q] } }
            let d := d.move 5 (1 + p) 0 1 n (some p)
            let len := 2 * x.dim + (if x.memory then x.bits / 8 else 0)
            let d := d.emitFor p (.hostRead p (BitVec.ofNat 64 (fieldAt e.d 16 8)) len)
            ((d.wait k .hostRead).showReed p).reedGo i)

/-- A query gives back its reed and pages. -/
def Dev.endQuery (d : Dev) (k : Nat) : Dev :=
  match d.red.query.find? fun q => q.desc == k with
  | none => d
  | some q =>
    let d := { d with red := { d.red with query := d.red.query.filter fun y => y.desc != k } }
    (d.move 5 (1 + q.part) 1 0 q.pages (some q.part)).showReed q.part

/-- Entries whose record or vector cannot be read. -/
def Dev.entryBad (d : Dev) (x : Index) (vec : Bool) (i : Nat) : Bool :=
  d.reedBad x.region [x.nodeTile i] != stOk || (vec && match x.vecRegion with
    | some v => d.reedBad v [x.vecTile i] != stOk
    | none => false)

/-- Results of a query in rank order, its count of RESULT, CAPPED, and the entries that it read: records, vectors. -/
def Dev.queryResult (d : Dev) (x : Index) (e : DescEntry) (snap : Nat) : List (U32 × Nat) × Nat × Bool × List Nat × List Nat :=
  let raw := (List.range x.dim).map fun j => (BitVec.ofNat 16 (leAt e.data (2 * j) 2) : U16)
  let q := if x.metric = 1 then normalise raw else raw
  let k := fieldAt e.d 32 2
  let rr := fieldAt e.d 36 2
  let bad := d.entryBad x false
  let vbad := d.entryBad x true
  if x.memory then
    let ids := x.sketched (e.data.drop (2 * x.dim)) snap rr bad
    (((x.rescore q (ids.filter fun i => !vbad i)).take k), x.high, false, x.entries.map fun y => y.1, ids)
  else
    let ef := fieldAt e.d 34 2
    let mx := if fieldAt e.d 38 2 = 0 then 8 * ef else fieldAt e.d 38 2
    let b := x.catalogue q snap ef mx bad
    let ids := (b.res.take rr).map fun y => y.2
    let res := if rr = 0 then b.res else x.rescore q (ids.filter fun i => !vbad i) ++ b.res.drop rr
    (res.take k, b.exp.length, b.capped,
     ((x.side.map fun s => s.1) ++ (x.entryAt snap).toList ++ b.exp ++ b.exp.flatMap fun u => (x.entryOf u).edges snap).eraseDups, ids)

/-- Tiles of a region without a T1 copy. -/
def Dev.missing (d : Dev) (n : Nat) (ts : List Nat) : List (Nat × Nat) :=
  match d.region n with
  | none => []
  | some r => (ts.filter fun t => (r.at t).bad == 0 && (r.at t).gen != 0 && (r.rawHere t).isNone).map fun t => (n, t)

/-- A query whose vector is in: tiles that it reads and that have no T1 copy are fetched first (R271); then its results are
written (R280, R281). -/
def Dev.queryRun (d : Dev) (k : Nat) : Dev :=
  match tget d.rng.descs k, d.red.query.find? fun q => q.desc == k with
  | some e, some q =>
    match d.index q.index with
    | none => d
    | some x =>
      let raw := (List.range x.dim).map fun j => (BitVec.ofNat 16 (leAt e.data (2 * j) 2) : U16)
      let hdr := d.reedBad x.region (List.range (1 + x.cbTiles))
      if vectorBad x.metric raw then ((d.endQuery k).failOpen k stBad none).reedSettle q.index
      else if hdr ≠ stOk then ((d.endQuery k).failOpen k hdr none).reedSettle q.index
      else
        let (res, n, capped, ids, vecs) := d.queryResult x e q.snap
        let node := (ids.map x.nodeTile).eraseDups
        let vt := (vecs.map x.vecTile).eraseDups
        let miss := d.missing x.region (List.range (1 + x.cbTiles) ++ node) ++ (match x.vecRegion with
          | some v => d.missing v vt
          | none => [])
        if !miss.isEmpty then
          let can := min miss.length (d.freeFrames x.part + (d.cleanCopies x.part).length)
          let d := (miss.take can).foldl (fun (d : Dev) y =>
            match d.copyFrame x.part, d.region y.1 with
            | some d, some r => d.request x.part (.cacheFill y.1 y.2) (r.at y.2).storedAt (512 * (r.at y.2).sectors) none
            | _, _ => d) d
          d.wait k (.requests can)
        else
          let badNodes := (ids.filter fun i => d.entryBad x false i).map x.nodeTile
          let badVecs := (vecs.filter fun i => d.entryBad x true i && !d.entryBad x false i).map x.vecTile
          let addrs := (badNodes.eraseDups.map fun t => (x.region, t)) ++ (badVecs.eraseDups.map fun t => (x.vecRegion.getD 0, t))
          let d := addrs.foldl (fun (d : Dev) y =>
            ((d.flag RED_STATUS_ENTRY_UNREADABLE RED_STATUS_UNREADABLE_COUNT).raise (some q.part) 0x0910
              ((d.region y.1).elim 0 fun r => (r.at y.2).storedAt) 2 0x104)) d
          let out := res.flatMap fun y => record [(8, (x.entryOf y.2).label.toNat), (4, y.2), (4, (scoreOf x.metric y.1).toNat)]
          let d := if res.isEmpty then d else d.emitFor q.part (.hostWrite q.part (BitVec.ofNat 64 (fieldAt e.d 24 8)) out)
          let detail := res.length + (if capped then 2 ^ 16 else 0) + (if addrs.isEmpty then 0 else 2 ^ 17)
          let d := (d.endQuery k).incF RED_STATS_QUERIES
          (d.ok k (BitVec.ofNat 64 (q.snap + n * 2 ^ 32)) (BitVec.ofNat 32 detail)).reedSettle q.index
  | _, _ => d

/-- A tile that a query of Reed reads arrived, or was refused. -/
def Dev.cacheAck (d : Dev) (n t : Nat) (res : Except Byte (List Byte)) : Dev :=
  let (d, r) := d.tileArrived n t res
  let d := match r, d.region n with
    | .ok raw, _ => d.modTile n t fun x => { x with cache := some (raw, false) }
    | .error st, some g => (d.modTile n t fun x => { x with bad := st }).moveFrames g.part 2 0 1
    | .error _, none => d
  let ks := tkeys d.rng.descs fun _ e => e.op == 0x64 && (match e.st with
    | .waiting (.requests _) => true
    | _ => false)
  let busy := d.reqCount (fun q => match q with
    | .cacheFill _ _ => true
    | _ => false) > 0
  if busy then d else ks.foldl (fun d k => d.queryRun k) d

/-- Queries and mutations that wait for T1 frames look again. -/
def Dev.wakeReed (d : Dev) : Dev :=
  let ks := tkeys d.rng.descs fun _ e => e.op == 0x64 && e.st == .waiting (.requests 0)
  let d := ks.foldl (fun (d : Dev) k => d.queryRun k) d
  (d.red.index.map fun (e : Nat × Index) => e.1).foldl (fun d i => d.reedGo i) d

/-- Data of a mutation or a query arrived from host memory. -/
def Dev.reedArrived (d : Dev) (k : Nat) (e : DescEntry) (bytes : List Byte) (failed : Option U64) : Dev :=
  if e.op = 0x64 then
    match failed with
    | some a => ((d.endQuery k).hostFailOpen k a).reedSettle (d.queryIndex e.d)
    | none => (d.modDesc k fun e => { e with data := bytes }).queryRun k
  else
    (d.modDesc k fun e => { e with data := bytes, failAt := failed }).reedGo (hLocal e.d.target)

/-! ### Merges (R282, R283) -/

/-- A merge in progress: edges made so far. -/
abbrev View := Tbl (List Nat)

/-- View of a node: new edges, or its bank at `s`. -/
def Index.view (x : Index) (s : Nat) (new : View) (u : Nat) : List Nat := (tget new u).getD ((x.entryOf u).edges s)

/-- The decoded vector of an entry: from the vector region, or from its centroids (R283). -/
def Index.decoded (x : Index) (u : Nat) : List U16 :=
  if x.vecRegion.isSome then (x.entryOf u).vec
  else (x.entryOf u).codes.zipIdx.flatMap fun y => x.centroid y.2 y.1.toNat

/-- d2 of R283. -/
def Index.d2 (x : Index) (a b : Nat) : U32 := distVec (x.decoded a) (x.decoded b)

/-- prune of R283; the product with ALPHA ÷ 64 is compared exactly (DEDUCED, log 31). -/
def Index.prune (x : Index) (u : Nat) (c : List Nat) : List Nat :=
  let ordered := c.eraseDups.foldl (fun l v => rankIn (x.d2 u v, v) l) []
  ordered.foldl (fun out y =>
    if out.length < x.r && out.all (fun o => ((f32 y.1).scale 6).lt ((f32 (x.d2 o y.2)).mul (.fin false x.alpha 0))) then out ++ [y.2]
    else out) []

/-- Candidates of an entry that is being linked. -/
def Index.mergeSearch (x : Index) (s : Nat) (new : View) (n : Nat) : List Nat :=
  let b : Beam := match x.entryAt s with
    | some e => { cand := [(x.d2 n e, e)], res := if (x.entryOf e).visible s then [(x.d2 n e, e)] else [] }
    | none => {}
  ((searchLoop x.mergeEf (8 * x.mergeEf) s (fun v => some (x.d2 n v)) (x.view s new) (fun v => (x.entryOf v).dead)
    (8 * x.mergeEf + 1) b).res).map fun y => y.2

/-- One entry linked: its edges, and the edges back to it. -/
def Index.link (x : Index) (s : Nat) (new : View) (n : Nat) (c : List Nat) : View :=
  let mine := x.prune n c
  mine.foldl (fun v t =>
    let e := x.view s v t ++ [n]
    tput v t (if e.length > x.r then x.prune t e else e)) (tput new n mine)

/-- Runs of 64 entries linked one after another. -/
def Index.linkRuns (x : Index) (s : Nat) : List (List Nat) → View → View
  | [], new => new
  | b :: r, new =>
    let cs := b.map fun n => (n, x.mergeSearch s new n)
    let step := fun (a : View × List Nat) (y : Nat × List Nat) => (x.link s a.1 y.1 ((y.2 ++ a.2).filter fun v => v != y.1), a.2 ++ [y.1])
    Index.linkRuns x s r (cs.foldl step (new, [])).1

/-- Entries that a merge links, in side-list order, and tombstoned ones whose edges it removes. -/
def Index.mergeSets (x : Index) (s : Nat) : List Nat × List Nat :=
  let p := (x.side.filter fun y => !y.2.2 && decide (y.2.1 ≤ s)).map fun y => y.1
  ((p.filter fun n => (x.entryOf n).linked == noEpoch && decide ((x.entryOf n).dead > s)).eraseDups,
   (x.entries.filter fun y => y.2.linked != noEpoch && decide (y.2.dead ≤ s) && !y.2.repaired).map fun y => y.1)

/-- Edges of linked entries that lead to tombstones replaced. -/
def Index.repair (x : Index) (s : Nat) (dead : List Nat) : View :=
  let live := fun (l : List Nat) => l.filter fun v => decide ((x.entryOf v).dead > s)
  x.entries.foldl (fun (new : View) (y : Nat × Entry) =>
    let e := x.view s new y.1
    let cut := e.filter fun v => dead.contains v
    if y.2.linked ≠ noEpoch ∧ y.2.dead > s ∧ cut ≠ [] then
      tput new y.1 (x.prune y.1 ((live e ++ cut.flatMap fun v => live (x.view s new v)).filter fun v => v != y.1))
    else new) []

/-- A node's new edges written into its older bank (R283). -/
def Entry.relink (e : Entry) (m : Nat) (b : List Nat) : Entry :=
  let a0 := if e.from0 = noEpoch then 0 else e.from0 + 1
  let a1 := if e.from1 = noEpoch then 0 else e.from1 + 1
  if a0 ≤ a1 then { e with bank0 := b, from0 := m } else { e with bank1 := b, from1 := m }

/-- ENTRY after a merge. -/
def Index.newEntry (x : Index) (s : Nat) (new : View) (p dead : List Nat) : Option Nat :=
  match x.entryAt s with
  | none => p.head?
  | some e =>
    if dead.contains e then
      let alive := fun (v : Nat) => decide ((x.entryOf v).dead > s) && ((x.entryOf v).linked != noEpoch || p.contains v)
      match (x.view s new e).find? alive with
      | some v => some v
      | none => (x.entries.find? fun y => alive y.1).map fun y => y.1
    else some e

/-- The merge itself: the index after its commit, and the entries linked. -/
def Index.merged (x : Index) (s : Nat) : Index × Nat :=
  let (p, dead) := x.mergeSets s
  let m := x.epoch + 1
  let new := if x.memory then [] else x.linkRuns s (chunks 64 (p.length + 1) p) (x.repair s dead)
  let ent := x.newEntry s new p dead
  let t := new.foldl (fun t (y : Nat × List Nat) => tupd t y.1 fun e => e.relink m y.2) x.entries
  let t := if x.memory then t else p.foldl (fun t n => tupd t n fun e => { e with linked := m }) t
  let t := dead.foldl (fun t n => tupd t n fun e => { e with repaired := true }) t
  let older := match x.entry0, x.entry1 with
    | none, _ => true
    | some _, none => false
    | some a, some b => decide (a.1 ≤ b.1)
  let set := if x.memory || ent = x.entryAt s then none else ent.map fun v => (m, v)
  let side := x.side.filter fun y => decide (y.2.1 ≤ s) && (x.memory || y.2.2 || p.contains y.1)
  ({ x with entries := t, epoch := m, lastCommit := m, listed := dead, listedSide := side, mergeAt := none,
            entry0 := if older && set.isSome then set else x.entry0,
            entry1 := if !older && set.isSome then set else x.entry1 }, p.length)

/-- Merges that run on the device. -/
def Dev.mergesBusy (d : Dev) : Nat := (d.red.index.filter fun e => e.2.mergeAt.isSome).length

/-- MERGE_START (R282): a requested merge of an index starts when no other runs on it, fewer than 8 run on the device and no
query has a snapshot older than LAST_COMMIT; slots and side entries of the merge before it are free. -/
def execMergeStart (idx : Nat) (s : State) : Res :=
  guarded (.mergeStart idx) (onDev s fun d =>
    match d.index idx with
    | none => d
    | some x =>
      if !x.requested || x.mergeAt.isSome || decide (d.mergesBusy ≥ 8) ||
          d.red.query.any (fun q => q.index == idx && decide (q.snap < x.lastCommit)) then d
      else
        let d := d.modIndex idx fun x =>
          { x with requested := false, mergeAt := some x.epoch,
                   entries := x.listed.foldl (fun t i => tdel t i) x.entries,
                   free := (x.free ++ x.listed).mergeSort (· ≤ ·), side := x.side.filter (fun y => !x.listedSide.contains y),
                   listed := [], listedSide := [] }
        d.showReed x.part)

/-- INDEX_MERGE descriptors that a merge of snapshot `s` covers: every side entry that was committed before they were applied. -/
def Dev.mergeWaits (d : Dev) (idx s : Nat) : List Nat :=
  tkeys d.rng.descs fun _ e => e.op == 0x65 && e.st == .waiting (.merge idx) && decide (e.result.toNat ≤ s)

/-- MERGE_COMMIT (R283): the merge's epoch commits, or its unreadable records end it. -/
def execMergeCommit (idx : Nat) (s : State) : Res :=
  guarded (.mergeCommit idx) (onDev s fun d =>
    match d.index idx with
    | none => d
    | some x =>
      match x.mergeAt with
      | none => d
      | some at_ =>
        let ts := List.range x.tileCount
        let bad := d.reedBad x.region ts
        let ks := d.mergeWaits idx at_
        if bad ≠ stOk ∨ x.epoch + 1 ≥ noEpoch then
          let d := d.modIndex idx fun x => { x with mergeAt := none }
          ((ks.foldl (fun d k => d.failOpen k (if bad ≠ stOk then bad else stLimit) none) d).showReed x.part).reedSettle idx
        else
          let (y, n) := x.merged at_
          let d := d.modIndex idx fun _ => y
          let touched := y.entries.filter (fun (e : Nat × Entry) => x.entryOf e.1 != e.2)
          let changed := ([0] ++ touched.map (fun (e : Nat × Entry) => x.nodeTile e.1)).eraseDups
          let d := (d.reedSync idx changed []).incF RED_STATS_MERGES
          let d := ks.foldl (fun d k => d.ok k (BitVec.ofNat 64 y.epoch) (BitVec.ofNat 32 n)) d
          ((d.showReed x.part).reedSettle idx))

/-- INDEX_MERGE (R282): it completes at the commit of the first merge that covers what is pending now. -/
def execIndexMerge (ring : Nat) (x : Desc) (s : State) : Res :=
  guarded (.indexMerge ring x) (onDev s fun d =>
    d.runOp 0x65 ring x (fun d p x => d.indexStatus p x.target) fun d k e =>
      let i := hLocal e.d.target
      match d.index i with
      | none => d.refuse k stNoSession
      | some y =>
        let last := (y.side.map fun s => s.2.1).foldl max 0
        let d := if y.mergeAt.any (fun s => decide (last ≤ s)) then d else d.modIndex i fun y => { y with requested := true }
        (d.setResult k last).wait k (.merge i))

/-- INDEX_STAT (R286). -/
def execIndexStat (ring : Nat) (x : Desc) (s : State) : Res :=
  guarded (.indexStat ring x) (onDev s fun d =>
    d.runOp 0x66 ring x (fun d p x => d.indexStatus p x.target) fun d k e =>
      match d.index (hLocal e.d.target) with
      | none => d.refuse k stNoSession
      | some y =>
        let live := (y.entries.filter fun e => e.2.dead == noEpoch).length
        d.ok k (BitVec.ofNat 64 (y.epoch + live * 2 ^ 32)) (BitVec.ofNat 32 y.waitingSide.length))

end Sys2Proof.Machine
end

