-- ==== Sys2Proof/Machine/Shards.lean ====
section
/-! DEFINITION. Checkpoints, what the engines do of them: durable commits (16_power_cooling_holdup.md R429), holds, the shard cut at
E10 and its copy, manifests, and the reads and sessions of a restore (14_checkpoint_shrink.md R364–R376, R381, R382). The bytes
of the sections JOB and TABLES, whose layout the manual does not give, are laid out here (log 41). -/

namespace Sys2Proof.Machine

/-! ### Durable commits (16 R429) -/

/-- A durable commit of a cost in 0.1 J may start. -/
def Dev.durableOk (d : Dev) (cost : Nat) : Bool :=
  decide (cost + 10 * d.getF PWR_HOLDUP_CFG_RESERVE_J + d.getF PWR_HOLDUP_COMMITTED ≤ d.getF PWR_HOLDUP_USABLE)

/-- A durable commit starts. -/
def Dev.startDurable (d : Dev) (cost : Nat) : Dev := d.addF PWR_HOLDUP_COMMITTED cost

/-- A durable commit ends. -/
def Dev.endDurable (d : Dev) (cost : Nat) : Dev := d.setF PWR_HOLDUP_COMMITTED (d.getF PWR_HOLDUP_COMMITTED - cost)

/-- Cost of a checkpoint manifest, 0.1 J (Table 16.7). -/
def manifestCost : Nat := 15

/-! ### Holds (R367) -/

/-- Stored runs that sessions name. -/
def Dev.liveRuns (d : Dev) : List (U64 × Nat) :=
  d.tus.slot.flatMap fun e =>
    ((e.2.pages ++ e.2.writing).filter fun x => x.2.tier ≥ 2 && !x.2.dropped).map (fun x => (x.2.storedAt, x.2.sectors)) ++
    e.2.blocks.map fun a => (a, 8)

/-- Stored runs that checkpoints hold. -/
def Dev.heldRuns (d : Dev) : List (U64 × Nat) :=
  (d.ckp.now.flatMap fun e => e.2.held.map fun x => (BitVec.ofNat 64 x.1, x.2)) ++
  d.ckp.kept.flatMap fun e => e.held.map fun x => (BitVec.ofNat 64 x.1, x.2)

/-- Pool pages of runs let go that no other run touches are free again; how many. -/
def Dev.freeRunPages (d : Dev) (runs : List (U64 × Nat)) : Dev × Nat :=
  let pages := (runs.flatMap fun r => pagesOfRun r.1 r.2).eraseDups
  let used := (d.liveRuns ++ d.heldRuns).flatMap fun r => pagesOfRun r.1 r.2
  pages.foldl (fun x a =>
    let d := x.1
    if used.contains a then x
    else
      let d := if d.ckp.inHold.contains a then
          ({ d with ckp := { d.ckp with inHold := d.ckp.inHold.filter fun b => b != a } }).move 4 (poolSpace a) 4 1 1 none
        else d
      match d.extentAt a with
      | none => (d, x.2)
      | some e => (d.freePages e.handle [(poolOffset a - e.base) / pageBytes], x.2 + 1)) (d, 0)

/-- Finished checkpoints that satisfy a condition are released; pool pages freed. -/
def Dev.releaseKept (d : Dev) (c : Kept → Bool) : Dev × Nat :=
  let gone := d.ckp.kept.filter c
  let d := { d with ckp := { d.ckp with kept := d.ckp.kept.filter fun x => !c x } }
  d.freeRunPages (gone.flatMap fun e => e.held.map fun x => (BitVec.ofNat 64 x.1, x.2))

/-- A finished checkpoint is held, and those of its ladder beyond the RETAIN newest are released (C9). -/
def Dev.keep (d : Dev) (x : Kept) : Dev :=
  let d := { d with ckp := { d.ckp with kept := x :: d.ckp.kept } }
  let mine := (d.ckp.kept.filter fun y => y.part == x.part && y.ladder == x.ladder).map fun y => y.id
  let old := mine.drop (max 1 (d.getF (CKP_CFG_RETAIN x.part)))
  (d.releaseKept fun y => y.part == x.part && y.ladder == x.ladder && old.contains y.id).1

/-! ### The checkpoint of a partition -/

/-- The checkpoint in progress. -/
def Dev.ckpt (d : Dev) (p : Nat) : Option Ckpt := tget d.ckp.now p

/-- The device with it set, and CKP_PROGRESS. -/
def Dev.setCkpt (d : Dev) (p : Nat) (c : Ckpt) : Dev :=
  let d := { d with ckp := { d.ckp with now := tput d.ckp.now p c } }
  ((d.setF (CKP_PROGRESS_PHASE p) c.phase).setF (CKP_PROGRESS_SHARDS_DONE p) (if c.desc.isSome then c.shards.length else 0)).showCopies

/-- No checkpoint is in progress any more. -/
def Dev.dropCkpt (d : Dev) (p : Nat) : Dev :=
  let d := { d with ckp := { d.ckp with now := tdel d.ckp.now p } }
  let d := ((d.setF (CKP_PROGRESS_PHASE p) 0).setF (CKP_PROGRESS_SHARDS_DONE p) 0).setF (CKP_PROGRESS_TILES_COPIED p) 0
  let d := d.showCopies
  { d with fab := { d.fab with req := d.fab.req.filter fun x => match x.2.purpose with
      | .shard q _ => q != p
      | .shardGap q _ => q != p
      | _ => true } }

/-- Abandonment on this device (R375): the shard region is never written again, holds end, and CKPT_START completes. -/
def Dev.abandon (d : Dev) (p : Nat) (st : Byte) : Dev :=
  match d.ckpt p with
  | none => d
  | some c =>
    let d := d.dropCkpt p
    let d := d.modStep p fun s => { s with cut := false }
    let d := d.modRegion c.region fun r => { r with tile := [], isSealed := false }
    let d := (d.freeRunPages ((c.held.map fun (x : Nat × Nat) => ((BitVec.ofNat 64 x.1 : U64), x.2)).filter fun x => d.ckp.inHold.any fun a => (pagesOfRun x.1 x.2).contains a)).1
    let d := (d.flag CKP_STATUS_ABANDONED CKP_STATUS_ABANDON_COUNT).raiseOpen (some p) 0x0D10 0x107
    match c.desc with
    | some k => d.failOpen k st none
    | none => d

/-! ### The shard (R365, R366, R370) -/

/-- Bytes of a digest. -/
def digestBytes (x : Digest) : List Byte := leBytes 48 x.toNat

/-- Section JOB of a shard. -/
def Dev.secJob (d : Dev) (p : Nat) (c : Ckpt) : List Byte :=
  let j := d.job p c.job
  let a := d.arip p
  let group := fun (f : Nat) (g : SemGroup) (sem : Nat → Sem) =>
    record [(2, f), (2, g.count), (4, g.total)] ++ (List.range g.count).flatMap fun i => record [(4, (sem (f + i)).value), (4, (sem (f + i)).coreHeld + (sem (f + i)).ringHeld)]
  let live := (d.plc.group.filter fun (e : Nat × SemGroup) => e.2.part == p && e.2.home == d.id).flatMap fun e => group e.1 e.2 d.sem
  let parked := (List.range 4).flatMap fun i => ((d.job p i).groups.filter fun (e : Nat × SemGroup) => e.2.home == d.id).flatMap fun e =>
    group e.1 e.2 fun n => tgetD (d.job p i).saved n {}
  let sums := (d.ldg.inst.filter fun (e : Nat × Ledger) => e.2.part == some p).flatMap fun e =>
    record [(4, e.1)] ++ e.2.held.flatMap fun h => leBytes 8 (h % 2 ^ 64).toNat
  digestBytes j.hdr.digest ++ record [(1, j.hdr.rung), (1, c.pos), (2, a.epoch)] ++ (a.vecs.flatMap fun v => v.map fun l => BitVec.ofNat 8 l) ++ live ++ parked ++ sums

/-- Sessions that a shard holds: those of the job's classes that are not FREE. -/
def Dev.shardSessions (d : Dev) (p : Nat) (c : Ckpt) : List Nat :=
  d.sesWhere p fun s => s.st != .free && (d.job p c.job).hdr.classes.getLsbD s.cls

/-- RAW payload and stored form of a page that the shard copies from T1. -/
def Dev.pageRaw (d : Dev) (loc : Nat) (x : Page) : List Byte :=
  if x.tier = 0 then x.raw else loadTile x.form x.format 32 (d.sesHdr (d.sesPart loc) loc).cols x.data

/-- What goes into section KV for one page: stored bytes, or a run to be read, with the entry's form. -/
inductive KvItem where
  | bytes (st : Stored)
  | run (addr : U64) (sectors : Nat)
  deriving DecidableEq, Repr

/-- The item of a page under KV_MODE and PEAT; none when the shard does not copy it. -/
def Dev.kvItem (d : Dev) (c : Ckpt) (loc : Nat) (x : Page) : Option KvItem :=
  let cols := (d.sesHdr (d.sesPart loc) loc).cols
  if x.dropped || c.mode == 0 then none
  else if x.tier ≤ 1 then some (.bytes (storeTile c.peat 2 x.format 32 cols (d.pageRaw loc x)))
  else if c.mode == 2 then some (.run x.storedAt x.sectors)
  else none

/-- Section KV under construction: bytes, runs to read (offset, address, sectors), and for each page where its copy lies. -/
structure KvSection where
  bytes : List Byte := []
  gaps  : List (Nat × U64 × Nat) := []
  at_   : List ((Nat × U64 × Nat) × Nat) := []
  deriving DecidableEq, Repr

/-- A page's copy added once, however many entries name it; the sector (from 1) where it starts, 0 for none. -/
def KvSection.add (s : KvSection) (key : Nat × U64 × Nat) (it : Option KvItem) : KvSection × Nat :=
  match it with
  | none => (s, 0)
  | some it =>
    match s.at_.find? fun e => e.1 == key with
    | some e => (s, e.2)
    | none =>
      let off := s.bytes.length / 512
      let s := { s with at_ := (key, off + 1) :: s.at_ }
      match it with
      | .bytes st => ({ s with bytes := s.bytes ++ padTo (512 * st.sectors) st.bytes }, off + 1)
      | .run a n => ({ s with bytes := s.bytes ++ List.replicate (512 * n) 0, gaps := s.gaps ++ [(512 * off, a, n)] }, off + 1)

/-- A page-table entry with the form and sectors of its copy. -/
def Dev.shardPte (d : Dev) (loc i : Nat) (x : Page) (it : Option KvItem) : List Byte :=
  let y := match it with
    | some (.bytes st) => { x with form := st.form, format := st.format, sectors := st.sectors }
    | _ => x
  d.pteOf loc i [(i, y)]

/-- Sections TABLES and KV. -/
def Dev.secTables (d : Dev) (c : Ckpt) (ls : List Nat) : List Byte × KvSection :=
  ls.foldl (fun r l =>
    let s := d.ses l
    let x := s.pages.foldl (fun (y : List Byte × KvSection) (e : Nat × Page) =>
      let it := d.kvItem c l e.2
      let (kv, at_) := y.2.add (e.2.frame, e.2.storedAt, e.2.tier) it
      (y.1 ++ record [(4, e.1), (4, at_)] ++ d.shardPte l e.1 e.2 it, kv)) ([], r.2)
    (r.1 ++ record [(8, (d.sesHandle l).toNat), (4, s.positions), (4, s.pages.length)] ++ x.1, x.2)) ([], {})

/-- Section TOKEN. -/
def Dev.secToken (d : Dev) (p : Nat) : List Byte :=
  ((List.range 6).flatMap fun t => d.tokTile p t) ++ (d.tokp p).lists.flatMap fun e => Config.listImage e.2.kind e.2.records

/-- Section REGIONS: tiles of the extra regions of this device. -/
def Dev.secRegions (d : Dev) (p : Nat) (c : Ckpt) : List Byte :=
  (c.extra.filter fun h => d.regionStatus p h == stOk).flatMap fun h => match d.region (hRegion h) with
    | some r => (List.range r.tiles).flatMap fun t => (r.rawHere t).getD (List.replicate tileSize 0)
    | none => []

/-- Sections of a shard in order, each padded to whole tiles: TYPE, length, bytes. -/
structure ShardPlan where
  sections : List (Nat × Nat × List Byte)
  kvAt     : Nat
  gaps     : List (Nat × U64 × Nat)
  sessions : Nat
  deriving DecidableEq, Repr

/-- Bytes rounded up to whole tiles. -/
def tilePad (bs : List Byte) : List Byte := padTo (ceilDiv bs.length tileSize * tileSize) bs

/-- What the shard holds at the cut. -/
def Dev.shardPlan (d : Dev) (p : Nat) (c : Ckpt) : ShardPlan :=
  let ls := d.shardSessions p c
  let tk := d.secTables c ls
  let secs := [(1, d.secJob p c), (2, ls.flatMap fun l => d.tussock l), (3, ls.flatMap fun l => (d.genRec l).bytes), (4, tk.1),
    (5, tk.2.bytes), (6, d.secToken p), (7, d.secRegions p c)].filter fun x => !x.2.isEmpty
  let before := secs.takeWhile fun x => x.1 < 5
  { sections := secs.map fun x => (x.1, x.2.length, tilePad x.2), kvAt := tileSize + ((before.map fun x => (tilePad x.2).length).sum),
    gaps := tk.2.gaps, sessions := ls.length }

/-- Section bodies of a shard. -/
def ShardPlan.body (s : ShardPlan) : List Byte := s.sections.flatMap fun x => x.2.2

/-- Section table: TYPE, offset, length, digest over the section's bytes in the shard's body. -/
def sectionRows (bodies : List Byte) : List (Nat × Nat × List Byte) → Nat → List Byte
  | [], _ => []
  | x :: r, off =>
    record [(1, x.1), (7, 0), (8, off), (8, x.2.1)] ++ digestBytes (Config.sha384 ((bodies.drop (off - tileSize)).take x.2.1)) ++
      sectionRows bodies r (off + x.2.2.length)

/-- The shard header (Table 14.3) in its tile. -/
def Dev.shardHeader (d : Dev) (p : Nat) (c : Ckpt) (s : ShardPlan) (bodies : List Byte) : List Byte :=
  let h := (d.job p c.job).hdr
  padTo tileSize (padTo 64 (record [(4, 0x44524853), (2, 1), (2, s.sections.length), (4, c.id), (4, 0), (8, c.step.toNat),
    (8, h.ladder.toNat), (2, d.id), (1, c.pos), (1, h.rung), (1, c.mode)]) ++ sectionRows bodies s.sections tileSize)

/-! ### Fitness of a shard region, probes (R369) -/

/-- Tiles that the shard would take now. -/
def Dev.shardTiles (d : Dev) (p : Nat) (c : Ckpt) : Nat := 1 + (d.shardPlan p c).body.length / tileSize

/-- A region is fit to take this device's shard. -/
def Dev.shardFit (d : Dev) (p : Nat) (c : Ckpt) (h : U64) : Bool :=
  d.regionStatus p h == stOk && (d.region (hRegion h)).any fun r =>
    !r.wback && r.kind == 0 && !r.isSealed && r.tile.isEmpty && r.homeTier ≥ 2 &&
    (d.extentInfo r.extent).any (fun e => hExtHome e.handle != d.id) && (d.storeKey p r.keyId.toNat).isSome &&
    decide (d.shardTiles p c ≤ r.tiles)

/-! ### The copy (C4–C6) -/

/-- Position of this device in a job slot's image. -/
def Dev.posIn (d : Dev) (p slot : Nat) : Nat := (((d.job p slot).sect.bind fun c => d.position c)).getD 0

/-- Device of the job's sync root. -/
def Dev.rootDev (d : Dev) (p slot : Nat) : Nat := ((d.job p slot).sect.map fun c => c.devices.getD (d.job p slot).hdr.syncRoot d.id).getD d.id

/-- Tiles written to the shard region's pages under its key. -/
def Dev.sendShard (d : Dev) (p : Nat) (c : Ckpt) : Dev :=
  match d.region c.region with
  | none => d.abandon p stExtent
  | some r =>
    match d.storeKey p r.keyId.toNat with
    | none => d.abandon p stTenant
    | some key =>
      let n := ceilDiv c.shard.length tileSize
      let d := d.setCkpt p { c with left := List.range n }
      (List.range n).foldl (fun d t =>
        let a := d.tileAddr r t
        let raw := padTo tileSize (c.shard.drop (tileSize * t))
        d.request p (.shard p t) a tileSize (some (sealSectors key a.toNat raw))) d

/-- The whole shard is here: its header is made and it is written. -/
def Dev.closeShard (d : Dev) (p : Nat) (c : Ckpt) (s : ShardPlan) : Dev :=
  let body := c.shard.drop tileSize
  d.sendShard p { c with shard := d.shardHeader p c s body ++ body }

/-- C4: the cut at E10 of step `number`; reads of runs that KV_MODE 2 copies go out first. -/
def Dev.cutShard (d : Dev) (p : Nat) (number : U64) : Dev :=
  match d.ckpt p with
  | none => d
  | some c =>
    if c.phase ≠ 1 then d
    else
      let c := { c with step := number, phase := 2 }
      let s := d.shardPlan p c
      let ls := d.shardSessions p c
      let runs := if c.mode = 2 then [] else ls.flatMap fun l => ((d.ses l).pages.filter fun (e : Nat × Page) =>
        e.2.tier ≥ 2 && !e.2.dropped).map (fun e => (e.2.storedAt, e.2.sectors)) ++ (d.ses l).blocks.map fun a => (a, 8)
      let held := runs.foldl (fun t x => tput t x.1.toNat x.2) ([] : Tbl Nat)
      let gaps := s.gaps.foldl (fun t g => tput t (s.kvAt + g.1) g.2) ([] : Tbl (U64 × Nat))
      let head := d.shardHeader p c s s.body
      let c := { c with held := held, sessions := s.sessions, gaps := gaps, shard := head ++ s.body }
      if (d.region c.region).all fun r => decide (r.tiles * tileSize < c.shard.length) then (d.setCkpt p c).abandon p stBad
      else if gaps.isEmpty then (d.setCkpt p c).sendShard p c
      else gaps.foldl (fun d g => d.request p (.shardGap p g.1) g.2.1 (512 * g.2.2) none) (d.setCkpt p c)

/-- A stored run that KV_MODE 2 copies has arrived: decrypted into its place; one that cannot be read stays zero, which its
RAW_DIGEST shows at restore (R381). -/
def Dev.gapAck (d : Dev) (p off : Nat) (addr : U64) (res : Except Byte (List Byte)) : Dev :=
  match d.ckpt p with
  | none => d
  | some c =>
    let keys := (d.sec.key.filter fun (e : Nat × Key) => e.1 / 65536 == p && e.2.store).filterMap fun e => d.readKey p (e.1 % 65536)
    let owner := (d.shardSessions p c).find? fun l => (d.ses l).pages.any fun e => e.2.tier ≥ 2 && e.2.storedAt == addr
    let key := (owner.bind fun l => d.readKey p (d.ses l).keyId.toNat).orElse fun _ => keys.head?
    let c := match res, key with
      | .ok bs, some key => { c with shard := splice c.shard off (openSectors key addr.toNat bs) }
      | _, _ => c
    let c := { c with gaps := tdel c.gaps off }
    if c.gaps.isEmpty then
      let n := leAt c.shard 6 2
      let secs := (List.range n).map fun i => (leAt c.shard (64 + 72 * i) 1, leAt c.shard (64 + 72 * i + 16) 8,
        List.replicate (ceilDiv (leAt c.shard (64 + 72 * i + 16) 8) tileSize * tileSize) (0 : Byte))
      d.closeShard p c { sections := secs, kvAt := 0, gaps := [], sessions := c.sessions }
    else d.setCkpt p c

/-- C7: the hold-up check at the root; while the energy is short the checkpoint waits (R373). -/
def Dev.ckptHoldup (d : Dev) (p : Nat) : Dev :=
  match d.ckpt p with
  | none => d
  | some c =>
    if c.phase ≠ 3 then d
    else if d.durableOk manifestCost then (d.startDurable manifestCost).setCkpt p { c with phase := 4 }
    else d

/-- A shard reported at the root (C6); with the last of them the hold-up check follows. -/
def Dev.gotShard (d : Dev) (p pos sessions len : Nat) (addr : U64) (keyId : Nat) (digest : Digest) : Dev :=
  match d.ckpt p with
  | none => d
  | some c =>
    if c.desc.isNone || !(c.phase == 2) then d
    else
      let n := ((d.job p c.job).sect.map fun x => x.devices.length).getD 1
      let c := { c with shards := tput c.shards pos (sessions, addr, len, keyId, digest) }
      if c.shards.length ≥ n then (d.setCkpt p { c with phase := 3 }).ckptHoldup p else d.setCkpt p c

/-- C6: the shard is written: the region is sealed and the digest goes to the root. -/
def Dev.shardDone (d : Dev) (p : Nat) (c : Ckpt) : Dev :=
  let d := d.modRegion c.region fun r => { r with isSealed := true }
  let digest := Config.sha384 c.shard
  let (addr, keyId) := match d.region c.region with
    | some r => (d.tileAddr r 0, r.keyId.toNat)
    | none => (0, 0)
  if c.desc.isSome then d.gotShard p c.pos c.sessions c.shard.length addr keyId digest
  else
    let d := d.emit (.ctrl (d.rootDev p c.job) (.shardReport p c.pos c.sessions c.shard.length addr keyId digest))
    (d.dropCkpt p).keep { part := p, ladder := (d.job p c.job).hdr.ladder, id := c.id, held := c.held }

/-- One tile of the shard is acknowledged, or its write failed (R375). -/
def Dev.shardAck (d : Dev) (p t : Nat) (addr : U64) (st : Byte) : Dev :=
  match d.ckpt p with
  | none => d
  | some c =>
    if st ≠ stOk then d.abandon p st
    else
      let raw := padTo tileSize (c.shard.drop (tileSize * t))
      let d := d.modTile c.region t fun x =>
        { x with gen := x.gen + 1, digest := crc64 raw, crc := crc32c raw, storedAt := addr, tier := ((d.region c.region).map fun r => r.homeTier).getD 2 }
      let c := { c with left := c.left.filter fun x => x != t }
      let d := (d.setCkpt p c).incF (CKP_PROGRESS_TILES_COPIED p)
      if c.left.isEmpty then d.shardDone p c else d

/-! ### Manifests (R371, R374) -/

/-- Bytes of a manifest before its HMAC. -/
def manifestBody (n id rung mode macKey : Nat) (step ladder : U64) (image : Digest) (dev : Nat → Nat)
    (shards : Tbl (Nat × U64 × Nat × Nat × Digest)) : List Byte :=
  padTo 128 (record [(4, 0x494E414D), (2, 1), (2, n), (4, id), (1, rung), (1, mode), (2, macKey), (8, step.toNat), (8, ladder.toNat)] ++
    digestBytes image) ++
  shards.flatMap fun e =>
    record [(2, dev e.1), (1, e.1), (1, 0), (4, e.2.1), (8, e.2.2.1.toNat), (8, e.2.2.2.1), (2, e.2.2.2.2.1), (6, 0)] ++ digestBytes e.2.2.2.2.2

/-- A manifest's layout: magic, version, length. -/
def manifestOk (b : List Byte) : Bool :=
  leAt b 0 4 == 0x494E414D && leAt b 4 2 == 1 && decide (1 ≤ leAt b 6 2 ∧ leAt b 6 2 ≤ 256) && b.length == 128 + 80 * leAt b 6 2 + 48

/-- HMAC of a manifest under the MAC key that it names; none when the key is not installed. -/
def Dev.manifestMac (d : Dev) (p : Nat) (b : List Byte) : Option Digest :=
  (d.storeKey p (leAt b 14 2)).map fun key => Config.hmac384 key (b.take (b.length - 48))

/-- Manifests of a ladder in keeping flash, newest first; none when it holds no slots. -/
def Dev.ladder (d : Dev) (l : U64) : Option (List Manifest) := (d.flash.ladders.find? fun e => e.1 == l).map fun e => e.2

/-- CKP_LAST of a partition follows its active job (Table 14.10). -/
def Dev.showLast (d : Dev) (p : Nat) : Dev :=
  match ((d.activeJob p).bind fun j => d.ladder j.hdr.ladder).bind fun ms => ms.head? with
  | some m => (d.setL (CKP_LAST_CKPT_ID p) m.id).setL (CKP_LAST_STEP_LO p) (m.step.toNat % 2 ^ 32)
  | none => (d.setL (CKP_LAST_CKPT_ID p) 0).setL (CKP_LAST_STEP_LO p) 0

/-- C8 to C10: the manifest is in flash over the older one, its host copy is written, holds beyond RETAIN end (log 42: DETAIL). -/
def Dev.commitManifest (d : Dev) (p : Nat) (c : Ckpt) (k : Nat) : Dev :=
  let j := d.job p c.job
  let devs := (j.sect.map fun x => x.devices).getD [d.id]
  let body := manifestBody devs.length c.id j.hdr.rung c.mode c.macKey c.step j.hdr.ladder j.full (fun i => devs.getD i 0) c.shards
  let d := d.endDurable manifestCost
  match d.storeKey p c.macKey with
  | none => d.abandon p stTenant
  | some key =>
    let b := body ++ digestBytes (Config.hmac384 key body)
    let m : Manifest := { id := c.id, step := c.step, bytes := b }
    let old := (d.ladder j.hdr.ladder).getD []
    let d := { d with flash := { d.flash with ladders := (j.hdr.ladder, (m :: old).take 2) :: d.flash.ladders.filter fun e => e.1 != j.hdr.ladder } }
    let d := d.emitFor p (.hostWrite p c.manifest b)
    let d := (d.dropCkpt p).keep { part := p, ladder := j.hdr.ladder, id := c.id, held := c.held }
    let (v, d) := (d.showLast p).draw
    d.ok k c.step (v.setWidth 32)

/-! ### Restore (R381, R382) -/

/-- A restore's record changed. -/
def Dev.modRestore (d : Dev) (k : Nat) (f : Restore → Restore) : Dev := { d with ckp := { d.ckp with restore := tupd d.ckp.restore k f } }

/-- Bytes of the shard that a restore has read. -/
def Restore.bytes (r : Restore) : List Byte := (r.tiles.flatMap fun e => e.2).take r.len

/-- A section of a shard: its bytes, empty when it has none of that TYPE. -/
def shardSection (b : List Byte) (type : Nat) : List Byte :=
  ((List.range (leAt b 6 2)).findSome? fun i =>
    if leAt b (64 + 72 * i) 1 = type then some ((b.drop (leAt b (64 + 72 * i + 8) 8)).take (leAt b (64 + 72 * i + 16) 8)) else none).getD []

/-- Entries of section TABLES: handle, positions, pages as index, sector of the copy (from 1; 0 none) and page-table entry. -/
def parseTables : Nat → List Byte → List (U64 × Nat × List (Nat × Nat × List Byte))
  | 0, _ => []
  | f + 1, b =>
    if b.length < 16 then []
    else
      let n := leAt b 12 4
      let one := fun (i : Nat) => (leAt b (16 + 72 * i) 4, leAt b (20 + 72 * i) 4, (b.drop (24 + 72 * i)).take 64)
      (BitVec.ofNat 64 (leAt b 0 8), leAt b 8 4, (List.range n).map one) :: parseTables f (b.drop (16 + 72 * n))

/-- A page-table entry read back (06 Table 06.3). -/
def pageOfPte (b : List Byte) : Page :=
  { tier := leAt b 58 1, storedAt := BitVec.ofNat 64 (leAt b 48 8), sectors := leAt b 3 1, form := leAt b 1 1, format := leAt b 0 1,
    rows := leAt b 6 2, gen := leAt b 24 8, digest := BitVec.ofNat 64 (leAt b 32 8), crc := BitVec.ofNat 32 (leAt b 40 4),
    keyId := BitVec.ofNat 16 (leAt b 56 2), dropped := (leAt b 5 1).testBit 1, poison := (leAt b 59 1).testBit 1 }

/-- A page from a shard: a run that it references, or its copy put into a T1 frame; dropped when the copy's RAW_DIGEST fails or no
frame is FREE. -/
def Dev.shardPage (d : Dev) (p : Nat) (h : ImageHdr) (kv : List Byte) (at_ : Nat) (pte : List Byte) : Page × Dev :=
  let x := pageOfPte pte
  if at_ = 0 then (if x.tier ≥ 2 then x else { x with dropped := true, tier := 0 }, d)
  else
    let raw := loadTile x.form x.format 32 h.cols ((kv.drop (512 * (at_ - 1))).take (512 * x.sectors))
    if (x.form ≤ 1 ∧ crc64 raw ≠ x.digest) ∨ d.freeFrames p = 0 then ({ x with dropped := true, tier := 0 }, d)
    else
      let (f, d) := d.newKvFrame p 0
      ({ x with tier := 0, frame := f, form := 0, sectors := 128, data := raw, crc := crc32c raw, digest := crc64 raw }, d.refUp p f)

/-- Pages of a session of `n` positions: those of the shard for ranges below its own positions, dropped ones for the rest. -/
def Dev.restorePages (d : Dev) (p slot n shardPos : Nat) (keyId : U16) (kv : List Byte) (ps : List (Nat × Nat × List Byte)) : Tbl Page × Dev :=
  let j := d.job p slot
  let h := j.hdr
  let idx := (List.range (rangesOf n)).flatMap fun r => (d.pairs j).map fun x => (r, h.page r x.1 x.2)
  idx.foldl (fun (t : Tbl Page × Dev) (x : Nat × Nat) =>
    let fits := 32 * (x.1 + 1) ≤ shardPos ∨ n = shardPos
    match (if fits then ps.find? fun y => y.1 == x.2 else none) with
    | some y =>
      let (pg, d) := t.2.shardPage p h kv y.2.1 y.2.2
      (tput t.1 x.2 pg, d)
    | none =>
      (tput t.1 x.2 { dropped := true, format := h.kvFormat, rows := min 32 (n - 32 * x.1), keyId := keyId }, t.2)) ([], d)

/-- Positions of the ranges that have a dropped page. -/
def recomputeCount (h : ImageHdr) (n : Nat) (ps : Tbl Page) : Nat :=
  ((((ps.filter fun e => e.2.dropped).map fun e => h.rangeOf e.1).eraseDups).map fun r => min 32 (n - 32 * r)).sum

/-- One record of the restore map (R382). -/
def mapRecord (old new : U64) (positions recompute : Nat) (st : Byte) : List Byte :=
  record [(8, old.toNat), (8, new.toNat), (4, positions), (4, recompute), (1, st.toNat), (7, 0)]

/-- Plaintext of a history's parts, when all of them were read. -/
def Restore.history (r : Restore) (i : Nat) : Byte × List Byte :=
  let ps := r.parts.filter fun (e : Nat × Byte × List Byte) => e.1 / 4096 == i
  match ps.find? fun e => e.2.1 != stOk with
  | some e => (e.2.1, [])
  | none => (stOk, ps.flatMap fun e => e.2.2)

/-- One session restored: its map record, and whether it was restored. -/
def Dev.restoreOne (d : Dev) (r : Restore) (shard kv gens : List Byte) (tables : List (U64 × Nat × List (Nat × Nat × List Byte)))
    (i : Nat) (x : BitVec 512 × U64 × Bool) : Dev × List Byte × Bool :=
  let p := r.part
  let (st, b) := r.history i
  let old := if x.2.2 then BitVec.ofNat 64 (leAt b 0 8) else x.1.setWidth 64
  if st ≠ stOk then (d, mapRecord old 0 0 0 st, false)
  else
    let pos := leAt b 8 4
    let staged := leAt b 12 4
    let keyId := BitVec.ofNat 16 (leAt b 24 2)
    match (tgetD d.tus.numbers p {}).take (d.getF (TUS_PART_FIRST p)) (d.getF (TUS_PART_COUNT p)) with
    | none => (d, mapRecord old 0 0 0 stLimit, false)
    | some (loc, nums) =>
      let d := { d with tus := { d.tus with numbers := tput d.tus.numbers p nums } }
      let entry := if x.2.2 then none else tables.find? fun t => t.1 == old
      let (ps, d) := d.restorePages p r.slot pos ((entry.map fun t => t.2.1).getD 0) keyId kv ((entry.map fun t => t.2.2).getD [])
      let hr := (d.tier.region.find? fun (y : Nat × Region) => y.2.part == p && d.tileAddr y.2 0 == x.2.1).elim regionLimit fun y => y.1
      let g := nextGen (d.ses loc).gen 0x7FFFFFF
      let s : Session :=
        { gen := g, st := .parked, depth := max 1 (depthOf ps), pin := (leAt b 27 1).testBit 7, cls := leAt b 26 1, prio := leAt b 27 1 % 4,
          positions := pos, keyId := keyId, histAddr := x.2.1, stateTime := d.clock.now, staged := staged,
          memIndex := BitVec.ofNat 32 (leAt b 28 4), listSet := leAt b 32 2, profile := leAt b 34 2, histReg := hr,
          hist := (List.range (pos + staged)).map fun n => BitVec.ofNat 32 (leAt b (64 + 4 * n) 4), pages := ps }
      let d := ((d.setSes loc s).recountDropped loc).retable loc
      let d := if s.memIndex = 0xFFFFFFFF then d else d.nameIndex s.memIndex.toNat true
      let n := (((shardSection shard 2).length / 64).min 65536)
      let row := (List.range n).find? fun j => BitVec.ofNat 64 (leAt (shardSection shard 2) (64 * j) 8) == old
      let seed := (row.map fun j => leAt gens (64 * j + 24) 8).getD 0
      let d := d.modTok p fun t => { t with gens := tput t.gens loc { seed := BitVec.ofNat 64 seed } }
      (d, mapRecord old (mkHandle d.id p g loc) pos (recomputeCount (d.job p r.slot).hdr pos ps) stOk, true)

/-- PAGES: dropped pages of this device's sessions that lie wholly below the shard's positions come from the shard. -/
def Dev.fillPages (d : Dev) (r : Restore) (kv : List Byte) (tables : List (U64 × Nat × List (Nat × Nat × List Byte))) : Dev :=
  let h := (d.job r.part r.slot).hdr
  tables.foldl (fun d t =>
    match (d.sesWhere r.part fun s => s.st != .free).find? fun l => d.sesHandle l == t.1 with
    | none => d
    | some l =>
      let d := t.2.2.foldl (fun d y =>
        match tget (d.ses l).pages y.1 with
        | some q =>
          if q.dropped && decide (32 * (h.rangeOf y.1 + 1) ≤ t.2.1) then
            let (pg, d) := d.shardPage r.part h kv y.2.1 y.2.2
            d.modSes l fun s => { s with pages := tput s.pages y.1 pg }
          else d
        | none => d) d
      d.recountDropped l) d

/-- The hold of R379 ends. -/
def Dev.endLossHold (d : Dev) (p : Nat) : Dev :=
  let d := d.modStep p fun s => { s with lossHeld := false }
  (d.sesWhere p fun s => s.lossHold).foldl (fun d l => d.modSes l fun s => { s with lossHold := false }) d

/-- Every history is read: the sessions are created, the map is written, and CKPT_RESTORE completes. -/
def Dev.restoreEnd (d : Dev) (k : Nat) : Dev :=
  match tget d.ckp.restore k, tget d.rng.descs k with
  | some r, some e =>
    let d := { d with ckp := { d.ckp with restore := tdel d.ckp.restore k } }
    let b := r.bytes
    let usePages := r.what.testBit 0 || r.what.testBit 1
    let tables := if usePages then let t := shardSection b 4; parseTables (t.length / 16 + 1) t else []
    let kv := shardSection b 5
    let gens := shardSection b 3
    let x := r.todo.zipIdx.foldl (fun (y : Dev × List Byte × Nat) (t : (BitVec 512 × U64 × Bool) × Nat) =>
      let z := y.1.restoreOne r b kv gens tables t.2 t.1
      (z.1, y.2.1 ++ z.2.1, if z.2.2 then y.2.2 + 1 else y.2.2)) (d, [], 0)
    let d := if r.what.testBit 1 then x.1.fillPages r kv tables else x.1
    let d := if x.2.1.isEmpty then d else d.emitFor e.part (.hostWrite e.part (BitVec.ofNat 64 (fieldAt e.d 32 8)) x.2.1)
    (d.endLossHold r.part).ok k (BitVec.ofNat 64 x.2.2) (BitVec.ofNat 32 (r.todo.length - x.2.2))
  | _, _ => d

/-- More requests that a descriptor waits for. -/
def Dev.addWait (d : Dev) (k n : Nat) : Dev :=
  match (tget d.rng.descs k).map DescEntry.st with
  | some (.waiting (.requests m)) => d.wait k (.requests (m + n))
  | _ => d.wait k (.requests n)

/-- One request fewer; the last one ends the reading of histories. -/
def Dev.restoreStep (d : Dev) (k : Nat) : Dev :=
  match (tget d.rng.descs k).map DescEntry.st with
  | some (.waiting (.requests n)) => if n ≤ 1 then d.restoreEnd k else d.wait k (.requests (n - 1))
  | _ => d

/-- The sessions to restore are known: the first sector of every history is read. -/
def Dev.readHistories (d : Dev) (k : Nat) : Dev :=
  match tget d.ckp.restore k with
  | none => d
  | some r =>
    if r.todo.isEmpty then d.restoreEnd k
    else
      r.todo.zipIdx.foldl (fun (d : Dev) (t : (BitVec 512 × U64 × Bool) × Nat) =>
        d.request r.part (.histRead k (4096 * t.2)) t.1.2.1 512 none) (d.wait k (.requests r.todo.length))

/-- Plaintext of a history's first sector: under the key that the descriptor names, or, for an ADOPT entry, under the STORE key that
the header itself names (R368); a header that names another handle gives NO_SUCH_SESSION. -/
def Dev.openHead (d : Dev) (r : Restore) (x : BitVec 512 × U64 × Bool) (bs : List Byte) : Byte × List Byte :=
  let ids := if x.2.2 then (d.sec.key.filter fun (e : Nat × Key) => e.1 / 65536 == r.part && e.2.store).map fun e => e.1 % 65536
    else [(x.1.toNat / 2 ^ 240) % 65536]
  let tries := ids.filterMap fun id => (d.storeKey r.part id).map fun key => (id, openSectors key x.2.1.toNat bs)
  if tries.isEmpty then (stTenant, [])
  else
    match tries.find? fun t => leAt t.2 24 2 == t.1 && (if x.2.2 then leAt t.2 0 8 != 0 else leAt t.2 0 8 == x.1.toNat % 2 ^ 64) with
    | some t => (stOk, t.2)
    | none => (stNoSession, [])

/-- A part of a history has been read: after the first sector come the others, tile by tile. -/
def Dev.histAck (d : Dev) (k part : Nat) (addr : U64) (res : Except Byte (List Byte)) : Dev :=
  match tget d.ckp.restore k with
  | none => d
  | some r =>
    let i := part / 4096
    match r.todo[i]?, res with
    | some x, .ok bs =>
      if part % 4096 = 0 then
        let (st, plain) := d.openHead r x bs
        let d := d.modRestore k fun r => { r with parts := tput r.parts part (st, plain) }
        let sectors := if st = stOk then ceilDiv (64 + 4 * (leAt plain 8 4 + leAt plain 12 4)) 512 else 1
        let ts := if sectors ≤ 1 then [] else List.range ((sectors - 1) / 128 + 1)
        let d := if ts.isEmpty then d else d.addWait k ts.length
        let d := ts.foldl (fun d t =>
          let lo := max 1 (128 * t)
          let n := min sectors (128 * t + 128) - lo
          d.request r.part (.histRead k (4096 * i + t + 1)) (x.2.1 + BitVec.ofNat 64 (512 * lo)) (512 * n) none) d
        d.restoreStep k
      else
        let id := leAt ((tgetD r.parts (4096 * i) (0, [])).2) 24 2
        let y := match d.readKey r.part id with
          | some key => (stOk, openSectors key addr.toNat bs)
          | none => (stTenant, [])
        (d.modRestore k fun r => { r with parts := tput r.parts part y }).restoreStep k
    | _, .error st => (d.modRestore k fun r => { r with parts := tput r.parts part (st, []) }).restoreStep k
    | _, _ => d.restoreStep k

/-- A restore ends without an effect. -/
def Dev.restoreFail (d : Dev) (k : Nat) (st : Byte) : Dev :=
  ({ d with ckp := { d.ckp with restore := tdel d.ckp.restore k } }).failOpen k st none

/-- Sessions whose descriptors the shard or the mirror gives, ahead of the ADOPT entries. -/
def Dev.shardDescs (d : Dev) (r : Restore) : List (BitVec 512 × U64 × Bool) :=
  let one := fun (x : BitVec 512) => (x, BitVec.ofNat 64 (x.toNat / 2 ^ 256 % 2 ^ 64), false)
  let s := shardSection r.bytes 2
  (if r.what.testBit 0 then (List.range (s.length / 64)).map fun i => one (BitVec.ofNat 512 (leAt s (64 * i) 64)) else []) ++
  (if r.what.testBit 2 then ((tget d.tus.mirror r.part).getD []).map one else [])

/-- Every tile of the shard is here: its digest is checked. -/
def Dev.shardRead (d : Dev) (k : Nat) (r : Restore) : Dev :=
  if Config.sha384 r.bytes ≠ r.digest then (d.raiseOpen (some r.part) 0x0D13 0x107).restoreFail k stPoison
  else (d.modRestore k fun r => { r with todo := d.shardDescs r ++ r.todo }).readHistories k

/-- A tile of the shard has been read. -/
def Dev.shardReadAck (d : Dev) (k t : Nat) (addr : U64) (res : Except Byte (List Byte)) : Dev :=
  match tget d.ckp.restore k, res with
  | none, _ => d
  | some _, .error st => d.restoreFail k st
  | some r, .ok bs =>
    match d.readKey r.part r.keyId with
    | none => d.restoreFail k stTenant
    | some key =>
      let r := { r with tiles := tput r.tiles t (openSectors key addr.toNat bs) }
      let d := d.modRestore k fun _ => r
      if r.tiles.length = ceilDiv r.len tileSize then d.shardRead k r else d

end Sys2Proof.Machine
end

