-- ==== Sys2Proof/Machine/Sluice.lean ====
section
/-! DEFINITION. Sluice: shapers and policers and the opcodes that set them, path queues, their samples and their windows
(12_sluice_traffic.md R324–R339). -/

namespace Sys2Proof.Machine

/-! ### Shapers (R327–R332) -/

/-- Frames at the head of a shaper leave while its tokens are above 0 (R330); one that only waited behind them in its
channel goes to its own shaper (R331). -/
def Dev.drainShaper : Nat → Dev → Nat → Dev
  | 0, d, _ => d
  | fuel + 1, d, n =>
    match tget d.slu.shaper n with
    | none => d
    | some x =>
      match x.held with
      | [] => d
      | h :: r =>
        if !x.classes.getLsbD h.cls then Dev.drainShaper fuel ((d.setShaper n { x with held := r }).shape h.tag) n
        else if x.tokens > 0 then
          Dev.drainShaper fuel ((d.setShaper n ({ x with held := r }.debit h.wire)).dispatch h.tag) n
        else d

/-- A held frame is judged under the tokens of now. -/
def Dev.judge (d : Dev) (n : Nat) : Dev :=
  match tget d.slu.shaper n with
  | none => d
  | some x => (d.setShaper n (x.refill d.clock.now)).drainShaper (x.held.length + 1) n

/-- SHAPER_CLEAR: everything held is released; the number of frames released (R332). -/
def Dev.clearShaper (d : Dev) (n : Nat) : Dev × Nat :=
  match tget d.slu.shaper n with
  | none => (d, 0)
  | some x =>
    let d := { d with slu := { d.slu with shaper := tdel d.slu.shaper n } }
    (x.held.foldl (fun d h => d.shape h.tag) d, x.held.length)

/-- SHAPER_ELIGIBLE (R330): the bucket of a shaper that holds frames rises above 0. -/
def execShaperEligible (shaper : Nat) (s : State) : Res := guarded (.shaperEligible shaper) (onDev s fun d => d.judge shaper)

/-- A shaper lies in its partition's range (R327, R338). -/
def Dev.shaperOwned (d : Dev) (p n : Nat) : Bool :=
  decide (d.getF (SLU_PART_SHAPER_FIRST p) ≤ n ∧ n < d.getF (SLU_PART_SHAPER_FIRST p) + d.getF (SLU_PART_SHAPER_COUNT p))

/-- An egress point exists, has the pool role where it is a PCIe/CXL port, and is the partition's to use (R327). -/
def Dev.egressOk (d : Dev) (p e : Nat) : Bool :=
  if e < 32 then decide (e / 8 < d.getF GLB_ASSEMBLY_L_DIES) && (d.getF (SEC_PART_PORT_MASK p)).testBit e
  else decide (e - 32 < d.getF GLB_ASSEMBLY_L_DIES) && !(d.getF GLB_ASSEMBLY_HOST_ROLE).testBit (e - 32)

/-- Ranges of Table 12.5, then the range of the partition, then the egress point. -/
def chkShaperSet (d : Dev) (p : Nat) (x : Desc) : Byte :=
  let rate := fieldAt x 20 4
  let burst := fieldAt x 24 4
  if fieldAt x 16 2 ≥ 16384 ∨ fieldAt x 18 1 > 35 ∨ fieldAt x 19 1 = 0 ∨ rate = 0 ∨ rate > 1600000 ∨ burst < 256 ∨
      burst > 67108864 ∨ fieldAt x 28 1 > 1 then stBad
  else if !d.shaperOwned p (fieldAt x 16 2) || !d.egressOk p (fieldAt x 18 1) then stDenied
  else stOk

/-- A new binding meets one of the partition's other shapers (R329). -/
def Dev.overlaps (d : Dev) (p n egress : Nat) (classes : BitVec 8) : Bool :=
  d.slu.shaper.any fun e => e.1 != n && e.2.part == p && e.2.egress == egress && (e.2.classes &&& classes) != 0

/-- SHAPER_SET's effect (R332, R339). -/
def doShaperSet (d : Dev) (k : Nat) (e : DescEntry) : Dev :=
  let x := e.d
  let n := fieldAt x 16 2
  let egress := fieldAt x 18 1
  let classes := BitVec.ofNat 8 (fieldAt x 19 1)
  if d.overlaps e.part n egress classes then d.refuse k stWrong
  else
    let d := if (tget d.slu.shaper n).any (fun y => y.egress != egress || y.classes != classes) then (d.clearShaper n).1 else d
    let old := (tget d.slu.shaper n).map fun y => y.refill d.clock.now
    let burst := fieldAt x 24 4
    let new : Shaper :=
      { part := e.part, egress := egress, classes := classes, rate := fieldAt x 20 4, burst := burst,
        tokens := if fieldAt x 28 1 = 0 then (burst * 65536 : Nat) else 0, at_ := d.clock.now,
        held := old.elim [] fun y => y.held }
    let d := (d.setShaper n new).judge n
    d.ok k (BitVec.ofInt 64 (old.elim 0 fun y => y.tokens / 65536)) 0

/-- SHAPER_SET (R332). -/
def execShaperSet (ring : Nat) (x : Desc) (s : State) : Res :=
  guarded (.shaperSet ring x) (onDev s fun d => d.runOp 0x80 ring x chkShaperSet doShaperSet)

/-- SHAPER_CLEAR (R332). -/
def execShaperClear (ring : Nat) (x : Desc) (s : State) : Res :=
  guarded (.shaperClear ring x) (onDev s fun d =>
    d.runOp 0x81 ring x
      (fun d p x => if fieldAt x 16 2 ≥ 16384 then stBad else if !d.shaperOwned p (fieldAt x 16 2) then stDenied else stOk)
      fun d k e =>
        let r := d.clearShaper (fieldAt e.d 16 2)
        r.1.ok k 0 (BitVec.ofNat 32 r.2))

/-! ### Policers (R324, R332) -/

/-- A policer belongs to the partition that owns the ring of its number (R324). -/
def Dev.policerOwned (d : Dev) (p n : Nat) : Bool := d.ringOwner n == some p

/-- Ranges of Table 12.5, then the partition's own policers. -/
def chkPolicerSet (d : Dev) (p : Nat) (x : Desc) : Byte :=
  let dr := fieldAt x 20 4
  let db := fieldAt x 24 4
  let br := fieldAt x 28 4
  let bb := fieldAt x 32 4
  if fieldAt x 16 2 ≥ 4096 ∨ dr = 0 ∨ dr > 40000000 ∨ db = 0 ∨ db > 65536 ∨ br > 1600000 ∨
      (br ≠ 0 ∧ (bb < 256 ∨ bb > 67108864)) ∨ fieldAt x 36 1 > 1 then stBad
  else if !d.policerOwned p (fieldAt x 16 2) then stDenied
  else stOk

/-- POLICER_SET's effect: the bucket full or empty, the tokens that it held before in RESULT (R339). -/
def doPolicerSet (d : Dev) (k : Nat) (e : DescEntry) : Dev :=
  let x := e.d
  let n := fieldAt x 16 2
  let full := fieldAt x 36 1 == 0
  let old := (tget d.slu.policer n).map fun q => q.refill d.clock.now
  let new : Policer :=
    { descRate := fieldAt x 20 4, descBurst := fieldAt x 24 4, byteRate := fieldAt x 28 4, byteBurst := fieldAt x 32 4,
      descTok := if full then fieldAt x 24 4 * descToken else 0,
      byteTok := if full then fieldAt x 32 4 * byteToken else 0, at_ := d.clock.now }
  let held := old.elim 0 fun q => if q.byteRate = 0 then q.descTok / descToken else q.byteTok / byteToken
  { d with slu := { d.slu with policer := tput d.slu.policer n new } }.ok k (BitVec.ofNat 64 held) 0

/-- POLICER_SET (R332). -/
def execPolicerSet (ring : Nat) (x : Desc) (s : State) : Res :=
  guarded (.policerSet ring x) (onDev s fun d => d.runOp 0x82 ring x chkPolicerSet doPolicerSet)

/-- POLICER_CLEAR (R332): a policer holds nothing, so nothing is released. -/
def execPolicerClear (ring : Nat) (x : Desc) (s : State) : Res :=
  guarded (.policerClear ring x) (onDev s fun d =>
    d.runOp 0x83 ring x
      (fun d p x => if fieldAt x 16 2 ≥ 4096 then stBad else if !d.policerOwned p (fieldAt x 16 2) then stDenied else stOk)
      fun d k e => { d with slu := { d.slu with policer := tdel d.slu.policer (fieldAt e.d 16 2) } }.ok k 0 0)

/-! ### Path queues (R333–R337) -/

/-- A path queue. -/
def Dev.queue (d : Dev) (q : Nat) : PathQ := tgetD d.slu.queue q {}

/-- The device with a path queue changed. -/
def Dev.modQueue (d : Dev) (q : Nat) (f : PathQ → PathQ) : Dev := { d with slu := { d.slu with queue := tmod d.slu.queue q {} f } }

/-- The bin set in force under a number (R340). -/
def Dev.binSet (d : Dev) (k : Nat) : U64 := (tget d.slu.binset k).getD (regReset (SLU_BINSET k))

/-- Upper edge of bin `k`, 0–14 (Table 12.3). -/
def binEdge (set : U64) (k : Nat) : Nat :=
  let width := (SLU_BINSET_WIDTH_NS 0).of set
  if (SLU_BINSET_MODE 0).of set = 0 then (SLU_BINSET_OFFSET_NS 0).of set + (k + 1) * width else width * 2 ^ k

/-- Bin of a delay sample (R335). -/
def delayBin (set : U64) (ns : Nat) : Nat := ((List.range 15).find? fun k => decide (ns ≤ binEdge set k)).getD 15

/-- Bin of a depth sample (R334). -/
def depthBin (bytes : Nat) : Nat :=
  if bytes = 0 then 0 else ((List.range 14).find? fun k => decide (bytes ≤ 2 ^ (k + 12))).elim 15 fun k => k + 1

/-- One more sample of a bin, saturating (R335); whether the bin was full. -/
def addSample (h : List Nat) (b : Nat) : List Nat × Bool :=
  let h := if h.isEmpty then List.replicate 16 0 else h
  let n := h.getD b 0
  (h.set b (min (n + 1) 0xFFFF), decide (n ≥ 0xFFFF))

/-- A flag of SLU_STATUS when a bin saturates. -/
def Dev.binFull (d : Dev) (b : Bool) : Dev := if b then d.flag SLU_STATUS_BIN_SAT SLU_STATUS_BIN_SAT_COUNT else d

/-- A delay sample of a path queue. -/
def Dev.sampleDelay (d : Dev) (q ns : Nat) : Dev :=
  let x := d.queue q
  let (h, full) := addSample x.delay (delayBin (d.binSet x.binset) ns)
  (d.modQueue q fun x => { x with delay := h, maxDelay := max x.maxDelay ns }).binFull full

/-- A depth sample of a path queue. -/
def Dev.sampleDepth (d : Dev) (q bytes : Nat) : Dev :=
  let x := d.queue q
  let (h, full) := addSample x.depth (depthBin bytes)
  (d.modQueue q fun x => { x with depth := h, maxDepth := max x.maxDepth bytes }).binFull full

/-- Nominal time of a path, ns (Table 12.2). -/
def Dev.nominal (d : Dev) (kind home : Nat) : Nat :=
  if kind = 0 then 900 + 200 * Config.hops d.id home else if kind = 1 then 1500 else 0

/-- Serialisation time of a write, ns (R333). -/
def Dev.serialNs (d : Dev) (r : Req) : Nat :=
  if !r.isWrite then 0
  else if r.home = d.id then 1
  else
    let width := (d.egress r.home).elim 8 fun q => d.getF (FAB_PORT_WIDTH q)
    ceilDiv (reqWire r) (25 * max width 1)

/-- The answer of a pool request gives its path queue a delay sample (R333). -/
def Dev.sampleAnswer (d : Dev) (r : Req) : Dev :=
  match d.extentAt r.addr with
  | none => d
  | some e =>
    let kind := pathKind e
    d.sampleDelay (4 * r.part + kind) ((d.clock.now - r.sentAt).toNat - d.nominal kind r.home - d.serialNs r)

/-- Bytes that wait at Sluice for a path queue: held by a shaper, or by credits in flits of 256 B (R334). -/
def Dev.queued (d : Dev) (q : Nat) : Nat :=
  (d.slu.shaper.map fun (e : Nat × Shaper) => (e.2.held.map fun h =>
    if (d.req h.tag).any fun r => d.pathQueue r.part r.addr == some q then h.wire else 0).sum).sum +
  (d.fab.port.map fun (e : Nat × Port) => 256 * (e.2.queue.filter fun x => x.q == some q).length).sum

/-- Path queues of the partitions present. -/
def Dev.queues (d : Dev) : List Nat := ((List.range 8).filter fun p => d.present p).flatMap fun p => (List.range 4).map fun k => 4 * p + k

/-- DEPTH_SAMPLE (R334). -/
def execDepthSample (s : State) : Res := guarded .depthSample (onDev s fun d => d.queues.foldl (fun d q => d.sampleDepth q (d.queued q)) d)

/-- The least bin whose cumulative count reaches nine tenths of the total (R336). -/
def p90Bin (h : List Nat) : Nat :=
  ((List.range 16).find? fun k => decide (ceilDiv (9 * h.sum) 10 ≤ (h.take (k + 1)).sum)).getD 15

/-- p90 of a queue whose window closes, ns (R336). -/
def PathQ.p90Of (x : PathQ) (set : U64) (need : Nat) : Nat :=
  if x.delay.sum < need ∨ x.delay.sum = 0 then x.p90
  else if p90Bin x.delay = 15 then x.maxDelay else binEdge set (p90Bin x.delay)

/-- A p90 in units of 0.1 µs, rounded up, saturating (R337). -/
def tenthsUs (ns : Nat) : Nat := min (ceilDiv ns 100) 0xFFFF

/-- A queue's bin set that SLU_QCFG_p selects. -/
def Dev.queueSet (d : Dev) (q : Nat) : Nat := d.getF ⟨SLU_QCFG (q / 4), 4 * (q % 4), 3⟩

/-- One queue's window closes (R333, R336, R337). -/
def Dev.closeWindow (d : Dev) (q : Nat) : Dev :=
  let x := d.queue q
  let p90 := x.p90Of (d.binSet x.binset) (SLU_SAMPLE_CFG_MIN_SAMPLES.of d.slu.sample)
  let next := d.queueSet q
  let d := d.modQueue q fun x =>
    { x with delay := [], depth := [], lastDelay := x.delay, lastDepth := x.depth, lastMaxDelay := x.maxDelay,
             lastMaxDepth := x.maxDepth, maxDelay := 0, maxDepth := 0, p90 := p90, lastSet := x.binset, binset := next }
  d.setF ⟨SLU_DQ (q / 4), 16 * (q % 4), 16⟩ (tenthsUs p90)

/-- SLUICE_WINDOW_CLOSE (R333): all windows close, and new settings apply (R340). -/
def execSluiceWindowClose (s : State) : Res :=
  guarded .sluiceWindowClose (onDev s fun d =>
    let d := d.queues.foldl (fun d q => d.closeWindow q) d
    { d with slu := { d.slu with sample := d.reg SLU_SAMPLE_CFG,
                                 binset := (List.range 8).map fun k => (k, d.reg (SLU_BINSET k)) } })

/-- Payload of a telemetry record of type 0x02 (Table 12.4). -/
def sluicePayload (bins : List Nat) (what p90 largest : Nat) : List Byte :=
  record ((padBins bins).map (fun n => (2, n)) ++ [(1, what), (1, 0), (2, p90), (4, min largest (2 ^ 32 - 1))])
where
  /-- Sixteen bins. -/
  padBins (bins : List Nat) : List Nat := (bins ++ List.replicate 16 0).take 16

/-- The two records of each path queue of a partition at a periodic boundary (R337). -/
def Dev.telemQueues (d : Dev) (p : Nat) (step : U64) : Dev :=
  (List.range 4).foldl (fun d k =>
    let x := d.queue (4 * p + k)
    let d := d.telem p 0x02 0x0B k step (sluicePayload x.lastDelay (k + 8 * x.lastSet) (tenthsUs x.p90) x.lastMaxDelay)
    d.telem p 0x02 0x0B k step (sluicePayload x.lastDepth (k + 4 + 8 * x.lastSet) (p90Bin x.lastDepth) x.lastMaxDepth)) d

end Sys2Proof.Machine
end

