-- ==== Sys2Proof/Machine/Requests.lean ====
section
/-! DEFINITION. Requests over DXL and the pool ports: frames opened, reads and writes served at a page's home, answers and
failures handed to what they serve (11_dxl_fabric_pool.md R296–R298, R307–R310, R312; 13_partitions_keys.md R352, R353). -/

namespace Sys2Proof.Machine

/-! ### Frames that arrive -/

/-- Partition of a frame's channel set; none for the system set (R299). -/
def Frame.part (f : Frame) : Option Nat := if f.chan < 4 then none else some (f.chan / 4 - 1)

/-- A fault of dropped frames, once per KEY_ID and step (13 R353). -/
def Dev.dropFrame (d : Dev) (f : Frame) (code : Nat) (flag cnt : Fld) (drops : Nat → Fld) : Dev :=
  let p := Frame.part f
  let d := p.elim d fun q => d.incF (drops q)
  let ix := p.elim (8 * 65536) (fun q => keyIndex q f.keyId.toNat)
  let now := (ix, code, (d.stepP (p.getD d.lead)).number)
  if d.sec.raised.contains now then d.flag flag cnt
  else
    let d := { d with sec := { d.sec with raised := now :: d.sec.raised.filter fun x => !(x.1 == ix && x.2.1 == code) } }
    (d.flag flag cnt).raiseOpen p code f.master

/-- A frame opened: dropped under a generation that is not live or with a wrong tag (13 R353). -/
def Dev.openFrame (d : Dev) (f : Frame) : Dev × Option Frame :=
  if !f.enc then (d, some f)
  else
    match d.openKey (Frame.part f) f with
    | none =>
      let d := (Frame.part f).elim d fun p => match d.key p f.keyId.toNat with
        | some k => { d with sec := { d.sec with key := tput d.sec.key (keyIndex p f.keyId.toNat) { k with late := k.late + 1 } } }
        | none => d
      (d.dropFrame f 0x0C11 SEC_STATUS_LATE_GENERATION SEC_EVENTS_LATE_COUNT SEC_DROPS_LATE_DROPS, none)
    | some key =>
      let iv := frameIv f.nonce f.src
      if Config.gcmTag key iv (frameHeader f) f.payload = f.gtag then
        (d, some { f with payload := f.payload.mapIdx fun i b => b ^^^ Config.gcmStream key iv i })
      else (d.dropFrame f 0x0C10 SEC_STATUS_TAG_MISMATCH SEC_EVENTS_TAG_COUNT SEC_DROPS_TAG_DROPS, none)

/-- A frame for another device goes on by the system route table, as it is (R296, R301). -/
def Dev.forward (d : Dev) (f : Frame) (cls : Nat) : Dev :=
  match d.egress f.dst with
  | none => d
  | some port =>
    let c := if Config.dateline d.id port then 1 else cls
    (d.emit (.frame f)).handFlits port (flitsOf none f.chan c f.dst (frameBytes f))

/-- A response: TAG returned, SRC and DST exchanged (R297). -/
def Dev.answerTo (d : Dev) (f : Frame) (type st : Byte) (payload : List Byte) : Frame :=
  { d.frame0 type (channel (f.chan / 4) 3) f.src f.tag f.addr with status := st, payload := payload }

/-- A refused request: the ERROR frame, with the current extent entry where the map was stale, and the fault record of R298. -/
def Dev.refuseFrame (d : Dev) (f : Frame) (st : Byte) (info : Option ExtentInfo) : Dev :=
  let d := if st = stExtent then d.flag FAB_STATUS_EXTENT_FENCED FAB_EVENTS_FENCED_COUNT else d
  let code := if st = stExtent then 0x0A13 else 0x0A00 + stCode st
  let addr := if f.src = d.id then f.addr else BitVec.ofNat 64 (f.src * 2 ^ 52 + f.addr.toNat % 2 ^ 52)
  let d := d.raiseAt (Frame.part f) code addr (if f.src = d.id then 2 else 3) f.master
    (0x0A00 + (if poolSpace f.addr < 5 then poolSpace f.addr else 0)) st
  (d.sendAs (Frame.part f) (d.answerTo f 0x0F st []) none fun g => .error g info).1

/-! ### The home's directory (R307, R308) -/

/-- Key of a page in the directory. -/
def dirKey (space page : Nat) : Nat := space * 2 ^ 32 + page

/-- The extent that holds a page of this home: its number and itself. -/
def Dev.extentOf (d : Dev) (space page : Nat) : Option (Nat × Extent) :=
  d.fab.extent.find? fun e => e.2.space == space && decide (e.2.base / pageBytes ≤ page ∧ page < e.2.base / pageBytes + e.2.pages)

/-- Partition number that stands for a grantee: a partition, or 8 + the number of a host window. -/
def Extent.owner (e : Extent) : Nat := e.window.elim e.part fun w => 8 + w

/-- The directory entry of a page: the grantee owns every page of an extent until a hand-over moves it (R308). -/
def Dev.dirOf (d : Dev) (space page : Nat) : DirEntry :=
  match tget d.fab.dir (dirKey space page) with
  | some x => x
  | none => (d.extentOf space page).elim {} fun e => { dev := e.2.dev, part := e.2.owner, st := .owned }

/-- The directory with a page's entry set. -/
def Dev.setDir (d : Dev) (space page : Nat) (x : DirEntry) : Dev :=
  { d with fab := { d.fab with dir := tput d.fab.dir (dirKey space page) x } }

/-- PENDING and FROZEN of FAB_DIR. -/
def Dev.showDir (d : Dev) : Dev :=
  let n := fun st => (d.fab.dir.filter fun e => e.2.st == st).length
  (d.setF FAB_DIR_PENDING (min (n .pending) 0xFFFF)).setF FAB_DIR_FROZEN (min (n .frozen) 0xFFFF)

/-- A directory state as a place of the ledger (15 Table 15.1 class 0x4). -/
def PageState.place : PageState → Nat
  | .free => 0
  | .owned => 1
  | .pending => 2
  | .frozen => 3

/-- A page's state changed, and the move counted. -/
def Dev.pageTo (d : Dev) (space page : Nat) (f : DirEntry → DirEntry) : Dev :=
  let x := d.dirOf space page
  let y := f x
  ((d.setDir space page y).move 4 space x.st.place y.st.place (if x.st = y.st then 0 else 1) none).showDir

/-- The extent entry that a home sends for one of its extents. -/
def Dev.entryOf (d : Dev) (n : Nat) (e : Extent) : ExtentInfo :=
  { handle := mkExtHandle d.id n e.gen, dev := e.dev, part := e.part, space := e.space, base := e.base, pages := e.pages,
    shared := e.shared, park := e.park, cls := e.cls, epoch := e.epoch, live := !e.fenced }

/-- A request acts for its partition, or for a host window when a host function made it (13 Table 13.2). -/
def frameOwns (f : Frame) (part : Nat) : Bool :=
  let host := decide (0x400 ≤ f.master ∧ f.master < 0x480)
  if part < 8 then !host && Frame.part f == some part else host

/-- Status of a request for one page: fenced extents first, then the epoch, the owner, POISONED (R308, R309, R313, R314). -/
def Dev.pageStatus (d : Dev) (f : Frame) (write : Bool) (space page : Nat) : Byte :=
  match d.extentOf space page with
  | none => stDenied
  | some (_, e) =>
    let x := d.dirOf space page
    if e.fenced then stExtent
    else if f.epoch.toNat < e.epoch.toNat then stStale
    else if (x.dev = f.src ∧ frameOwns f x.part) ∨ (!write ∧ e.shared ∧ f.shared) then
      if !write && x.poison then stPoison else stOk
    else stDenied

/-- Pages that a byte range touches. -/
def pagesOf (off len : Nat) : List Nat := (List.range ((off + len - 1) / pageBytes + 1 - off / pageBytes)).map fun i => off / pageBytes + i

/-- Status of a request at its home. -/
def Dev.homeStatus (d : Dev) (f : Frame) (write : Bool) (len : Nat) : Byte :=
  if len = 0 ∨ len > 65536 then stBad
  else if poolHome f.addr ≠ d.id ∨ poolSpace f.addr > 4 then stDenied
  else ((pagesOf (poolOffset f.addr) len).map fun g => d.pageStatus f write (poolSpace f.addr) g).find? (· ≠ stOk) |>.getD stOk

/-- The current entry of the extent that a request names, for a stale map. -/
def Dev.staleInfo (d : Dev) (f : Frame) (st : Byte) : Option ExtentInfo :=
  if st = stStale then (d.extentOf (poolSpace f.addr) (poolOffset f.addr / pageBytes)).map fun e => d.entryOf e.1 e.2 else none

/-! ### Reads and writes served (R297, R308, R310) -/

/-- A read at its home: data, a request to the appliance behind the pool port, a wait for FROZEN pages, or a refusal. -/
def Dev.serveRead (d : Dev) (mem : List Host.Cell) (f : Frame) : Dev :=
  let len := leAt f.payload 0 8
  let off := poolOffset f.addr
  let st := d.homeStatus f false len
  if st ≠ stOk then d.refuseFrame f st (d.staleInfo f st)
  else if (pagesOf off len).any fun g => (d.dirOf (poolSpace f.addr) g).st == .frozen then
    { d with fab := { d.fab with waiting := d.fab.waiting ++ [f] } }
  else if poolSpace f.addr = 0 then d.sendFrame (Frame.part f) (d.answerTo f 0x02 0 (memReadL mem off len))
  else d.request ((Frame.part f).getD 0) (.peer f) f.addr len none

/-- Pages that a write covers whole lose POISONED (R313). -/
def Dev.rewritten (d : Dev) (f : Frame) : Dev :=
  let off := poolOffset f.addr
  let whole := (pagesOf off f.payload.length).filter fun g => off ≤ g * pageBytes && g * pageBytes + pageBytes ≤ off + f.payload.length
  whole.foldl (fun d g =>
    if (d.dirOf (poolSpace f.addr) g).poison then d.pageTo (poolSpace f.addr) g fun x => { x with poison := false } else d) d

/-- A write at its home: the device, and the bytes that HBM takes. -/
def Dev.serveWrite (d : Dev) (f : Frame) : Dev × List (Nat × List Byte) :=
  let st := d.homeStatus f true f.payload.length
  if st ≠ stOk then (d.refuseFrame f st (d.staleInfo f st), [])
  else if poolSpace f.addr = 0 then
    ((d.rewritten f).sendFrame (Frame.part f) (d.answerTo f 0x04 0 []), [(poolOffset f.addr, f.payload)])
  else (d.request ((Frame.part f).getD 0) (.peer f) f.addr f.payload.length (some f.payload), [])

/-- Reads that waited for pages no longer FROZEN are served. -/
def Dev.serveWaiting (d : Dev) (mem : List Host.Cell) : Dev :=
  let fs := d.fab.waiting
  fs.foldl (fun d f => d.serveRead mem f) { d with fab := { d.fab with waiting := [] } }

/-- Writes to the HBM that this device lends. -/
def applyWrites (mem : List Host.Cell) (ws : List (Nat × List Byte)) : List Host.Cell :=
  ws.foldl (fun m w => memWriteL m w.1 w.2) mem

/-! ### Answers (R298, R309) -/

/-- One of the requests that a descriptor waits for has its answer: whether it was the last. -/
def Dev.countDown (d : Dev) (k : Nat) : Dev × Bool :=
  match (tget d.rng.descs k).map DescEntry.st with
  | some (.waiting (.requests n)) => (d.wait k (.requests (n - 1)), decide (n ≤ 1))
  | _ => (d, false)

/-- A history write was answered (04 R88, R94, R460; 06 R165). -/
def Dev.historyAck (d : Dev) (loc : Nat) (desc : Option Nat) (st : Byte) : Dev :=
  match desc with
  | none => if st = stOk then d else d.loseHistory loc st
  | some k =>
    match tget d.rng.descs k with
    | none => d
    | some e =>
      if e.op = 0x11 then
        if st ≠ stOk then d.appendFailed k st
        else
          let r := d.countDown k
          if r.2 then r.1.appendDone k else r.1
      else if st ≠ stOk then (d.modSes loc fun s => { s with hist := [] }).failOpen k st none
      else
        let r := d.countDown k
        if r.2 then r.1.shareDone k else r.1

/-- A read of a source's history was answered: nothing is shared when it failed (06 Table 06.7). -/
def Dev.historyRead (d : Dev) (desc : Option Nat) (st : Byte) : Dev :=
  match desc with
  | none => d
  | some k =>
    if st ≠ stOk then d.failOpen k st none
    else
      let r := d.countDown k
      if r.2 then r.1.shareWrite k else r.1

/-- One page of POOL_PAGE_WRITE or POOL_PAGE_READ is done or failed: `result` counts pages done, `detail` holds the lowest page not
done, `status` its status (Table 11.7); a page that the host read did not bring is not done either. -/
def Dev.poolAck (d : Dev) (k page : Nat) (st : Byte) : Dev :=
  let r := d.countDown k
  let d := r.1.modDesc k fun e =>
    if st = stOk then { e with result := e.result + 1 }
    else if page < e.detail.toNat then { e with detail := BitVec.ofNat 32 page, status := st } else e
  match tget d.rng.descs k with
  | none => d
  | some e =>
    if !r.2 then d
    else match e.failAt with
      | some a => if e.status = stOk then d.hostFail k a e.result e.detail else d.fail k e.status e.result e.detail
      | none => d.fail k e.status e.result e.detail

/-- A page read by POOL_PAGE_READ goes to host memory. -/
def Dev.poolReadAck (d : Dev) (k page : Nat) (res : Except Byte (List Byte)) : Dev :=
  match tget d.rng.descs k, res with
  | some e, .ok bs =>
    (d.emitFor e.part (.hostWrite e.part (BitVec.ofNat 64 (fieldAt e.d 16 8 + pageBytes * page)) bs)).poolAck k page stOk
  | some _, .error st => d.poolAck k page st
  | none, _ => d

/-- POOL_FLUSH: the acknowledgements that one waits for are in; the bits of its pages clear (R313). -/
def Dev.flushLines (d : Dev) (k : Nat) : Dev :=
  match tget d.rng.descs k with
  | none => d
  | some e =>
    match e.st with
    | .waiting (.lines w [] pages) =>
      let key := 16 * e.part + w
      let d := { d with fab := { d.fab with window := tupd d.fab.window key fun v =>
        { v with written := v.written.filter fun g => !pages.contains g || v.again.contains g } } }
      let d := if e.status = stOk then d.ok k (BitVec.ofNat 64 pages.length) 0 else d.failOpen k e.status none
      let more := d.rng.descs.any fun x => x.2.part == e.part && (match x.2.st with | .waiting (.lines v _ _) => v == w | _ => false)
      if more then d else { d with fab := { d.fab with window := tupd d.fab.window key fun v => { v with again := [] } } }
    | _ => d

/-- A host line access was answered (R312): data for the host, poison for a refused read, and the end of the flushes that waited
for a write. -/
def Dev.lineAck (d : Dev) (tag : Nat) (r : Req) (fn : HostFn) (off : Nat) (isWrite : Bool) (res : Except Byte (List Byte)) : Dev :=
  let d := match res with
    | .ok bs => if isWrite then d else d.emit (.lineData fn off (some bs))
    | .error st =>
      let d := d.raiseAt (some r.part) (0x0A00 + stCode st) r.addr 2 (HostFnMaster d fn) 0x0A00 0xFF
      if isWrite then d else d.emit (.lineData fn off none)
  if !isWrite then d
  else
    let st := match res with | .ok _ => stOk | .error st => st
    let ks := tkeys d.rng.descs fun _ e => match e.st with | .waiting (.lines _ ts _) => ts.contains tag | _ => false
    ks.foldl (fun d k =>
      let d := d.modDesc k fun e => match e.st with
        | .waiting (.lines w ts ps) => { e with st := .waiting (.lines w (ts.filter (· != tag)) ps), status := if st = stOk then e.status else st }
        | _ => e
      d.flushLines k) d

/-- Status of an answer. -/
def resStatus : Except Byte (List Byte) → Byte
  | .ok _ => stOk
  | .error st => st

/-- An answer of the appliance goes back to the device that asked (R310). -/
def Dev.peerAck (d : Dev) (f : Frame) (isWrite : Bool) (res : Except Byte (List Byte)) : Dev :=
  match res with
  | .error st => d.refuseFrame f st none
  | .ok bs =>
    if isWrite then (d.rewritten f).sendFrame (Frame.part f) (d.answerTo f 0x04 0 [])
    else d.sendFrame (Frame.part f) (d.answerTo f 0x02 0 bs)

/-- An answer reaches what its request serves: data, an acknowledgement, or a status (R298). -/
def Dev.respond (d : Dev) (tag : Nat) (res : Except Byte (List Byte)) : Dev :=
  match d.req tag with
  | none => d
  | some r =>
    let d := (match res with | .ok _ => d.sampleAnswer r | .error _ => d).endReq tag
    let st := resStatus res
    match r.purpose with
    | .tileWrite k n t => d.tileWriteAck k n t st
    | .tileRead k n t => d.tileReadAck k n t res
    | .tileMove k n t tier a => if r.isWrite then d.moveAck k n t tier a st else d.moveRead k n t res
    | .flush k n t => (d.flushAck k n t r.payload st).wakeFlushes n
    | .cacheFill n t => d.cacheAck n t res
    | .copyTile k n t => d.copyAck k n t r.isWrite res
    | .replica k n t _ => if r.isWrite then d.rebuildAck k n t st else d.rebuildRead k n t res
    | .weight n t tried => d.weightAck n t tried r.addr res
    | .parkPage loc i => d.parkAck loc i r.payload st
    | .demotePage loc i => d.demoteRead loc i res
    | .fetchPage loc i => (d.fetchAck loc i res).reviveStop loc
    | .poolWrite k i => d.poolAck k i st
    | .poolRead k i => d.poolReadAck k i res
    | .hostLine fn off w => d.lineAck tag r fn off w res
    | .extentOp k => d.failOpen k st none
    | .history loc k => if r.isWrite then d.historyAck loc k st else d.historyRead k st
    | .shard p t => d.shardAck p t r.addr st
    | .shardGap p off => d.gapAck p off r.addr res
    | .shardRead k t => d.shardReadAck k t r.addr res
    | .histRead k t => d.histAck k t r.addr res
    | .peer f => d.peerAck f r.isWrite res

/-- The tag names a request that this device's frame from `f.src` may answer. -/
def Dev.answers (d : Dev) (f : Frame) (isWrite : Bool) : Bool :=
  (d.req f.tag.toNat).any fun r => r.home == f.src && r.isWrite == isWrite && (match r.purpose with | .peer _ => false | _ => true)

/-- An extent entry of a home goes into the map (R309). -/
def Dev.noteExtent (d : Dev) (e : ExtentInfo) : Dev := { d with fab := { d.fab with map := tput d.fab.map e.handle.toNat e } }

/-- A request was refused: RETRY_STALE_MAP applies the entry and reissues it until the third refusal (R309). -/
def Dev.refusal (d : Dev) (tag : Nat) (st : Byte) (info : Option ExtentInfo) : Dev :=
  match d.req tag with
  | none => d
  | some r =>
    if st ≠ stStale then d.respond tag (.error st)
    else
      let d := info.elim d fun e => d.noteExtent e
      let n := r.refusals + 1
      let d := { d with fab := { d.fab with req := tput d.fab.req tag { r with refusals := n } } }
      if n < 3 then d.shape tag else d

/-! ### Frames by type -/

/-- A TILE frame: its tile goes into the core store slot that its ADDRESS names, when the core is the partition's (R297). -/
def Dev.serveTile (d : Dev) (f : Frame) : Dev :=
  let x := Config.tileSlot f.addr
  match Frame.part f with
  | none => d.refuseFrame f stDenied none
  | some p =>
    if x.1 < 256 && x.2 < 48 && d.corePart x.1 == some p then
      d.modCore x.1 fun c => { c with slots := tput c.slots x.2 f.payload }
    else d.refuseFrame f stDenied none

/-- A frame that reached this device, by type. TYPE values whose payload the manual does not lay out come as rows of their own
(log 37). -/
def Dev.takeFrame (d : Dev) (mem : List Host.Cell) (f : Frame) (info : Option ExtentInfo) : Dev × List (Nat × List Byte) :=
  match f.type.toNat with
  | 0x01 => (d.serveRead mem f, [])
  | 0x02 => (if d.answers f false then d.respond f.tag.toNat (.ok f.payload) else d, [])
  | 0x03 => d.serveWrite f
  | 0x04 => (if d.answers f true then d.respond f.tag.toNat (.ok []) else d, [])
  | 0x05 => (d.serveTile f, [])
  | 0x0F => (if (d.req f.tag.toNat).any fun r => r.home == f.src then d.refusal f.tag.toNat f.status info else d, [])
  | _ => (d, [])

/-- A frame that arrives: forwarded, dropped, or opened and taken. -/
def Dev.getFrame (d : Dev) (mem : List Host.Cell) (f : Frame) (cls : Nat) (info : Option ExtentInfo) : Dev × List (Nat × List Byte) :=
  if f.chan ≥ 36 then (d, [])
  else if f.dst ≠ d.id then (d.forward f cls, [])
  else
    match d.openFrame f with
    | (d, none) => (d, [])
    | (d, some g) => d.takeFrame mem g info

/-- The state after a frame of one type arrived. -/
def State.getFrame (s : State) (f : Frame) (info : Option ExtentInfo) : State :=
  let r := s.dev.getFrame s.mem f 0 info
  { s with dev := r.1, mem := applyWrites s.mem r.2 }

/-- READ (R297). -/
def execRead (f : Frame) (s : State) : Res := guarded (.read f) (.next (s.getFrame { f with type := 0x01 } none))

/-- READ_DATA (R297). -/
def execReadData (f : Frame) (s : State) : Res := guarded (.readData f) (.next (s.getFrame { f with type := 0x02 } none))

/-- WRITE (R297). -/
def execWrite (f : Frame) (s : State) : Res := guarded (.write f) (.next (s.getFrame { f with type := 0x03 } none))

/-- WRITE_ACK (R297). -/
def execWriteAck (f : Frame) (s : State) : Res := guarded (.writeAck f) (.next (s.getFrame { f with type := 0x04 } none))

/-- TILE (R297). -/
def execTile (f : Frame) (s : State) : Res := guarded (.tile f) (.next (s.getFrame { f with type := 0x05 } none))

/-- CXL_MEM_RESPONSE (R310): poisoned data answer POISONED_DATA. -/
def execCxlMemResponse (tag : U32) (poison : Bool) (data : List Byte) (s : State) : Res :=
  guarded (.cxlMemResponse tag poison data) (onDev s fun d =>
    match (d.req tag.toNat).map Req.purpose with
    | some (.peer _) => d.respond tag.toNat (if poison then .error stPoison else .ok data)
    | _ => d)

/-- STALE_MAP_RETRY_LIMIT (R309): the third refusal of one request. -/
def execStaleMapRetryLimit (tag : U32) (s : State) : Res :=
  guarded (.staleMapRetryLimit tag) (onDev s fun d =>
    if (d.req tag.toNat).any fun r => decide (r.refusals ≥ 3) then d.respond tag.toNat (.error stStale) else d)

/-- NONCE_THRESHOLD (13 R352): at 2³⁸ NONCE_LOW once; at 2⁴⁰ − 1 NONCE_EXHAUSTED, and what could not be sent completes. -/
def execNonceThreshold (p : Nat) (keyId gen : U16) (s : State) : Res :=
  guarded (.nonceThreshold p keyId gen) (onDev s fun d =>
    let part := if keyId = 0 then none else some p
    let ix := nonceIndex (chanSet part) keyId.toNat gen.toNat
    let n := tgetD d.fab.nonce ix 0
    if n ≥ nonceLimit then
      let d := (d.flag SEC_STATUS_NONCE_EXHAUSTED SEC_EVENTS_NONCE_EX_COUNT).raiseOpen part 0x0C14 0x106
      let stuck := tkeys d.fab.req fun _ r => r.stuck && (part.isNone || part == some r.part)
      stuck.foldl (fun d t => d.respond t (.error stTenant)) d
    else if n ≥ 2 ^ 38 && !d.fab.nonceLow.contains ix then
      let d := { d with fab := { d.fab with nonceLow := ix :: d.fab.nonceLow } }
      d.raiseOpen part 0x0C13 0x106
    else d)

end Sys2Proof.Machine
end

