-- ==== Sys2Proof/Machine/Ports.lean ====
section
/-! DEFINITION. DXL ports: flits received, acknowledged and repeated, credits granted, training, retraining and failure
(11_dxl_fabric_pool.md R293–R304). -/

namespace Sys2Proof.Machine

/-! ### Credits (R300) -/

/-- Weight of a partition's share of a port's buffer: the slice map's, where the port is the partition's. -/
def Dev.portWeight (d : Dev) (port p : Nat) : Nat :=
  if d.present p && (d.getF (SEC_PART_PORT_MASK p)).testBit port then
    ((d.flash.map.bind fun m => m.parts.find? fun x => x.p == p).map fun x => x.weight).getD 1
  else 0

/-- Shares of DATA, REQ and RSP within a partition set on a port: the active image's route over the port, or equal ones. -/
def Dev.routeShares (d : Dev) (p port : Nat) : Nat × Nat × Nat :=
  match (d.activeJob p).bind fun j => j.sect with
  | none => (1, 1, 1)
  | some c =>
    match c.routes.find? fun r => some r.src == d.position c && r.ports.getLsbD port with
    | some r => if r.data + r.req + r.rsp = 0 then (1, 1, 1) else (r.data, r.req, r.rsp)
    | none => (1, 1, 1)

/-- Cells that a receiver grants a channel of a port. -/
def Dev.cells (d : Dev) (port chan : Nat) : Nat :=
  let vc := chan % 4
  if chan < 4 then (if vc = 0 then 512 else if vc = 3 then 1536 else 1024)
  else
    let p := chan / 4 - 1
    let total := ((List.range 8).map fun q => d.portWeight port q).sum
    let all := if total = 0 then 0 else 28672 * d.portWeight port p / total
    if all ≤ 128 then (if vc = 0 then all else 0)
    else if vc = 0 then 128
    else
      let (a, b, c) := d.routeShares p port
      (all - 128) * (if vc = 1 then a else if vc = 2 then b else c) / (a + b + c)

/-- A channel's credits granted anew, half for each buffer class, and counted (15 R389). -/
def Dev.regrant (d : Dev) (port chan : Nat) : Dev :=
  let g := d.cells port chan / 2
  let x := d.port port
  let d := d.setPort port { x with credits := tput (tput x.credits (chanKey chan 0) g) (chanKey chan 1) g }
  (d.endLed 3 (36 * port + chan)).move 3 (36 * port + chan) outside 0 (2 * g) (chanPart chan)

/-- Channels of a port whose set is the system's or a present partition's. -/
def Dev.channels (d : Dev) : List Nat := (List.range 36).filter fun c => c < 4 || d.present (c / 4 - 1)

/-! ### Acknowledgements (R303) -/

/-- Flits after an acknowledged SEQ; all of them when none has it. -/
def afterSeq (a : BitVec 12) (l : List (BitVec 12 × TxFlit)) : List (BitVec 12 × TxFlit) :=
  if l.any fun x => x.1 == a then ((l.dropWhile fun x => x.1 != a).drop 1) else l

/-- An ACK frees the replay buffer. -/
def Dev.gotAck (d : Dev) (n : Nat) (a : BitVec 12) : Dev :=
  let x := d.port n
  (d.setPort n { x with replay := afterSeq a x.replay }).pump n

/-- An IDLE flit that acknowledges what has arrived and returns cells of a channel. -/
def Dev.sendIdle (d : Dev) (n chan cls cells : Nat) : Dev :=
  let x := d.port n
  (d.setPort n { x with unacked := 0 }).emit (.flit n (mkFlit 0 0 x.rxSeq 0 0 false chan cls cells []))

/-- A NAK that names the first SEQ that the receiver needs. -/
def Dev.sendNak (d : Dev) (n : Nat) : Dev :=
  let x := d.port n
  d.emit (.flit n (mkFlit 2 (x.rxSeq + 1) x.rxSeq 0 0 false 0 0 0 []))

/-! ### Flits received (R295, R303) -/

/-- TYPE of a flit. -/
def flitType (b : List Byte) : Nat := leAt b 0 2 / 4096

/-- The flit's CRC is right, and no CRC error is injected at the port (15 Table 15.11). -/
def Dev.flitGood (d : Dev) (n : Nat) (b : List Byte) : Bool :=
  leAt b 248 8 == (crc64 (b.take 248)).toNat && !d.ldg.crcPorts.contains n

/-- ACK and credits that a good flit carries. -/
def Dev.flitLink (d : Dev) (n : Nat) (b : List Byte) : Dev :=
  let ch := leAt b 4 4
  let d := d.gotAck n (BitVec.ofNat 12 (leAt b 2 2))
  if ch / 65536 = 0 then d else d.returnCredits n (bitsOf ch 8 6) (bitsOf ch 14 1) (ch / 65536)

/-- Bytes that the frame at the start of a byte list needs. -/
def frameNeed (bs : List Byte) : Nat := 48 + leAt bs 4 4 + (if leAt bs 2 2 % 2 = 1 then 16 else 0)

/-- The frame bytes of a flit join their channel's frame; a whole frame is delivered and its cells are returned. -/
def Dev.assemble (d : Dev) (mem : List Host.Cell) (n : Nat) (b : List Byte) : Dev × List (Nat × List Byte) :=
  let ch := leAt b 4 4
  let chan := ch % 64
  let cls := bitsOf ch 6 1
  let k := chanKey chan cls
  let x := d.port n
  let old := if ch.testBit 7 then ([], 0) else tgetD x.asm k ([], 0)
  let bs := old.1 ++ (b.drop 8).take 240
  let used := old.2 + 1
  if bs.length < frameNeed bs then (d.setPort n { x with asm := tput x.asm k (bs, used) }, [])
  else
    let d := (d.setPort n { x with asm := tdel x.asm k }).sendIdle n chan cls used
    let role := d.getF (FAB_PORT_ROLE n)
    match frameOfBytes bs with
    | some f => d.getFrame mem f (if role = 2 ∨ role = 3 then 0 else cls) none
    | none => (d, [])

/-- A flit with a wrong CRC is discarded and a NAK sent; an injected error is used up. -/
def Dev.badFlit (d : Dev) (n : Nat) : Dev :=
  ({ d with ldg := { d.ldg with crcPorts := d.ldg.crcPorts.filter (· != n) } }).sendNak n

/-- A DATA flit: one out of order is discarded (R303). An ACK goes out after 64. -/
def Dev.gotFlit (d : Dev) (mem : List Host.Cell) (n : Nat) (bits : BitVec 2048) : Dev × List (Nat × List Byte) :=
  let b := leBytes 256 bits.toNat
  let x := d.port n
  let seq : BitVec 12 := BitVec.ofNat 12 (leAt b 0 2)
  if !d.portUp n then (d, [])
  else if !d.flitGood n b then (d.badFlit n, [])
  else if flitType b ≠ 1 ∨ seq ≠ x.rxSeq + 1 then (d, [])
  else
    let d := (d.setPort n { x with rxSeq := seq, unacked := x.unacked + 1 }).flitLink n b
    let d := if (d.port n).unacked ≥ 64 then d.sendIdle n 0 0 0 else d
    d.assemble mem n b

/-- DATA_FLIT (R303). -/
def execDataFlit (port : Nat) (flit : BitVec 2048) (s : State) : Res :=
  guarded (.dataFlit port flit) (
    let r := s.dev.gotFlit s.mem port flit
    .next { s with dev := r.1, mem := applyWrites s.mem r.2 })

/-- IDLE_FLIT (R295): its ACK and credits. -/
def execIdleFlit (port : Nat) (flit : BitVec 2048) (s : State) : Res :=
  guarded (.idleFlit port flit) (onDev s fun d =>
    let b := leBytes 256 flit.toNat
    if !d.portUp port then d
    else if !d.flitGood port b then d.badFlit port
    else if flitType b ≠ 0 then d
    else d.flitLink port b)

/-- Flits resent from a SEQ (R303). -/
def Dev.replayFrom (d : Dev) (n : Nat) (l : List (BitVec 12 × TxFlit)) : Dev :=
  let x := d.port n
  (d.emits (l.map fun f => .flit n (f.2.bits f.1 x.rxSeq))).addF (FAB_PORT_CNT_REPLAYED n) l.length

/-- NAK (R303): everything from the SEQ named is resent; what came before it has arrived. -/
def execNak (port : Nat) (seq : BitVec 12) (s : State) : Res :=
  guarded (.nak port seq) (onDev s fun d =>
    let x := d.port port
    if d.portUp port then
      let rest := if x.replay.any (fun f => f.1 == seq) then x.replay.dropWhile (fun f => f.1 != seq) else x.replay
      let run := if x.nakSeq = seq ∧ x.nakRun > 0 then x.nakRun + 1 else 1
      ((d.setPort port { x with replay := rest, nakSeq := seq, nakRun := run }).replayFrom port rest).pump port
    else d)

/-- ACK_TIMER (R303): 0.2 µs after a flit. -/
def execAckTimer (port : Nat) (s : State) : Res :=
  guarded (.ackTimer port) (onDev s fun d => if d.portUp port && (d.port port).unacked > 0 then d.sendIdle port 0 0 0 else d)

/-! ### Training and failure (R294, R303, R304) -/

/-- PORT_RETRAIN_START (R303): eight NAKs of the same SEQ; the port holds its flits. -/
def execPortRetrainStart (port : Nat) (s : State) : Res :=
  guarded (.portRetrainStart port) (onDev s fun d =>
    let x := d.port port
    if d.portUp port && x.nakRun ≥ 8 then
      ((d.setPort port { x with nakRun := 0 }).setF (FAB_PORT_STATE port) 4).incF (FAB_PORT_CNT_RETRAINS port)
    else d)

/-- Unacknowledged flits of a FAILED port go on by another UP port of their group, in their order (R304). -/
def Dev.reroute (d : Dev) (n : Nat) : Dev :=
  let x := d.port n
  let d := d.setPort n { x with replay := [], queue := [], asm := [] }
  (x.replay.map (fun f => f.2) ++ x.queue).foldl (fun d f =>
    match d.egress f.dst with
    | some q => d.handFlits q [f]
    | none => d) d

/-- A retrain failed: the third within 1 s makes the port FAILED. -/
def Dev.retrainFailed (d : Dev) (n : Nat) : Dev :=
  let x := d.port n
  let late := x.failures.filter fun t => decide (d.clock.now.toNat < t.toNat + 1000000000)
  let d := d.setPort n { x with failures := d.clock.now :: late }
  if late.length < 2 then d
  else
    let d := (d.setF (FAB_PORT_STATE n) 5).incF (FAB_PORT_CNT_DOWN_EVENTS n)
    let d := (d.flag FAB_STATUS_PORT_FAILED FAB_EVENTS_PORT_FAILED_COUNT).raise none 0x0A10 (BitVec.ofNat 64 n) 2 (0x200 + 16 * (n / 8))
    d.reroute n

/-- PORT_RETRAIN_DONE (R303). -/
def execPortRetrainDone (port : Nat) (ok : Bool) (s : State) : Res :=
  guarded (.portRetrainDone port ok) (onDev s fun d =>
    if d.getF (FAB_PORT_STATE port) ≠ 4 then d
    else if ok then
      let d := d.setF (FAB_PORT_STATE port) 3
      (d.replayFrom port (d.port port).replay).pump port
    else d.retrainFailed port)

/-- Width of the lowest good pairs that give the widest of ×8, ×4 and ×2. -/
def trainedWidth (pairs : BitVec 4) : Nat :=
  let n := ((List.range 4).filter fun i => pairs.getLsbD i).length
  if n = 4 then 8 else if n ≥ 2 then 4 else if n = 1 then 2 else 0

/-- Lane pairs of a port that the fuse-map overlay marks (15 Table 15.8). -/
def Dev.markedPairs (d : Dev) (port : Nat) : BitVec 4 :=
  (List.range 4).foldl (fun (m : BitVec 4) i =>
    if d.flash.overlay.any fun x => x.kind == 2 && x.unit == 4 * port + i then m ||| BitVec.ofNat 4 (2 ^ i) else m) 0

/-- PORT_TRAINING_DONE (R294): a peer of another FAMILY, or no good pair, leaves the port DOWN. Ports of absent L-dies do not exist
(R293). -/
def execPortTrainingDone (port : Nat) (r : Training) (s : State) : Res :=
  guarded (.portTrainingDone port r) (onDev s fun d =>
    if port / 8 ≥ d.getF GLB_ASSEMBLY_L_DIES ∨ d.portUp port then d
    else
      let pairs := r.pairs &&& ~~~(d.markedPairs port)
      let w := if r.family = 0x07 then trainedWidth pairs else 0
      let d := (d.setF (FAB_PORT_PAIRS port) pairs.toNat).setF (FAB_PORT_WIDTH port) w
      if w = 0 then
        let d := (d.setF (FAB_PORT_STATE port) 1).incF (FAB_PORT_CNT_DOWN_EVENTS port)
        if r.family = 0x07 then d else d.raise none 0x0A12 (BitVec.ofNat 64 port) 2 (0x200 + 16 * (port / 8))
      else
        let d := ((d.setF (FAB_PORT_PEER_DEVICE port) r.peerDev).setF (FAB_PORT_PEER_PORT port) r.peerPort).setF (FAB_PORT_STATE port) 3
        let d := d.setPort port { delay := r.delay }
        d.channels.foldl (fun d c => d.regrant port c) d)

end Sys2Proof.Machine
end

