-- ==== Sys2Proof/Machine/Pool.lean ====
section
/-! DEFINITION. The memory pool: extents granted, returned and revoked at their home, host windows, pool pages, poison, and the
opcodes and rows for them (11_dxl_fabric_pool.md R307–R314, R320, R321). -/

namespace Sys2Proof.Machine

/-! ### Free pages of a home (R307, R310) -/

/-- Ranges of pages that a space has: lent HBM, or the capacity that an appliance added. -/
def Dev.spaceRanges (d : Dev) (space : Nat) : List (Nat × Nat) :=
  if space = 0 then [(0, d.getF FAB_LEND_LENT_FRAMES)]
  else (d.fab.added.filter fun x => x.1 == space).map fun x => x.2

/-- Latency class of a page for a device (R306, R310). -/
def Dev.pageClass (d : Dev) (dev space page : Nat) : Nat :=
  if space = 0 then (if Config.hops dev d.id > d.getF FAB_POOL_CFG_HOP_LIMIT then 1 else 0)
  else if Config.cdatSlow d.id space page then 1 else 0

/-- CLASS of EXTENT_REQUEST admits a latency class (Table 11.6). -/
def classOk (want cls : Nat) : Bool := want == 0 || (want == 1 && cls == 0) || (want == 2 && cls == 1)

/-- Extents of a space as first page and number of pages. -/
def Dev.spaceExtents (d : Dev) (space : Nat) : List (Nat × Nat) :=
  (d.fab.extent.filter fun (e : Nat × Extent) => e.2.space == space).map fun (e : Nat × Extent) => (e.2.base / pageBytes, e.2.pages)

/-- First page of the lowest run of free pages that an extent fits in. -/
def Dev.findRun (d : Dev) (dev space pages want : Nat) : Option Nat :=
  let used := d.spaceExtents space
  let gone := if space = 0 then d.fab.retired else []
  let starts := (d.spaceRanges space).map (fun r => r.1) ++ used.map (fun u => u.1 + u.2) ++ gone.map (· + 1)
  let fits := fun b => (d.spaceRanges space).any (fun r => decide (r.1 ≤ b ∧ b + pages ≤ r.1 + r.2)) &&
    used.all (fun u => decide (b + pages ≤ u.1 ∨ u.1 + u.2 ≤ b)) && gone.all (fun g => decide (g < b ∨ b + pages ≤ g)) &&
    classOk want (d.pageClass dev space b)
  (starts.filter fits).foldl (fun (a : Option Nat) b => some (a.elim b fun x => min x b)) none

/-- FREE_FRAMES of FAB_LEND. -/
def Dev.showLend (d : Dev) : Dev :=
  d.setF FAB_LEND_FREE_FRAMES (d.getF FAB_LEND_LENT_FRAMES - ((d.spaceExtents 0).map fun u => u.2).sum - d.fab.retired.length)

/-- The home's map epoch raised (R309). -/
def Dev.raiseEpoch (d : Dev) : Dev :=
  let e := d.fab.epoch + 1
  { d with fab := { d.fab with epoch := e } }.setF FAB_DIR_EPOCH e.toNat

/-- Devices with a stake in an extent: its grantee and the owners of its pages. -/
def Dev.extentDevices (d : Dev) (e : Extent) : List Nat :=
  let own := d.fab.dir.filter fun (x : Nat × DirEntry) =>
    x.1 / 2 ^ 32 == e.space && decide (e.base / pageBytes ≤ x.1 % 2 ^ 32 ∧ x.1 % 2 ^ 32 < e.base / pageBytes + e.pages)
  (e.dev :: own.map fun (x : Nat × DirEntry) => x.2.dev).eraseDups

/-- The entry of an extent sent to every device that has a stake in it; this device notes it itself. -/
def Dev.sendMaps (d : Dev) (e : Extent) (x : ExtentInfo) : Dev :=
  (d.extentDevices e).foldl (fun d dev => if dev = d.id then d.noteExtent x else d.emit (.ctrl dev (.mapUpdate x))) d

/-! ### Grants (R308) -/

/-- An extent granted: every page zeroed, the epoch raised, the entry sent. Number, generation and latency class. -/
def Dev.grant (d : Dev) (dev part space pages want : Nat) (shared park : Bool) (window : Option Nat) : Except Byte (Dev × U64 × Nat) :=
  if !(d.spaceRanges space).any (fun r => classOk want (d.pageClass dev space r.1)) && want ≠ 0 then .error stWrong
  else
    match d.findRun dev space pages want, d.fab.numbers.take 0 (2 ^ 24) with
    | some b, some (n, ns) =>
      let gen := nextGen (tgetD d.fab.gens n 0) (2 ^ 28 - 1)
      let d := d.raiseEpoch
      let cls := d.pageClass dev space b
      let e : Extent := { gen := gen, dev := dev, part := part, window := window, space := space, base := b * pageBytes,
                          pages := pages, shared := shared, park := park, cls := cls, epoch := d.fab.epoch }
      let d := { d with fab := { d.fab with extent := tput d.fab.extent n e, numbers := ns, gens := tput d.fab.gens n gen } }
      let d := if space = 0 then d else d.emit (.cxlZero (poolAddr d.id space e.base) (pages * pageBytes))
      let d := (d.move 4 space 0 1 pages none).sendMaps e (d.entryOf n e)
      .ok (d.showLend, mkExtHandle d.id n gen, cls)
    | _, _ => .error stLimit

/-- A window of a partition maps an extent. -/
def Dev.mapWindow (d : Dev) (p w : Nat) (h : U64) : Dev :=
  { d with fab := { d.fab with window := tput d.fab.window (16 * p + w) { extent := h } } }

/-- Ranges of Table 11.6. -/
def chkExtentRequest (_ : Dev) (_ : Nat) (x : Desc) : Byte :=
  let fl := fieldAt x 19 1
  if fieldAt x 18 1 > 4 ∨ fl ≥ 8 ∨ fieldAt x 20 4 = 0 ∨ fieldAt x 20 4 > 2 ^ 24 ∨ fieldAt x 24 1 > 2 ∨ fieldAt x 25 1 > 15 ∨
      (!fl.testBit 1 ∧ fieldAt x 25 1 ≠ 0) then stBad else stOk

/-- A request to another home: recorded under a TAG, answered by a MAP_UPDATE or an ERROR (log 38). -/
def Dev.askHome (d : Dev) (k p : Nat) (h : U64) (w : Wait) (m : Nat → Ctrl) : Dev :=
  let tag := d.fab.tag
  let r : Req := { purpose := .extentOp k, addr := h, len := 0, isWrite := false, home := poolHome h, sentAt := d.clock.now, part := p }
  let d := { d with fab := { d.fab with req := tput d.fab.req tag r, tag := (tag + 1) % 2 ^ 32 } }
  (d.emit (.ctrl (poolHome h) (m tag))).wait k w

/-- EXTENT_REQUEST's effect. -/
def doExtentRequest (d : Dev) (k : Nat) (e : DescEntry) : Dev :=
  let x := e.d
  let home := fieldAt x 16 2 % 4096
  let space := fieldAt x 18 1
  let fl := fieldAt x 19 1
  let w := if fl.testBit 1 then some (fieldAt x 25 1) else none
  if w.any fun w => (tget d.fab.window (16 * e.part + w)).isSome then d.refuse k stLimit
  else if home = d.id then
    match d.grant d.id e.part space (fieldAt x 20 4) (fieldAt x 24 1) (fl.testBit 0) (fl.testBit 2) w with
    | .error st => d.refuse k st
    | .ok (d, h, cls) => (w.elim d fun w => d.mapWindow e.part w h).ok k h (BitVec.ofNat 32 cls)
  else
    d.askHome k e.part (poolAddr home space 0) (.extent 0) fun tag =>
      .extentRequest e.part space (fieldAt x 20 4) (fieldAt x 24 1) (fl.testBit 0) (fl.testBit 2) w tag

/-- A row that may change the extents of this home: pages of lent HBM are zeroed as they enter and leave an extent (R308, R314 F5),
and reads that FROZEN pages held look again. -/
def State.onHome (s : State) (f : Dev → Dev) : State :=
  let d := f s.dev
  let only := fun (a b : Tbl Extent) => a.filter fun (e : Nat × Extent) =>
    e.2.space == 0 && (tget b e.1).all fun y => y.gen != e.2.gen
  let zs := only s.dev.fab.extent d.fab.extent ++ only d.fab.extent s.dev.fab.extent
  let mem := zs.foldl (fun m (e : Nat × Extent) => memZero m e.2.base (e.2.pages * pageBytes)) s.mem
  { s with dev := d.serveWaiting mem, mem := mem }

/-- EXTENT_REQUEST (R308). -/
def execExtentRequest (ring : Nat) (x : Desc) (s : State) : Res :=
  guarded (.extentRequest ring x) (.next (s.onHome fun d => d.runOp 0x70 ring x chkExtentRequest doExtentRequest))

/-! ### Extents that end (R309, R314, R321) -/

/-- Directory entries of an extent's pages. -/
def Dev.dirIn (d : Dev) (e : Extent) : Tbl DirEntry :=
  d.fab.dir.filter fun (x : Nat × DirEntry) =>
    x.1 / 2 ^ 32 == e.space && decide (e.base / pageBytes ≤ x.1 % 2 ^ 32 ∧ x.1 % 2 ^ 32 < e.base / pageBytes + e.pages)

/-- Pages that two ranges share. -/
def overlap (a b : Nat × Nat) : Nat := min (a.1 + a.2) (b.1 + b.2) - max a.1 b.1

/-- An extent's pages zeroed and free again, its number given back, its entry gone from every map (F5). -/
def Dev.freeExtent (d : Dev) (n : Nat) (e : Extent) : Dev :=
  let ds := d.dirIn e
  let num := fun st => (ds.filter fun x => x.2.st == st).length
  let gone := { d.entryOf n e with pages := 0, live := false }
  let d := d.sendMaps e gone
  let d := { d with fab := { d.fab with extent := tdel d.fab.extent n, numbers := d.fab.numbers.give n,
                                        dir := d.fab.dir.filter fun x => !ds.any fun y => y.1 == x.1,
                                        map := tdel d.fab.map gone.handle.toNat, taken := tdel d.fab.taken gone.handle.toNat,
                                        window := d.fab.window.filter fun x => x.2.extent != gone.handle } }
  let d := ((d.move 4 e.space 2 0 (num .pending) none).move 4 e.space 3 0 (num .frozen) none).move 4 e.space 1 0
    (e.pages - num .pending - num .frozen) none
  let kept := ((d.spaceRanges e.space).map fun r => overlap (e.base / pageBytes, e.pages) r).sum
  let d := d.move 4 e.space 0 outside (e.pages - kept) none
  let d := if e.space = 0 then d else d.emit (.cxlZero (poolAddr d.id e.space e.base) (e.pages * pageBytes))
  d.showDir.showLend

/-- EXTENT_RETURN's effect: refused while a page is another's, PENDING, FROZEN, or in use by a region or session. -/
def doExtentReturn (d : Dev) (k : Nat) (e : DescEntry) : Dev :=
  let h := e.d.target
  if !(d.takenPages h).isEmpty then d.refuse k stWrong
  else if hExtHome h ≠ d.id then d.askHome k e.part h (.extent h) fun tag => .extentReturn h tag
  else
    match tget d.fab.extent (hExtNum h) with
    | none => d.refuse k stNoSession
    | some x =>
      if (d.dirIn x).any fun y => y.2.st != .owned || y.2.dev != x.dev || y.2.part != x.owner then d.refuse k stWrong
      else (d.raiseEpoch.freeExtent (hExtNum h) x).ok k 0 (BitVec.ofNat 32 x.pages)

/-- EXTENT_RETURN (R321). -/
def execExtentReturn (ring : Nat) (x : Desc) (s : State) : Res :=
  guarded (.extentReturn ring x) (.next (s.onHome fun d =>
    d.runOp 0x71 ring x (fun d p x => d.extentStatus p x.target) doExtentReturn))

/-- A device fails its own requests on an extent, keeps the outcome in its T1 copies, and its window of it ends (F4, 05 R133). -/
def Dev.failExtent (d : Dev) (h : U64) : Dev :=
  let ts := tkeys d.fab.req fun _ r => (match r.purpose with | .peer _ => false | _ => true) &&
    (d.extentAt r.addr).any fun e => e.handle == h
  let d := ts.foldl (fun d t => d.respond t (.error stExtent)) d
  let mark := fun (r : Region) => if r.extent = h then
    { r with tile := r.tile.map fun (t : Nat × Tile) => (t.1, if t.2.cache.isSome then { t.2 with bad := stExtent } else t.2) } else r
  { d with tier := { d.tier with region := d.tier.region.map fun (r : Nat × Region) => (r.1, mark r.2) },
           fab := { d.fab with map := tupd d.fab.map h.toNat fun e => { e with live := false } } }

/-- A hand-over named by a page, as a DIR message with a status. -/
def Hand.msg (h : Hand) (pages : List U64) (outcome : Nat) : DirMsg :=
  { txn := h.txn, src := h.src, srcPart := h.srcPart, dst := h.dst, dstPart := h.dstPart, anchor := h.anchor, pages := pages,
    deadline := h.deadline, outcome := outcome, handle := 0 }

/-- Hand-overs of an extent's PENDING and FROZEN pages end with EXTENT_REVOKED (R314). -/
def Dev.endHands (d : Dev) (e : Extent) : Dev :=
  let hs := ((d.dirIn e).filterMap fun (x : Nat × DirEntry) => x.2.hand).eraseDups
  hs.foldl (fun d h =>
    let m := h.msg [] stExtent.toNat
    (d.emit (.ctrl h.src (.abort m))).emit (.ctrl h.dst (.abort m))) d

/-- Every acknowledgement is in, or their time is over: F5 and F6. -/
def Dev.endRevoke (d : Dev) (h : U64) : Dev :=
  match tget d.fab.revoke h.toNat, tget d.fab.extent (hExtNum h) with
  | some r, some e =>
    let d := { d with fab := { d.fab with revoke := tdel d.fab.revoke h.toNat } }
    let d := d.freeExtent (hExtNum h) e
    r.descs.foldl (fun d k => d.ok k (BitVec.ofNat 64 r.acked) (BitVec.ofNat 32 r.waiting.length)) d
  | _, _ => d

/-- Revocation of an extent of this home (Table 11.4): fenced, epoch raised, REVOKE sent; this device answers itself. -/
def Dev.revoke (d : Dev) (n : Nat) (e : Extent) (desc : Option Nat) : Dev :=
  let h := mkExtHandle d.id n e.gen
  match tget d.fab.revoke h.toNat with
  | some r => { d with fab := { d.fab with revoke := tput d.fab.revoke h.toNat { r with descs := r.descs ++ desc.toList } } }
  | none =>
    let d := d.raiseEpoch
    let e := { e with fenced := true, epoch := d.fab.epoch }
    let d := { d with fab := { d.fab with extent := tput d.fab.extent n e } }
    let devs := d.extentDevices e
    let far := devs.filter (· != d.id)
    let r : Revoking := { descs := desc.toList, waiting := far, acked := if devs.contains d.id then 1 else 0 }
    let d := { d with fab := { d.fab with revoke := tput d.fab.revoke h.toNat r } }
    let d := far.foldl (fun d dev => (d.emit (.ctrl dev (.revoke h))).emit (.ctrl dev (.mapUpdate (d.entryOf n e)))) d
    let d := (d.endHands e).failExtent h
    if far.isEmpty then d.endRevoke h else d

/-- EXTENT_REVOKE (R314): on the admin ring of the extent's home. -/
def execExtentRevoke (ring : Nat) (x : Desc) (s : State) : Res :=
  guarded (.extentRevoke ring x) (.next (s.onHome fun d =>
    d.runOp 0x72 ring x
      (fun d _ x => if hExtHome x.target ≠ d.id then stDenied
        else match tget d.fab.extent (hExtNum x.target) with
          | some e => if e.gen = hExtGen x.target then stOk else stNoSession
          | none => stNoSession)
      fun d k e => match tget d.fab.extent (hExtNum e.d.target) with
        | some y => (d.wait k (.extent e.d.target)).revoke (hExtNum e.d.target) y (some k)
        | none => d))

/-- REVOKE (R314): the device fails its requests on the extent and answers. -/
def execRevoke (home : Nat) (extent : U64) (s : State) : Res :=
  guarded (.revoke home extent) (onDev s fun d =>
    if hExtHome extent = home then (d.failExtent extent).emit (.ctrl home (.revokeAck extent)) else d)

/-- REVOKE_ACK (R314). -/
def execRevokeAck (dev : Nat) (extent : U64) (s : State) : Res :=
  guarded (.revokeAck dev extent) (.next (s.onHome fun d =>
    match tget d.fab.revoke extent.toNat with
    | none => d
    | some r =>
      if r.waiting.contains dev then
        let y := { r with waiting := r.waiting.filter (· != dev), acked := r.acked + 1 }
        let d := { d with fab := { d.fab with revoke := tput d.fab.revoke extent.toNat y } }
        if y.waiting.isEmpty then d.endRevoke extent else d
      else d))

/-- REVOKE_ACK_TIMEOUT (R314): after 10 ms the home proceeds without the acknowledgements. -/
def execRevokeAckTimeout (extent : U64) (s : State) : Res :=
  guarded (.revokeAckTimeout extent) (.next (s.onHome fun d => d.endRevoke extent))

/-! ### Maps (R309) -/

/-- A waiting EXTENT_REQUEST that a new entry of its home answers. -/
def Dev.grantedTo (d : Dev) (home : Nat) (e : ExtentInfo) : Option Nat :=
  if e.dev ≠ d.id ∨ !e.live ∨ (d.extentInfo e.handle).isSome then none
  else (d.rng.descs.find? fun (x : Nat × DescEntry) =>
    x.2.op == 0x70 && x.2.st == .waiting (.extent 0) && x.2.part == e.part && fieldAt x.2.d 16 2 % 4096 == home &&
    fieldAt x.2.d 18 1 == e.space && fieldAt x.2.d 20 4 == e.pages).map fun (x : Nat × DescEntry) => x.1

/-- The request that an extent opcode of this device sent is answered. -/
def Dev.endAsk (d : Dev) (k : Nat) : Dev :=
  { d with fab := { d.fab with req := d.fab.req.filter fun x => x.2.purpose != .extentOp k } }

/-- MAP_UPDATE (R309): an entry without pages is gone. An EXTENT_REQUEST or EXTENT_RETURN that waits for the home completes (log 38). -/
def execMapUpdate (home : Nat) (e : ExtentInfo) (s : State) : Res :=
  guarded (.mapUpdate home e) (onDev s fun d =>
    if hExtHome e.handle ≠ home then d
    else if e.pages = 0 then
      let n := ((d.extentInfo e.handle).map fun x => x.pages).getD 0
      let d := { d with fab := { d.fab with map := tdel d.fab.map e.handle.toNat, taken := tdel d.fab.taken e.handle.toNat,
                                            window := d.fab.window.filter fun x => x.2.extent != e.handle } }
      (tkeys d.rng.descs fun _ x => x.op == 0x71 && x.st == .waiting (.extent e.handle)).foldl
        (fun d k => (d.endAsk k).ok k 0 (BitVec.ofNat 32 n)) d
    else
      let k := d.grantedTo home e
      let d := d.noteExtent e
      match k.bind fun k => (tget d.rng.descs k).map fun x => (k, x) with
      | none => d
      | some (k, x) =>
        let d := if (fieldAt x.d 19 1).testBit 1 then d.mapWindow e.part (fieldAt x.d 25 1) e.handle else d
        (d.endAsk k).ok k e.handle (BitVec.ofNat 32 e.cls))

/-! ### Pool pages (R313, R321) -/

/-- Alignment and COUNT of Table 11.6. -/
def chkPoolPage (_ : Dev) (_ : Nat) (x : Desc) : Byte :=
  if fieldAt x 16 8 % 4096 ≠ 0 ∨ fieldAt x 24 8 % pageBytes ≠ 0 ∨ fieldAt x 32 4 = 0 ∨ fieldAt x 32 4 > 1024 then stBad else stOk

/-- Requests for the pages of POOL_PAGE_WRITE (with their bytes) or POOL_PAGE_READ; where the host read failed, for the pages read before
that (03 R457). -/
def Dev.poolPages (d : Dev) (k : Nat) (e : DescEntry) (bytes : Option (List Byte)) : Dev :=
  let n := if e.failAt.isSome then min (fieldAt e.d 32 4) ((bytes.getD []).length / pageBytes) else fieldAt e.d 32 4
  let d := d.modDesc k fun e => { e with detail := BitVec.ofNat 32 n, data := [] }
  let d := d.wait k (.requests n)
  (List.range n).foldl (fun d i =>
    let a := BitVec.ofNat 64 (fieldAt e.d 24 8 + pageBytes * i)
    match bytes with
    | some bs => d.request e.part (.poolWrite k i) a pageBytes (some (padTo pageBytes (bs.drop (pageBytes * i))))
    | none => d.request e.part (.poolRead k i) a pageBytes none) d

/-- POOL_PAGE_WRITE (R313, R321): the pages are read from the host first. -/
def execPoolPageWrite (ring : Nat) (x : Desc) (s : State) : Res :=
  guarded (.poolPageWrite ring x) (onDev s fun d =>
    d.runOp 0x74 ring x chkPoolPage fun d k e =>
      (d.emitFor e.part (.hostRead e.part (BitVec.ofNat 64 (fieldAt e.d 16 8)) (pageBytes * fieldAt e.d 32 4))).wait k .hostRead)

/-- The pages of POOL_PAGE_WRITE arrived. -/
def Dev.poolArrived (d : Dev) (k : Nat) (bytes : List Byte) : Dev :=
  match tget d.rng.descs k with
  | some e =>
    match e.failAt with
    | some a => if bytes.length < pageBytes then d.hostFail k a 0 0 else d.poolPages k e (some bytes)
    | none => d.poolPages k e (some bytes)
  | none => d

/-- POOL_PAGE_READ (R321). -/
def execPoolPageRead (ring : Nat) (x : Desc) (s : State) : Res :=
  guarded (.poolPageRead ring x) (onDev s fun d => d.runOp 0x75 ring x chkPoolPage fun d k e => d.poolPages k e none)

/-! ### Host windows (R312, R313) -/

/-- POOL_FLUSH's effect: it waits for the host writes that arrived before it. A window whose extent is revoked answers so. -/
def doPoolFlush (d : Dev) (k : Nat) (e : DescEntry) : Dev :=
  let w := fieldAt e.d 16 1
  match tget d.fab.window (16 * e.part + w) with
  | none => d.ok k 0 0
  | some v =>
    if !(d.extentInfo v.extent).any fun x => x.live then d.refuse k stExtent
    else
      let ts := tkeys d.fab.req fun _ r => r.isWrite && r.part == e.part && (match r.purpose with
        | .hostLine _ off _ => off / 2 ^ 40 == w
        | _ => false)
      (d.wait k (.lines w ts v.written)).flushLines k

/-- POOL_FLUSH (R313). -/
def execPoolFlush (ring : Nat) (x : Desc) (s : State) : Res :=
  guarded (.poolFlush ring x) (onDev s fun d =>
    d.runOp 0x73 ring x (fun _ _ x => if fieldAt x 16 1 > 15 then stBad else stOk) doPoolFlush)

/-- A line access that no extent answers: poisoned data for a read, a discarded write, and a fault record (R312). -/
def Dev.lineRefused (d : Dev) (p : Option Nat) (fn : HostFn) (off : Nat) (isWrite : Bool) : Dev :=
  let (a, d) := d.draw
  let d := d.raiseAt p (0x0A00 + stCode stDenied) a 0 (HostFnMaster d fn) 0x0A00 0xFF
  if isWrite then d else d.emit (.lineData fn off none)

/-- A host function reaches its window: it exists, is not being scrubbed, and TEE_ONLY asks for T = 1 (13 R357, R358). -/
def Dev.fnReaches (d : Dev) (a : Access) : Option Nat :=
  match HostFnPart d a.fn with
  | none => none
  | some p =>
    if d.hostUp && HostFnExists d a.fn && !d.dmaStopped p && (!d.teeOnly p || a.tee) then some p else none

/-- A line access of a function that does not reach its window; one with T = 0 to a TDI in RUN takes it to ERROR (13 Table 13.6). -/
def Dev.lineDenied (d : Dev) (a : Access) (off : Nat) (isWrite : Bool) : Dev :=
  let part := (HostFnPart d a.fn).filter fun p => d.present p
  let d := d.lineRefused part a.fn off isWrite
  match part with
  | some p => if d.teeOnly p && !a.tee && HostFnExists d a.fn then d.tdiFail p else d
  | none => d

/-- HOST_LINE_ACCESS (R312): the window's bitmap notes a write, and the access goes to the page's home. -/
def execHostLineAccess (a : Access) (window offset : Nat) (write : Option (List Byte)) (s : State) : Res :=
  guarded (.hostLineAccess a window offset write) (onDev s fun d =>
    let off := window * 2 ^ 40 + offset % 2 ^ 40
    match d.fnReaches a with
    | none => if d.hostUp then d.lineDenied a off write.isSome else d
    | some p =>
      let key := 16 * p + window
      match (tget d.fab.window key).bind fun v => d.extentInfo v.extent with
      | none => d.lineRefused (some p) a.fn off write.isSome
      | some e =>
        if !e.live ∨ offset ≥ e.pages * pageBytes then d.lineRefused (some p) a.fn off write.isSome
        else
          let g := offset / pageBytes
          let busy := d.rng.descs.any fun x => x.2.part == p && (match x.2.st with | .waiting (.lines w _ _) => w == window | _ => false)
          let note := fun (v : HostWindow) =>
            { v with written := if v.written.contains g then v.written else v.written ++ [g],
                     again := if busy && !v.again.contains g then v.again ++ [g] else v.again }
          let d := if write.isSome then { d with fab := { d.fab with window := tupd d.fab.window key note } } else d
          d.request p (.hostLine a.fn off write.isSome) (poolAddr (hExtHome e.handle) e.space (e.base + offset)) 64 write)

/-- The host of a partition is lost: POISON to the home of every page that it wrote, and the fault HOST_LOST (R313). -/
def Dev.loseHost (d : Dev) (p port : Nat) : Dev :=
  let pages := (d.fab.window.filter fun x => x.1 / 16 == p).flatMap fun x =>
    (d.extentInfo x.2.extent).elim [] fun e => x.2.written.map fun g => pageAddr e g
  let homes := (pages.map poolHome).eraseDups
  let d := homes.foldl (fun d h => d.emit (.ctrl h (.poison (pages.filter fun a => poolHome a == h)))) d
  (d.flag FAB_STATUS_HOST_LOST FAB_EVENTS_HOST_LOST_COUNT).raiseOpen (some p) 0x0A14 (0x400 + 16 * p + port)

/-- HOST_LINK_LOST (R313): link down, or a hot or conventional reset, of a host port. -/
def execHostLinkLost (port : Nat) (why : HostLoss) (s : State) : Res :=
  guarded (.hostLinkLost port why) (onDev s fun d =>
    if !(d.getF GLB_ASSEMBLY_HOST_ROLE).testBit port then d
    else ((List.range 8).filter fun p => d.present p && (d.getF (SEC_PART_HOST_PORTS p)).testBit port).foldl (fun d p => d.loseHost p port) d)

/-- POISON (R313): the home marks pages that the sender's host wrote. -/
def execPoison (src : Nat) (pages : List U64) (s : State) : Res :=
  guarded (.poison src pages) (onDev s fun d =>
    pages.foldl (fun d a =>
      let g := poolOffset a / pageBytes
      if poolHome a = d.id ∧ (d.extentOf (poolSpace a) g).isSome ∧ (d.dirOf (poolSpace a) g).dev = src then
        d.pageTo (poolSpace a) g fun x => { x with poison := true }
      else d) d)

/-! ### Dynamic capacity (R310) -/

/-- A port has the pool role. -/
def Dev.poolPort (d : Dev) (space : Nat) : Bool :=
  decide (1 ≤ space ∧ space ≤ d.getF GLB_ASSEMBLY_L_DIES) && !(d.getF GLB_ASSEMBLY_HOST_ROLE).testBit (space - 1)

/-- DCD_CAPACITY_ADD (R310): pages `base` to `base + pages − 1` join the space. -/
def execDcdCapacityAdd (space base pages : Nat) (s : State) : Res :=
  guarded (.dcdCapacityAdd space base pages) (onDev s fun d =>
    if !d.poolPort space || pages = 0 || (d.spaceRanges space).any (fun r => overlap r (base, pages) != 0) then d
    else ({ d with fab := { d.fab with added := d.fab.added ++ [(space, base, pages)] } }).move 4 space outside 0 pages none)

/-- What a range leaves of another: the parts before and after it. -/
def cutRange (x : Nat × Nat × Nat) (base pages : Nat) : List (Nat × Nat × Nat) :=
  let before := if x.2.1 < base then [(x.1, x.2.1, min x.2.2 (base - x.2.1))] else []
  let after := if base + pages < x.2.1 + x.2.2 then
      [(x.1, max x.2.1 (base + pages), x.2.1 + x.2.2 - max x.2.1 (base + pages))] else []
  before ++ after

/-- Pages of a space. -/
def Dev.spacePages (d : Dev) (space : Nat) : Nat := ((d.spaceRanges space).map fun r => r.2).sum

/-- DCD_CAPACITY_RELEASE (R310): the range takes no new extent, its extents are revoked, and it is released. -/
def execDcdCapacityRelease (space base pages : Nat) (s : State) : Res :=
  guarded (.dcdCapacityRelease space base pages) (.next (s.onHome fun d =>
    if !d.poolPort space then d
    else
      let old := d.spacePages space
      let d := { d with fab := { d.fab with added := d.fab.added.flatMap fun (x : Nat × Nat × Nat) => if x.1 = space then cutRange x base pages else [x] } }
      let meets := fun (e : Nat × Extent) => e.2.space == space &&
        decide (base < e.2.base / pageBytes + e.2.pages ∧ e.2.base / pageBytes < base + pages)
      let hit : Tbl Extent := d.fab.extent.filter meets
      let used := (hit.map fun (e : Nat × Extent) => overlap (e.2.base / pageBytes, e.2.pages) (base, pages)).sum
      let d := d.move 4 space 0 outside (old - d.spacePages space - used) none
      hit.foldl (fun (d : Dev) (e : Nat × Extent) => d.revoke e.1 e.2 none) d))

end Sys2Proof.Machine
end

