-- ==== Sys2Proof/Machine/Handover.lean ====
section
/-! DEFINITION. Handing over ownership: OWN_OFFER, OWN_ACCEPT, OWN_RESOLVE, and the messages and timeouts of a transaction at its
source, its destination, its homes and its anchor home (11_dxl_fabric_pool.md R315–R319); error responses and request timeouts
(R298). -/

namespace Sys2Proof.Machine

/-! ### At the source (R315–R317) -/

/-- First byte of the pool page that holds an address. -/
def pageStart (a : U64) : U64 := BitVec.ofNat 64 (a.toNat / pageBytes * pageBytes)

/-- Pool pages of a session: those of its page-table blocks first. -/
def Dev.sesPlaces (d : Dev) (loc : Nat) : List U64 :=
  let s := d.ses loc
  ((s.blocks.flatMap fun a => pagesOfRun a 8) ++
   (s.pages.filter fun e => e.2.tier ≥ 2 && !e.2.dropped).flatMap fun e => pagesOfRun e.2.storedAt e.2.sectors).eraseDups

/-- Pool pages of a region, its first tile's first. -/
def Dev.regPlaces (d : Dev) (r : Region) : List U64 := ((List.range r.tiles).map fun t => pageStart (d.tileAddr r t)).eraseDups

/-- The session can be handed over (R315). -/
def Session.movable (s : Session) : Bool :=
  s.st == .parked && s.depth ≥ 2 && !s.genArmed && !s.waitArmed && s.staged == 0 && s.carry.isEmpty && s.writing.isEmpty

/-- The region can be handed over (R315). -/
def Region.movable (r : Region) : Bool :=
  !r.wback && r.homeTier ≥ 2 && !r.bound && (r.tile.all fun e => e.2.tier ≥ 2 && e.2.cache.isNone)

/-- What an OWN_OFFER names: whether a session, its number and its pool pages; none when it is not as R315 asks. -/
def Dev.offerObject (d : Dev) (p : Nat) (h : U64) : Option (Bool × Nat × List U64) :=
  if d.sessionStatus p h = stOk then
    if (d.ses (hLocal h)).movable then some (true, hLocal h, d.sesPlaces (hLocal h)) else none
  else (d.region (hRegion h)).bind fun r => if r.movable then some (false, hRegion h, d.regPlaces r) else none

/-- Handle and ranges of OWN_OFFER. -/
def chkOwnOffer (d : Dev) (p : Nat) (x : Desc) : Byte :=
  let tenant := fun (id : U16) => if d.tenantGone p id.toNat then stTenant else stOk
  if fieldAt x 18 1 > 7 ∨ fieldAt x 24 2 = 0 ∨ fieldAt x 24 2 > 60000 then stBad
  else if d.sessionStatus p x.target = stOk then tenant (d.ses (hLocal x.target)).keyId
  else if d.regionStatus p x.target = stOk then ((d.region (hRegion x.target)).map fun r => tenant r.keyId).getD stOk
  else if d.sessionStatus p x.target = stDenied ∨ d.regionStatus p x.target = stDenied then stDenied
  else d.regionStatus p x.target

/-- Hand-overs in flight that a device may have (Table 11.8). -/
def offerLimit : Nat := 64

/-- Pages of a list at one home. -/
def atHome (pages : List U64) (home : Nat) : List U64 := pages.filter fun a => poolHome a == home

/-- H1: the object is fenced and PREPARE goes to every home. -/
def Dev.startOffer (d : Dev) (k : Nat) (e : DescEntry) : Dev :=
  let x := e.d
  let txn := BitVec.ofNat 32 (fieldAt x 20 4)
  match d.offerObject e.part x.target with
  | none => d.refuse k stWrong
  | some (isSes, obj, pages) =>
    match pages with
    | [] => d.refuse k stWrong
    | anchor :: _ =>
      if (tget d.fab.offer txn.toNat).isSome then d.refuse k stWrong
      else
        let m : DirMsg := { txn := txn, src := d.id, srcPart := e.part, dst := fieldAt x 16 2 % 4096, dstPart := fieldAt x 18 1,
                            anchor := anchor, pages := pages, deadline := fieldAt x 24 2, outcome := 0, handle := 0 }
        let homes := (pages.map poolHome).eraseDups
        let t : OfferTxn := { desc := k, isSession := isSes, obj := obj, msg := m, homes := homes }
        let d := if isSes then d.enter obj .closing else d.modRegion obj fun r => { r with offered := true }
        let d := { d with fab := { d.fab with offer := tput d.fab.offer txn.toNat t } }
        homes.foldl (fun d h => d.emit (.ctrl h (.prepare { m with pages := atHome pages h }))) (d.wait k (.offer txn))

/-- OWN_OFFER's effect: it waits in fetch order while 64 hand-overs are in flight. -/
def doOwnOffer (d : Dev) (k : Nat) (e : DescEntry) : Dev :=
  if d.fab.offer.length ≥ offerLimit then d.wait k (.offer (BitVec.ofNat 32 (fieldAt e.d 20 4))) else d.startOffer k e

/-- OWN_OFFER (R315). -/
def execOwnOffer (ring : Nat) (x : Desc) (s : State) : Res :=
  guarded (.ownOffer ring x) (onDev s fun d => d.runOp 0x76 ring x chkOwnOffer doOwnOffer)

/-- A hand-over of this source ended: the next OWN_OFFER that waits starts. -/
def Dev.endOffer (d : Dev) (txn : Nat) : Dev :=
  let d := { d with fab := { d.fab with offer := tdel d.fab.offer txn } }
  match d.rng.descs.find? fun (x : Nat × DescEntry) => x.2.op == 0x76 && (match x.2.st with | .waiting (.offer _) => true | _ => false) &&
      !(d.fab.offer.any fun (o : Nat × OfferTxn) => o.2.desc == x.1) with
  | some (k, e) => d.startOffer k e
  | none => d

/-- An aborted hand-over at its source: the session is PARKED again, and OWN_OFFER completes (R317). -/
def Dev.offerAborted (d : Dev) (txn : Nat) (st : Byte) : Dev :=
  match tget d.fab.offer txn with
  | none => d
  | some t =>
    let d := if t.isSession then d.enter t.obj .parked else d.modRegion t.obj fun r => { r with offered := false }
    (d.failOpen t.desc st none).endOffer txn

/-- ABORT sent to the anchor home. -/
def Dev.sendAbort (d : Dev) (m : DirMsg) : Dev := d.emit (.ctrl (poolHome m.anchor) (.abort m))

/-- What OFFER carries (R316; log 34). -/
def Dev.offerBody (d : Dev) (t : OfferTxn) : OfferObj :=
  if t.isSession then
    let s := d.ses t.obj
    .session (BitVec.ofNat 512 (leNat (d.tussock t.obj))) s.blocks
      (s.pages.map fun e => (e.1, BitVec.ofNat 512 (leNat (d.pteOf t.obj e.1 s.pages)))) s.hist
  else
    match d.region t.obj with
    | none => .region 0 0 0 0 false false []
    | some r => .region r.kind r.homeTier r.peat r.keyId r.weight r.isSealed
        ((List.range r.tiles).map fun i => (d.tileAddr r i, BitVec.ofNat 512 (leNat (d.tileHeader t.obj i))))

/-- PREPARED (R316): once every home has answered, OFFER goes out; a refusal aborts (R317). -/
def execPrepared (m : DirMsg) (ok : Bool) (s : State) : Res :=
  guarded (.prepared m ok) (onDev s fun d =>
    match tget d.fab.offer m.txn.toNat with
    | none => d
    | some t =>
      if m.src ≠ d.id ∨ t.offered then d
      else if !ok then d.sendAbort t.msg
      else
        let home := (m.pages.head?.map poolHome).getD (poolHome m.anchor)
        let t := { t with prepared := if t.prepared.contains home then t.prepared else home :: t.prepared }
        let all := t.homes.all fun h => t.prepared.contains h
        let d := { d with fab := { d.fab with offer := tput d.fab.offer m.txn.toNat { t with offered := all } } }
        if all then d.emit (.ctrl t.msg.dst (.offer t.msg (d.offerBody t))) else d)

/-- OWN_OFFER_TIMEOUT (R317): the source sends ABORT. -/
def execOwnOfferTimeout (txn : U32) (s : State) : Res :=
  guarded (.ownOfferTimeout txn) (onDev s fun d => (tget d.fab.offer txn.toNat).elim d fun t => d.sendAbort t.msg)

/-! ### At the destination (R316, R317) -/

/-- Key of an OWN_ACCEPT. -/
def acceptKey (src : Nat) (txn : U32) : Nat := src * 2 ^ 32 + txn.toNat

/-- KEY_ID of an offered object. -/
def OfferObj.keyId : OfferObj → Nat
  | .session x _ _ _ => leAt (leBytes 64 x.toNat) 30 2
  | .region _ _ _ k _ _ _ => k.toNat

/-- Pages of an offered session. -/
def offeredPages (ptes : List (Nat × BitVec 512)) : Tbl Page := ptes.foldl (fun t x => tput t x.1 (pageOfPte (leBytes 64 x.2.toNat))) []

/-- T1 frames that an object's metadata needs, and the place that holds them. -/
def OfferObj.frames : OfferObj → Nat × Nat
  | .session _ _ ptes _ => (tableDirs (offeredPages ptes), 3)
  | .region _ home _ _ _ _ ts => (regionFrames ts.length home, 2)

/-- A number set aside for an offered object: number, generation, and the device. -/
def Dev.setAside (d : Dev) (p : Nat) : OfferObj → Option (Nat × Nat × Dev)
  | .session _ _ _ _ =>
    ((tgetD d.tus.numbers p {}).take (d.getF (TUS_PART_FIRST p)) (d.getF (TUS_PART_COUNT p))).map fun x =>
      (x.1, nextGen (d.ses x.1).gen 0x7FFFFFF, { d with tus := { d.tus with numbers := tput d.tus.numbers p x.2 } })
  | .region _ _ _ _ _ _ _ =>
    ((tgetD d.tier.numbers 0 {}).take 0 regionLimit).map fun x =>
      (x.1, nextGen (tgetD d.tier.gens x.1 0) 0x1FFFFFFFF, { d with tier := { d.tier with numbers := tput d.tier.numbers 0 x.2 } })

/-- The number and frames set aside given back. -/
def Dev.unset (d : Dev) (p : Nat) (o : OfferObj) (n : Nat) : Dev :=
  let d := d.moveFrames p (OfferObj.frames o).2 0 (OfferObj.frames o).1
  match o with
  | .session _ _ _ _ => { d with tus := { d.tus with numbers := tput d.tus.numbers p ((tgetD d.tus.numbers p {}).give n) } }
  | .region _ _ _ _ _ _ _ => { d with tier := { d.tier with numbers := tput d.tier.numbers 0 ((tgetD d.tier.numbers 0 {}).give n) } }

/-- The device refuses an OFFER with an ERROR frame under its TXN (R298, R317). -/
def Dev.refuseOffer (d : Dev) (m : DirMsg) (st : Byte) : Dev :=
  let f := d.frame0 0x0F (channel 0 3) m.src m.txn m.anchor
  (d.sendAs none { f with status := st } none fun g => .error g none).1

/-- An OWN_ACCEPT leaves the table. -/
def Dev.dropAccept (d : Dev) (key : Nat) : Dev := { d with fab := { d.fab with accept := tdel d.fab.accept key } }

/-- An OFFER meets its OWN_ACCEPT: key and frames are checked, and COMMIT goes to the anchor home (R316, R317). -/
def Dev.matchOffer (d : Dev) (key : Nat) (a : AcceptTxn) (m : DirMsg) (o : OfferObj) : Dev :=
  let no := fun (st : Byte) => ((d.failOpen a.desc st none).dropAccept key).refuseOffer m st
  if (d.storeKey a.part (OfferObj.keyId o)).isNone then no stDenied
  else if d.freeFrames a.part < (OfferObj.frames o).1 then no stLimit
  else match d.setAside a.part o with
    | none => no stLimit
    | some (n, g, d) =>
      let h := match o with
        | .session _ _ _ _ => mkHandle d.id a.part g n
        | .region _ _ _ _ _ _ _ => mkRegionHandle d.id a.part g n
      let d := d.moveFrames a.part 0 (OfferObj.frames o).2 (OfferObj.frames o).1
      let d := { d with fab := { d.fab with accept := tput d.fab.accept key { a with offer := some (m, o, n, g) } } }
      d.emit (.ctrl (poolHome m.anchor) (.commit { m with handle := h }))

/-- OFFER (R317): checked against a matching OWN_ACCEPT, or held, up to 64. -/
def execOffer (m : DirMsg) (o : OfferObj) (s : State) : Res :=
  guarded (.offer m o) (onDev s fun d =>
    let key := acceptKey m.src m.txn
    match tget d.fab.accept key with
    | some a => if a.part = m.dstPart ∧ a.offer.isNone then d.matchOffer key a m o else d
    | none =>
      if d.fab.hold.length ≥ 64 then d.refuseOffer m stLimit
      else { d with fab := { d.fab with hold := d.fab.hold ++ [(m, o)] } })

/-- OFFER_HOLD_TIMEOUT (R317): the held offer is dropped. -/
def execOfferHoldTimeout (src : Nat) (txn : U32) (s : State) : Res :=
  guarded (.offerHoldTimeout src txn) (onDev s fun d =>
    { d with fab := { d.fab with hold := d.fab.hold.filter fun x => !(x.1.src == src && x.1.txn == txn) } })

/-- OWN_ACCEPT's effect: a held OFFER is taken at once. -/
def doOwnAccept (d : Dev) (k : Nat) (e : DescEntry) : Dev :=
  let src := fieldAt e.d 16 2 % 4096
  let txn := BitVec.ofNat 32 (fieldAt e.d 20 4)
  let key := acceptKey src txn
  if (tget d.fab.accept key).isSome then d.refuse k stWrong
  else
    let a : AcceptTxn := { desc := k, part := e.part, memIdx := BitVec.ofNat 32 (fieldAt e.d 28 4) }
    let d := { d with fab := { d.fab with accept := tput d.fab.accept key a } }
    let d := d.wait k (.accept src txn)
    match d.fab.hold.find? fun x => x.1.src == src && x.1.txn == txn && x.1.dstPart == e.part with
    | none => d
    | some (m, o) =>
      let d := { d with fab := { d.fab with hold := d.fab.hold.filter fun x => !(x.1.src == src && x.1.txn == txn) } }
      d.matchOffer key a m o

/-- OWN_ACCEPT (R317). -/
def execOwnAccept (ring : Nat) (x : Desc) (s : State) : Res :=
  guarded (.ownAccept ring x) (onDev s fun d =>
    d.runOp 0x77 ring x (fun d p x => if fieldAt x 24 2 = 0 ∨ fieldAt x 24 2 > 60000 ∨ !d.memIndexOk p (fieldAt x 28 4) then stBad else stOk)
      doOwnAccept)

/-- OWN_ACCEPT_TIMEOUT (R317): no offer came in time. -/
def execOwnAcceptTimeout (src : Nat) (txn : U32) (s : State) : Res :=
  guarded (.ownAcceptTimeout src txn) (onDev s fun d =>
    match tget d.fab.accept (acceptKey src txn) with
    | some a => if a.offer.isNone then (d.failOpen a.desc stWrong none).dropAccept (acceptKey src txn) else d
    | none => d)

/-- The destination creates the session PARKED, or the region, under the number set aside. -/
def Dev.createObject (d : Dev) (p : Nat) (memIdx : U32) (o : OfferObj) (n g : Nat) : Dev :=
  match o with
  | .session x blocks ptes hist =>
    let b := leBytes 64 x.toNat
    let ps := offeredPages ptes
    let a := BitVec.ofNat 64 (leAt b 32 8)
    let hr := (d.tier.region.find? fun (r : Nat × Region) => r.2.part == p && d.tileAddr r.2 0 == a).elim regionLimit fun r => r.1
    let s : Session :=
      { gen := g, st := .parked, depth := bitsOf (leAt b 8 1) 4 2, pin := (leAt b 9 1).testBit 0, cls := leAt b 10 1,
        prio := leAt b 11 1 % 4, positions := leAt b 12 4, ptVersion := leAt b 24 4, ptRoot := d.devAddr (Config.tableOffset n (leAt b 24 4)).toNat,
        dropped := leAt b 28 2, keyId := BitVec.ofNat 16 (leAt b 30 2), histAddr := a, stateTime := d.clock.now, memIndex := memIdx,
        listSet := leAt b 56 2, profile := leAt b 58 2, histReg := hr, hist := hist, blocks := blocks, pages := ps,
        tables := tableDirs ps }
    let d := d.setSes n s
    let d := if memIdx = 0xFFFFFFFF then d else d.nameIndex memIdx.toNat true
    d.modTok p fun t => { t with gens := tput t.gens n {} }
  | .region kind home peat keyId weight isSealed ts =>
    let tile := fun (x : U64 × BitVec 512) =>
      let b := leBytes 64 x.2.toNat
      let y : Tile := ({} : Tile).withHeader b
      { y with form := leAt b 1 1, sectors := leAt b 3 1, gen := leAt b 24 8, digest := BitVec.ofNat 64 (leAt b 32 8),
               crc := BitVec.ofNat 32 (leAt b 40 4), storedAt := x.1, keyId := BitVec.ofNat 16 (leAt b 56 2), tier := home }
    let r : Region :=
      { gen := g, part := p, tiles := ts.length, homeTier := home, wback := false, kind := kind, peat := peat, keyId := keyId,
        weight := weight, isSealed := isSealed, pin := false, extent := 0, tile := ts.mapIdx fun i x => (i, tile x) }
    let hist := d.tus.slot.map fun (s : Nat × Session) =>
      (s.1, if s.2.histReg = regionLimit ∧ some s.2.histAddr = ts.head?.map (fun x => x.1) then { s.2 with histReg := n } else s.2)
    { d with tier := { d.tier with region := tput d.tier.region n r, gens := tput d.tier.gens n g },
             tus := { d.tus with slot := hist } }

/-- COMMITTED (R316): the destination creates the object; the source lets it go without releasing its pool pages. -/
def execCommitted (m : DirMsg) (handle : U64) (s : State) : Res :=
  guarded (.committed m handle) (onDev s fun d =>
    let me := d.id
    let key := acceptKey m.src m.txn
    let d := match (if m.dst = me then tget d.fab.accept key else none) with
      | some a =>
        match a.offer with
        | some (m', o, n, g) => ((d.createObject a.part a.memIdx o n g).ok a.desc handle (BitVec.ofNat 32 m'.pages.length)).dropAccept key
        | none => d
      | none => d
    match (if m.src = me then tget d.fab.offer m.txn.toNat else none) with
    | none => d
    | some t =>
      let d := if t.isSession then (d.modSes t.obj fun s => { s with pages := [], blocks := [], dropped := 0 }).retable t.obj
        else match d.region t.obj with
          | none => d
          | some r =>
            let d := d.freeRegionFrames r.part r.framesHeld
            { d with tier := { d.tier with region := tdel d.tier.region t.obj,
                                           numbers := tput d.tier.numbers 0 ((tgetD d.tier.numbers 0 {}).give t.obj) } }
      (d.ok t.desc handle (BitVec.ofNat 32 t.msg.pages.length)).endOffer m.txn.toNat)

/-! ### At the homes (R316–R318) -/

/-- A message's hand-over. -/
def DirMsg.hand (m : DirMsg) : Hand :=
  { src := m.src, srcPart := m.srcPart, dst := m.dst, dstPart := m.dstPart, txn := m.txn, anchor := m.anchor, deadline := m.deadline }

/-- A page that the source owns and may hand over. -/
def Dev.handable (d : Dev) (m : DirMsg) (a : U64) : Bool :=
  let x := d.dirOf (poolSpace a) (poolOffset a / pageBytes)
  poolHome a == d.id && (d.extentOf (poolSpace a) (poolOffset a / pageBytes)).any (fun e => !e.2.fenced) && x.st == .owned &&
    x.dev == m.src && x.part == m.srcPart

/-- PREPARE (R316): the pages become PENDING, or the home refuses. -/
def execPrepare (m : DirMsg) (s : State) : Res :=
  guarded (.prepare m) (onDev s fun d =>
    if m.pages.all fun a => d.handable m a then
      let d := m.pages.foldl (fun d a => d.pageTo (poolSpace a) (poolOffset a / pageBytes) fun x =>
        { x with st := .pending, hand := some (DirMsg.hand m) }) d
      d.emit (.ctrl m.src (.prepared m true))
    else d.emit (.ctrl m.src (.prepared m false)))

/-- Pages of this home that a transaction holds. -/
def Dev.heldBy (d : Dev) (m : DirMsg) : Tbl DirEntry :=
  d.fab.dir.filter fun x => x.2.hand.any fun h => h.src == m.src && h.txn == m.txn

/-- A page's hand-over decided: it is the destination's or the source's. -/
def DirEntry.decide (x : DirEntry) (toDst : Bool) : DirEntry :=
  match x.hand with
  | none => x
  | some h => { x with st := .owned, hand := none, dev := if toDst then h.dst else h.src, part := if toDst then h.dstPart else h.srcPart }

/-- The pages of a transaction at this home decided; of a disputed page both devices are told (R318). -/
def Dev.decidePages (d : Dev) (m : DirMsg) (toDst : Bool) : Dev :=
  let xs := d.heldBy m
  let disputed := xs.any fun x => x.2.st == .frozen
  let d := xs.foldl (fun d x => d.pageTo (x.1 / 2 ^ 32) (x.1 % 2 ^ 32) fun y => y.decide toDst) d
  if disputed then
    let c := if toDst then Ctrl.committed m m.handle else Ctrl.abort m
    (d.emit (.ctrl m.src c)).emit (.ctrl m.dst c)
  else d

/-- The anchor home's record of a transaction. -/
def Dev.verdict (d : Dev) (m : DirMsg) : Option Nat := (d.fab.decided.find? fun x => x.1 == m.src && x.2.1 == m.txn).map fun x => x.2.2

/-- Homes of a transaction's pages other than this one. -/
def Dev.otherHomes (d : Dev) (m : DirMsg) : List Nat := ((m.pages.map poolHome).eraseDups).filter (· != d.id)

/-- COMMIT (R316): at the anchor home the commit point, the first of COMMIT and ABORT; at another home the pages change owner. -/
def execCommit (m : DirMsg) (s : State) : Res :=
  guarded (.commit m) (.next (s.onHome fun d =>
    if poolHome m.anchor ≠ d.id then d.decidePages m true
    else match d.verdict m with
      | some 2 => d.emit (.ctrl m.dst (.abort m))
      | some _ => d
      | none =>
        if (d.heldBy m).isEmpty then d
        else
          let d := { d with fab := { d.fab with decided := (m.src, m.txn, 1) :: d.fab.decided } }
          let d := (d.emit (.ctrl m.dst (.committed m m.handle))).emit (.ctrl m.src (.committed m m.handle))
          let d := (d.otherHomes m).foldl (fun d h => d.emit (.ctrl h (.commit m))) d
          d.decidePages m true))

/-- The anchor home aborts a transaction that is not decided: other homes and both devices are told. -/
def Dev.abortHere (d : Dev) (m : DirMsg) : Dev :=
  let d := { d with fab := { d.fab with decided := (m.src, m.txn, 2) :: d.fab.decided } }
  let tell := (d.otherHomes m ++ [m.src, m.dst].filter (· != d.id)).eraseDups
  (tell.foldl (fun d h => d.emit (.ctrl h (.abort m))) d).decidePages m false

/-- An aborted hand-over at its destination. -/
def Dev.acceptAborted (d : Dev) (m : DirMsg) (st : Byte) : Dev :=
  let key := acceptKey m.src m.txn
  match tget d.fab.accept key with
  | none => d
  | some a =>
    match a.offer with
    | none => d
    | some (_, o, n, _) => ((d.failOpen a.desc st none).unset a.part o n).dropAccept key

/-- ABORT (R317): refused at an anchor home that has recorded COMMITTED; otherwise PENDING pages return to the source, OWN_OFFER and
OWN_ACCEPT complete with WRONG_STATE, or with the status of the revocation that ends them (R314). -/
def execAbort (m : DirMsg) (s : State) : Res :=
  guarded (.abort m) (.next (s.onHome fun d =>
    let st := if m.outcome = 0 then stWrong else BitVec.ofNat 8 m.outcome
    let me := d.id
    let here := poolHome m.anchor = me
    if here ∧ d.verdict m = some 1 then d
    else
      let d := if here then (if d.verdict m = none then d.abortHere m else d) else d.decidePages m false
      let d := if m.outcome ≠ 0 ∧ !here ∧ m.src = me then
          (tget d.fab.offer m.txn.toNat).elim d fun t => d.sendAbort t.msg else d
      let d := if m.src = me then d.offerAborted m.txn.toNat st else d
      if m.dst = me then d.acceptAborted m st else d))

/-- PENDING_PAGE_DEADLINE (R318): the home freezes the page and asks the anchor home. -/
def execPendingPageDeadline (page : U64) (s : State) : Res :=
  guarded (.pendingPageDeadline page) (onDev s fun d =>
    let g := poolOffset page / pageBytes
    let x := d.dirOf (poolSpace page) g
    match (if poolHome page = d.id ∧ x.st = .pending then x.hand else none) with
    | none => d
    | some h =>
      let d := d.pageTo (poolSpace page) g fun x => { x with st := .frozen }
      let d := (d.flag FAB_STATUS_PAGE_FROZEN FAB_EVENTS_FROZEN_COUNT).raiseAt none 0x0A15 page 2 0x203
        (0x0A00 + poolSpace page) 0xFF
      d.emit (.ctrl (poolHome h.anchor) (.query (h.msg [pageStart page] 0))))

/-- QUERY (R318): the anchor home answers COMMITTED or ABORTED; a transaction that it does not know is aborted by its answer. -/
def execQuery (m : DirMsg) (s : State) : Res :=
  guarded (.query m) (.next (s.onHome fun d =>
    let me := d.id
    if poolHome m.anchor ≠ me then d
    else
      let asker := (m.pages.head?.map poolHome).getD me
      let d := if d.verdict m = none then d.abortHere m else d
      if asker = me then d.decidePages m (d.verdict m == some 1)
      else d.emit (.ctrl asker (if d.verdict m = some 1 then .commit m else .abort m))))

/-- A device can be reached. -/
def Dev.reaches (d : Dev) (dev : Nat) : Bool := dev == d.id || (d.egress dev).isSome

/-- Pages that OWN_RESOLVE names. -/
def resolvePages (x : Desc) : List U64 := (List.range (fieldAt x 24 4)).map fun i => BitVec.ofNat 64 (fieldAt x 16 8 + pageBytes * i)

/-- Alignment, COUNT, SIDE and home of OWN_RESOLVE. -/
def chkOwnResolve (d : Dev) (_ : Nat) (x : Desc) : Byte :=
  let a := BitVec.ofNat 64 (fieldAt x 16 8)
  if fieldAt x 16 8 % pageBytes ≠ 0 ∨ fieldAt x 24 4 = 0 ∨ fieldAt x 24 4 > 2 ^ 24 ∨ fieldAt x 28 1 > 1 then stBad
  else if poolHome a ≠ d.id then stDenied else stOk

/-- OWN_RESOLVE's effect: every page FROZEN and its anchor out of reach, or WRONG_STATE. -/
def doOwnResolve (d : Dev) (k : Nat) (e : DescEntry) : Dev :=
  let ps := resolvePages e.d
  let ok := fun (a : U64) =>
    let x := d.dirOf (poolSpace a) (poolOffset a / pageBytes)
    x.st == .frozen && x.hand.any fun h => !d.reaches (poolHome h.anchor)
  if !ps.all ok then d.refuse k stWrong
  else
    let toDst := fieldAt e.d 28 1 == 1
    let d := ps.foldl (fun d a =>
      let g := poolOffset a / pageBytes
      let d := match (d.dirOf (poolSpace a) g).hand with
        | none => d
        | some h =>
          let m := h.msg [a] 0
          let c := if toDst then Ctrl.committed m 0 else Ctrl.abort m
          (d.emit (.ctrl h.src c)).emit (.ctrl h.dst c)
      d.pageTo (poolSpace a) g fun x => x.decide toDst) d
    d.ok k (BitVec.ofNat 64 ps.length) 0

/-- OWN_RESOLVE (R318). -/
def execOwnResolve (ring : Nat) (x : Desc) (s : State) : Res :=
  guarded (.ownResolve ring x) (.next (s.onHome fun d => d.runOp 0x78 ring x chkOwnResolve doOwnResolve))

/-! ### Errors and timeouts (R298) -/

/-- A hand-over of this source that a TAG names by its TXN, when no request has the TAG. -/
def Dev.offerTag (d : Dev) (tag : U32) : Option OfferTxn := if (d.req tag.toNat).isSome then none else tget d.fab.offer tag.toNat

/-- ERROR_RESPONSE (R298): its status goes to what the request serves; a refused OFFER aborts the hand-over (R317). -/
def execErrorResponse (f : Frame) (e : Option ExtentInfo) (s : State) : Res :=
  guarded (.errorResponse f e) (
    match (if f.dst = s.dev.id then s.dev.offerTag f.tag else none) with
    | some t => onDev s fun d => if t.msg.dst = f.src then d.sendAbort t.msg else d
    | none => .next (s.getFrame { f with type := 0x0F } e))

/-- REQUEST_TIMEOUT (R298): 50 ms without a response: PEER_LOST, and the fault record. -/
def execRequestTimeout (tag : U32) (s : State) : Res :=
  guarded (.requestTimeout tag) (onDev s fun d =>
    match d.req tag.toNat with
    | some r =>
      match r.purpose with
      | .peer _ => d
      | w => (d.raise (some r.part) 0x0A16 r.addr 2 w.master).respond tag.toNat (.error stPeer)
    | none =>
      match d.offerTag tag with
      | some t => ((d.raise (some t.msg.srcPart) 0x0A16 t.msg.anchor 2 0x101).sendAbort t.msg).offerAborted tag.toNat stPeer
      | none => d)

end Sys2Proof.Machine
end

