-- ==== Sys2Proof/Machine/Security.lean ====
section
/-! DEFINITION. Keys and their retirement, access tables, TDI states and the scrub of a partition (13_partitions_keys.md
R345–R358, R361, R362). -/

namespace Sys2Proof.Machine

/-! ### Generations (R351, R356) -/

/-- The device with a key's record set, and KEYS_LIVE. -/
def Dev.setKey (d : Dev) (ix : Nat) (k : Key) : Dev :=
  let d := { d with sec := { d.sec with key := tput d.sec.key ix k } }
  let p := ix / 65536
  d.setF (SEC_TDI_KEYS_LIVE p) ((d.sec.key.filter fun e => e.1 / 65536 == p).map fun e => e.2.gens.length).sum

/-- Live generations of a partition. -/
def Dev.keysLive (d : Dev) (p : Nat) : Nat := ((d.sec.key.filter fun e => e.1 / 65536 == p).map fun e => e.2.gens.length).sum

/-- A generation's state changed. -/
def Key.setGen (k : Key) (gen : Nat) (st : KeyState) : Key :=
  { k with gens := k.gens.map fun g => if g.gen = gen then { g with st := st } else g }

/-- Code of a generation state for `Config.keyStateCode`, in the order of Table 13.4. -/
def KeyState.row : KeyState → Nat
  | .next => 0
  | .current => 1
  | .prior => 2
  | .retiring => 3
  | .empty => 4

/-- KEY_INSTALL's refusal, if any: WRONG_STATE conditions first, then the quota, then the unwrap (Table 13.9). -/
def Dev.installStatus (d : Dev) (p id gen : Nat) (store : Bool) (wrapped : BitVec 320) : Byte :=
  let k := d.key p id
  match tget d.sec.kek p with
  | none => stWrong
  | some kek =>
    if k.any fun k => k.store != store || decide (gen ≤ k.highest) || decide (k.gens.length ≥ 2) || (k.genIn .retiring).isSome ||
        (store && !k.gens.isEmpty) then stWrong
    else if d.keysLive p ≥ d.getF (SEC_PART_KEY_QUOTA p) then stLimit
    else if (Config.aesUnwrap kek wrapped).isNone then stBad
    else stOk

/-- KEY_INSTALL's effect. -/
def doKeyInstall (d : Dev) (k : Nat) (e : DescEntry) : Dev :=
  let p := e.part
  let id := fieldAt e.d 16 2
  let gen := fieldAt e.d 18 2
  let store := fieldAt e.d 20 1 == 2
  let wrapped := BitVec.ofNat 320 (fieldAt e.d 24 40)
  let st := d.installStatus p id gen store wrapped
  if st ≠ stOk then d.refuse k st
  else
    match (tget d.sec.kek p).bind fun kek => Config.aesUnwrap kek wrapped with
    | none => d.refuse k stBad
    | some key =>
      let old := (d.key p id).getD { store := store, tenant := 0 }
      let s := if (old.genIn .current).isSome then KeyState.next else KeyState.current
      let new : Key := { old with store := store, tenant := fieldAt e.d 22 2, removed := false, highest := gen,
                                  gens := old.gens ++ [{ gen := gen, st := s, key := key }] }
      (d.setKey (keyIndex p id) new).ok k (Config.keyStateCode s.row) 0

/-- KEY_INSTALL (R350, R351). -/
def execKeyInstall (ring : Nat) (x : Desc) (s : State) : Res :=
  guarded (.keyInstall ring x) (onDev s fun d =>
    d.runOp 0x90 ring x (fun _ _ x => if fieldAt x 16 2 = 0 ∨ fieldAt x 18 2 = 0 ∨ fieldAt x 20 1 = 0 ∨ fieldAt x 20 1 > 2 then stBad else stOk)
      doKeyInstall)

/-- KEY_ACTIVATE's effect: NEXT becomes CURRENT, and the generation that it replaces PRIOR. -/
def doKeyActivate (d : Dev) (k : Nat) (e : DescEntry) : Dev :=
  let ix := keyIndex e.part (fieldAt e.d 16 2)
  let gen := fieldAt e.d 18 2
  match tget d.sec.key ix with
  | none => d.refuse k stWrong
  | some y =>
    if (y.genIn .retiring).isSome || !y.gens.any fun g => g.gen == gen && g.st == .next then d.refuse k stWrong
    else
      let y := (y.genIn .current).elim y fun g => y.setGen g.gen .prior
      (d.setKey ix (y.setGen gen .current)).ok k 0 0

/-- KEY_ACTIVATE (R351). -/
def execKeyActivate (ring : Nat) (x : Desc) (s : State) : Res :=
  guarded (.keyActivate ring x) (onDev s fun d =>
    d.runOp 0x91 ring x (fun _ _ x => if fieldAt x 16 2 = 0 ∨ fieldAt x 18 2 = 0 then stBad else stOk) doKeyActivate)

/-! ### Retirement (R354, R355) -/

/-- KEY_ID whose STORE key a request of this device works under: that of its region or session. -/
def Dev.reqKey (d : Dev) (r : Req) : Option Nat :=
  let ofRegion := fun (n : Nat) => (d.region n).map fun r => r.keyId.toNat
  match r.purpose with
  | .tileWrite _ n _ => ofRegion n
  | .tileRead _ n _ => ofRegion n
  | .tileMove _ n _ _ _ => ofRegion n
  | .flush _ n _ => ofRegion n
  | .cacheFill n _ => ofRegion n
  | .copyTile _ n _ => ofRegion n
  | .replica _ n _ _ => ofRegion n
  | .weight n _ _ => ofRegion n
  | .parkPage l _ => some (d.ses l).keyId.toNat
  | .demotePage l _ => some (d.ses l).keyId.toNat
  | .fetchPage l _ => some (d.ses l).keyId.toNat
  | .history l _ => some (d.ses l).keyId.toNat
  | .shard p _ => (tget d.ckp.now p).bind fun c => ofRegion c.region
  | .shardGap p _ => (tget d.ckp.now p).bind fun c => ofRegion c.region
  | .shardRead k _ => (tget d.ckp.restore k).map fun r => r.keyId
  | .histRead _ _ => none
  | .poolWrite _ _ => none
  | .poolRead _ _ => none
  | .hostLine _ _ _ => none
  | .extentOp _ => none
  | .peer _ => none

/-- The operation that a request belongs to: a session's park, demotion, revival or history, or a descriptor or region's. -/
def Purpose.operation : Purpose → Nat × Nat
  | .parkPage l _ => (0, l)
  | .demotePage l _ => (1, l)
  | .fetchPage l _ => (2, l)
  | .history l _ => (3, l)
  | .tileWrite k _ _ => (4, k)
  | .tileRead k _ _ => (4, k)
  | .tileMove k _ _ _ _ => (4, k)
  | .flush k _ _ => (4, k)
  | .copyTile k _ _ => (4, k)
  | .replica k _ _ _ => (4, k)
  | .poolWrite k _ => (4, k)
  | .poolRead k _ => (4, k)
  | .extentOp k => (4, k)
  | .shard p _ => (9, p)
  | .shardGap p _ => (9, p)
  | .shardRead k _ => (4, k)
  | .histRead k _ => (4, k)
  | .cacheFill n _ => (5, n)
  | .weight n _ _ => (6, n)
  | .hostLine _ _ _ => (7, 0)
  | .peer _ => (8, 0)

/-- Requests that hold a STORE key (D2). -/
def Dev.holders (d : Dev) (p id : Nat) : List Nat := tkeys d.fab.req fun _ r => r.part == p && d.reqKey r == some id

/-- A frame under a LINK generation is not sent and acknowledged (D3). -/
def Dev.framesUnder (d : Dev) (p id gen : Nat) : Bool :=
  let mine := fun (x : TxFlit) => x.chan / 4 == 1 + p && x.key == id * 65536 + gen
  d.fab.port.any fun e => e.2.queue.any mine || e.2.replay.any fun x => mine x.2

/-- Work still holds a generation. -/
def Dev.keyBusy (d : Dev) (p id gen : Nat) : Bool :=
  match d.key p id with
  | none => false
  | some k => if k.store then !(d.holders p id).isEmpty else d.framesUnder p id gen

/-- D1: a generation is RETIRING, and its drain starts for a descriptor. -/
def Dev.startDrain (d : Dev) (desc : List Nat) (ix gen : Nat) : Dev :=
  match tget d.sec.key ix with
  | none => d
  | some k =>
    let d := d.setKey ix (k.setGen gen .retiring)
    { d with sec := { d.sec with drain := d.sec.drain ++ [{ descs := desc, key := ix, gen := gen }] } }

/-- A generation that KEY_RETIRE may name: PRIOR, or CURRENT when no other is live (Table 13.8). -/
def Key.retirable (k : Key) (gen : Nat) : Bool :=
  (k.genIn .retiring).isNone && k.gens.any fun g => g.gen == gen && (g.st == .prior || (g.st == .current && k.gens.length == 1))

/-- KEY_RETIRE's effect. -/
def doKeyRetire (d : Dev) (k : Nat) (e : DescEntry) : Dev :=
  let ix := keyIndex e.part (fieldAt e.d 16 2)
  let gen := fieldAt e.d 18 2
  if (tget d.sec.key ix).any fun y => y.retirable gen then (d.wait k .drain).startDrain [k] ix gen else d.refuse k stWrong

/-- KEY_RETIRE (R354). -/
def execKeyRetire (ring : Nat) (x : Desc) (s : State) : Res :=
  guarded (.keyRetire ring x) (onDev s fun d =>
    d.runOp 0x92 ring x (fun _ _ x => if fieldAt x 16 2 = 0 ∨ fieldAt x 18 2 = 0 ∨ fieldAt x 20 2 = 0 ∨ fieldAt x 20 2 > 50 then stBad else stOk)
      doKeyRetire)

/-- The generation of a session of a removed tenant ends; a session outside the batch is IDLE now, one in the batch leaves it
at the next E11 (R355). -/
def Dev.tenantGens (d : Dev) (p : Nat) : Dev :=
  let ls := d.sesWhere p fun s => (s.genArmed || s.waitArmed) && (d.key p s.keyId.toNat).any fun k => k.removed
  ls.foldl (fun d l =>
    let d := d.endGen l 0 stTenant
    let s := d.ses l
    if s.inBatch then d.modSes l fun s => { s with ended := true }
    else if s.st = .ready ∨ s.st = .waiting then d.enter l .idle else d) d

/-- The keys of a tenant, or every key of the partition, retired (R354): how many keys had a live generation. -/
def Dev.removeKeys (d : Dev) (p : Nat) (tenant : Option Nat) (desc : List Nat) : Dev × Nat :=
  let mine : Tbl Key := d.sec.key.filter fun e => e.1 / 65536 == p && (tenant.isNone || tenant == some e.2.tenant)
  let live := mine.filter fun e => !e.2.gens.isEmpty
  let d := mine.foldl (fun (d : Dev) (e : Nat × Key) => d.setKey e.1 { e.2 with removed := true }) d
  let d := live.foldl (fun (d : Dev) (e : Nat × Key) =>
    e.2.gens.foldl (fun (d : Dev) (g : KeyGen) =>
      if g.st = .retiring then
        { d with sec := { d.sec with drain := d.sec.drain.map fun x =>
          if x.key = e.1 ∧ x.gen = g.gen then { x with descs := x.descs ++ desc } else x } }
      else d.startDrain desc e.1 g.gen) d) d
  (d.tenantGens p, live.length)

/-- A tenant is being removed (R356). -/
def Dev.removingTenant (d : Dev) (p tenant : Nat) : Bool :=
  d.sec.drain.any fun x => x.key / 65536 == p && (tget d.sec.key x.key).any fun k => k.removed && k.tenant == tenant

/-- TENANT_REMOVE's effect. -/
def doTenantRemove (d : Dev) (k : Nat) (e : DescEntry) : Dev :=
  if d.removingTenant e.part (fieldAt e.d 16 2) then d.refuse k stWrong
  else
    let (d, n) := (d.wait k .drain).removeKeys e.part (some (fieldAt e.d 16 2)) [k]
    if n = 0 then d.ok k 0 0 else d.setResult k n

/-- TENANT_REMOVE (R354, R355). -/
def execTenantRemove (ring : Nat) (x : Desc) (s : State) : Res :=
  guarded (.tenantRemove ring x) (onDev s fun d =>
    d.runOp 0x93 ring x (fun _ _ x => if fieldAt x 18 2 = 0 ∨ fieldAt x 18 2 > 50 then stBad else stOk) doTenantRemove)

/-- Requests that no frame could be sent for complete with TENANT_REVOKED (R352, R354). -/
def Dev.failStuck (d : Dev) (p : Nat) : Dev :=
  (tkeys d.fab.req fun _ r => r.stuck && r.part == p).foldl (fun d t => d.respond t (.error stTenant)) d

/-- D4 and D5: the generation is EMPTY, and what waits for its last drain completes. -/
def Dev.endDrain (d : Dev) (x : Drain) : Dev :=
  match tget d.sec.key x.key with
  | none => d
  | some k =>
    let d := d.setKey x.key { k with gens := k.gens.filter fun g => g.gen != x.gen }
    let d := { d with sec := { d.sec with drain := d.sec.drain.filter fun y => !(y.key == x.key && y.gen == x.gen) } }
    let d := if k.store then d else d.failStuck (x.key / 65536)
    x.descs.foldl (fun d n =>
      if d.sec.drain.any fun y => y.descs.contains n then d
      else match tget d.rng.descs n with
        | none => d
        | some e => if e.op = 0x92 then d.ok n (BitVec.ofNat 64 k.late) e.detail else d.ok n e.result e.detail) d

/-- The drain of a generation. -/
def Dev.drainOf (d : Dev) (p : Nat) (keyId gen : U16) : Option Drain :=
  d.sec.drain.find? fun x => x.key == keyIndex p keyId.toNat && x.gen == gen.toNat

/-- KEY_DRAIN_COMPLETE (Table 13.5 D2–D5): the engines and L-dies can report only once no work of theirs holds the generation. -/
def execKeyDrainComplete (p : Nat) (keyId gen : U16) (s : State) : Res :=
  guarded (.keyDrainComplete p keyId gen) (onDev s fun d =>
    match d.drainOf p keyId gen with
    | none => d
    | some x => if d.keyBusy p keyId.toNat gen.toNat && !x.expired then d else d.endDrain x)

/-- KEY_DRAIN_TIMEOUT (Table 13.5 D2): what still holds the generation aborts. -/
def execKeyDrainTimeout (p : Nat) (keyId gen : U16) (s : State) : Res :=
  guarded (.keyDrainTimeout p keyId gen) (onDev s fun d =>
    match d.drainOf p keyId gen with
    | none => d
    | some x =>
      if !d.keyBusy p keyId.toNat gen.toNat then d
      else
        let hs := if (d.key p keyId.toNat).any fun k => k.store then d.holders p keyId.toNat else []
        let ops := ((hs.filterMap fun t => (d.req t).map fun r => r.purpose.operation).eraseDups).length
        let d := (d.flag SEC_STATUS_DRAIN_ABORT SEC_EVENTS_DRAIN_ABORT_COUNT).raiseOpen (some p) 0x0C15 0x106
        let d := x.descs.foldl (fun d n => d.modDesc n fun e => { e with detail := e.detail + BitVec.ofNat 32 ops }) d
        let d := { d with sec := { d.sec with drain := d.sec.drain.map fun y =>
          if y.key = x.key ∧ y.gen = x.gen then { y with expired := true } else y } }
        hs.foldl (fun d t => d.respond t (.error stTenant)) d)

/-! ### Access tables (R345–R348, R361) -/

/-- A TARGET value of R346. -/
def targetOk (d : Dev) (t : Nat) : Bool :=
  let b := t / 256
  let i := t % 256
  decide (b < 16) && (i == 0xFF || i == 0 || (b == 4 && decide (i < 192)) || (b == 10 && decide (i ≤ d.getF GLB_ASSEMBLY_L_DIES)) ||
    (b == 7 && decide (i < 128)))

/-- PART_MASK of the engines: every partition present whose function is not being scrubbed (R348). -/
def Dev.engineMask (d : Dev) : Nat := ((List.range 8).filter fun p => d.present p && tget d.sec.tdi p != some .scrubbing).foldl (fun a p => a + 2 ^ p) 0

/-- An access-table entry (Table 13.3) of a target for a master; 0 for an ID that is not allocated. -/
def Dev.aclEntry (d : Dev) (t m : Nat) : Nat :=
  let kinds := (Config.aclKinds t m).toNat
  let bit := fun (p : Nat) => if tget d.sec.tdi p = some .scrubbing then 0 else 2 ^ (4 + p)
  if m < 0x100 then (d.corePart m).elim 0 fun p => bit p + kinds
  else if m ≤ 0x108 ∨ (0x110 ≤ m ∧ m ≤ 0x127) then 16 * d.engineMask + 8 + kinds
  else if 0x200 ≤ m ∧ m < 0x200 + 16 * d.getF GLB_ASSEMBLY_L_DIES ∧ m % 16 < 4 then
    16 * d.engineMask + (if m % 16 = 0 ∨ m % 16 = 3 then 8 else 0) + kinds
  else if 0x400 ≤ m ∧ m < 0x480 ∧ m % 16 < 4 then
    let p := (m - 0x400) / 16
    let fn := if d.whole then HostFn.pf0 (m % 16) else HostFn.vf (p + 1) (m % 16)
    if HostFnExists d fn && HostFnPart d fn == some p then bit p + (if d.teeOnly p then 4096 else 0) + kinds else 0
  else if 0x480 ≤ m ∧ m < 0x484 then
    if !d.whole && HostFnExists d (.pf0 (m - 0x480)) && t % 256 == 0xFF then 16 * 0xFF + 1 else 0
  else 0

/-- An entry as ACL_READ returns it: of PART_MASK only the ring's partition. -/
def Dev.aclShown (d : Dev) (p t m : Nat) : Nat :=
  let x := d.aclEntry t m
  x - x / 16 % 256 * 16 + (if x.testBit (4 + p) then 2 ^ (4 + p) else 0)

/-- ACL_READ (R361). -/
def execAclRead (ring : Nat) (x : Desc) (s : State) : Res :=
  guarded (.aclRead ring x) (onDev s fun d =>
    d.runOp 0x94 ring x
      (fun d _ x => if fieldAt x 16 8 % 8 ≠ 0 ∨ !targetOk d (fieldAt x 24 2) ∨ fieldAt x 28 2 = 0 ∨ fieldAt x 26 2 + fieldAt x 28 2 > 4096
        then stBad else stOk)
      fun d k e =>
        let n := fieldAt e.d 28 2
        let bs := (List.range n).flatMap fun i => leBytes 2 (d.aclShown e.part (fieldAt e.d 24 2) (fieldAt e.d 26 2 + i))
        (d.emitFor e.part (.hostWrite e.part (BitVec.ofNat 64 (fieldAt e.d 16 8)) bs)).ok k (BitVec.ofNat 64 n) 0)

/-! ### TDI states (R357) -/

/-- LOCK_INTERFACE_REQUEST (R357). -/
def execLockInterfaceRequest (p : Nat) (s : State) : Res :=
  guarded (.lockInterfaceRequest p) (onDev s fun d =>
    if !d.funcUp p then d
    else if d.tdi p = .unlocked then (d.setTdi p .locked).emit (.answer (.tdisp p "LOCK_INTERFACE_RESPONSE" []))
    else d.emit (.answer (.tdispError p "LOCK_INTERFACE_REQUEST")))

/-- START_INTERFACE_REQUEST (R357). -/
def execStartInterfaceRequest (p : Nat) (s : State) : Res :=
  guarded (.startInterfaceRequest p) (onDev s fun d =>
    if !d.funcUp p then d
    else if d.tdi p = .locked then (d.setTdi p .run).emit (.answer (.tdisp p "START_INTERFACE_RESPONSE" []))
    else d.emit (.answer (.tdispError p "START_INTERFACE_REQUEST")))

/-- TDI_ERROR_TRIGGER (Table 13.6): a T = 0 access counts in RUN only. -/
def execTdiErrorTrigger (p : Nat) (t : TdiTrigger) (s : State) : Res :=
  guarded (.tdiErrorTrigger p t) (onDev s fun d =>
    if d.tdi p = .run ∨ (d.tdi p = .locked ∧ t ≠ .access) then d.tdiFail p else d)

/-! ### Wiping a partition (R358; 15 R397) -/

/-- Jobs, groups and semaphores of a partition go, with what they report. -/
def Dev.wipeJobs (d : Dev) (p : Nat) : Dev :=
  let gs : Tbl SemGroup := d.plc.group.filter fun e => e.2.part == p
  let d := gs.foldl (fun (d : Dev) (e : Nat × SemGroup) => d.endGroup e.1 e.2) d
  let d := (List.range 4).foldl (fun d i =>
    let d := d.dropParked p i
    d.setJob p i { gen := (d.job p i).gen }) d
  let mine := fun (c : Nat) => d.corePart c == some p
  let d := { d with plc := { d.plc with core := d.plc.core.filter fun e => !mine e.1, switch := tdel d.plc.switch p,
                                        remote := d.plc.remote.filter fun x => d.ringOwner x.1 != some p } }
  let d := { d with tier := { d.tier with window := tdel d.tier.window p }, ckp := { d.ckp with now := tdel d.ckp.now p } }
  let keep := fun (s : StepP) => ({ number := s.number, released := s.released, stepNs := s.stepNs } : StepP)
  ((d.noImage p).modStep p keep).showParked p

/-- Sessions of a partition go: each slot FREE under the next generation. -/
def Dev.wipeSessions (d : Dev) (p : Nat) : Dev :=
  let ls := d.sesWhere p fun s => s.st != .free
  let frames := ls.flatMap fun l => (d.ses l).pages.flatMap fun e => e.2.frames
  let d := ls.foldl (fun d l =>
    let s := d.ses l
    let d := if s.memIndex = 0xFFFFFFFF then d else d.nameIndex s.memIndex.toNat false
    d.setSes l { gen := nextGen s.gen 0x7FFFFFF }) d
  let nums := (tgetD d.tus.numbers p {})
  let d := { d with tus := { d.tus with numbers := tput d.tus.numbers p (ls.foldl (fun n l => n.give l) nums), tRe := tdel d.tus.tRe p,
                                        sent := d.tus.sent.filter fun (e : Nat × BitVec 512) => d.locOwner e.1 != some p } }
  let d := { d with kva := { d.kva with count := d.kva.count.filter fun (e : Nat × Nat) => !frames.contains e.1,
                                        zeroed := d.kva.zeroed.filter fun (e : Nat × Nat) => e.2 != p,
                                        poison := d.kva.poison.filter (fun (f : Nat) => !frames.contains f),
                                        bad := d.kva.bad.filter fun f => !frames.contains f,
                                        runs := d.kva.runs.filter fun x => x.1 != p, len := tdel d.kva.len p } }
  { d with tok := tdel d.tok p }

/-- Regions and indexes of a partition go. -/
def Dev.wipeRegions (d : Dev) (p : Nat) : Dev :=
  let is := tkeys d.red.index fun _ x => x.part == p
  let d := is.foldl (fun d i => d.dropIndex i) d
  let d := { d with red := { d.red with query := d.red.query.filter fun q => q.part != p } }
  let rs := tkeys d.tier.region fun _ r => r.part == p
  let nums := rs.foldl (fun n r => n.give r) (tgetD d.tier.numbers 0 {})
  let d := { d with tier := { d.tier with region := d.tier.region.filter fun (e : Nat × Region) => e.2.part != p,
                                          numbers := tput d.tier.numbers 0 nums,
                                          copy := d.tier.copy.filter fun c => !rs.contains c.src && !rs.contains c.dest,
                                          staged := d.tier.staged.filter fun x => !rs.contains x.1 } }
  (d.showCopies).showReed p

/-- Every frame of a partition is FREE again but those retired. -/
def Dev.wipeFrames (d : Dev) (p : Nat) : Dev :=
  let f := d.frames p
  let d := (((d.moveFrames p 1 0 f.kv).moveFrames p 2 0 f.region).moveFrames p 3 0 f.system).moveFrames p 4 0 f.reserved
  let g := fun (f : Frames) => { f with freeKv := 0, freeRegion := 0, freeMeta := 0 }
  { d with tier := { d.tier with frames := tmod d.tier.frames p {} g } }

/-- Requests of a partition's engines whose answers nothing waits for any more. -/
def Dev.wipeReqs (d : Dev) (p : Nat) : Dev :=
  { d with fab := { d.fab with req := d.fab.req.filter fun (e : Nat × Req) =>
      e.2.part != p || (match e.2.purpose with | .peer _ => true | .hostLine _ _ _ => true | _ => false) } }

/-- Jobs, sessions, indexes, regions and the contents of stacks and cores of a partition go. -/
def Dev.wipe (d : Dev) (p : Nat) : Dev := ((((d.wipeReqs p).wipeJobs p).wipeSessions p).wipeRegions p).wipeFrames p

/-! ### The scrub (R358) -/

/-- Descriptors of a partition that wait complete with TENANT_REVOKED. -/
def Dev.endWaiting (d : Dev) (p : Nat) (st : Byte) : Dev :=
  (tkeys d.rng.descs fun _ e => e.part == p && (match e.st with | .waiting (.ringDown _) => false | .waiting _ => true | _ => false)).foldl
    (fun d k => d.failOpen k st none) d

/-- STOP_INTERFACE_REQUEST: the scrub starts: every tenant is removed, the KEK zeroised (R358). -/
def execStopInterfaceRequest (p : Nat) (s : State) : Res :=
  guarded (.stopInterfaceRequest p) (onDev s fun d =>
    if !d.funcUp p then d
    else if d.tdi p = .unlocked ∨ d.tdi p = .scrubbing then d.emit (.answer (.tdispError p "STOP_INTERFACE_REQUEST"))
    else
      let d := (d.removeKeys p none []).1
      let d := d.modPr p fun x => { x with scan := [], pending := false, timer := false }
      let d := ({ d with sec := { d.sec with kek := tdel d.sec.kek p } }).setF (SEC_TDI_KEK_SET p) 0
      d.setTdi p .scrubbing)

/-- The extents of a partition returned to their homes. -/
def Dev.returnExtents (d : Dev) (p : Nat) : Dev :=
  let es := (tvals d.fab.map).filter fun e => e.dev == d.id && e.part == p
  es.foldl (fun d e =>
    let d := { d with fab := { d.fab with taken := tdel d.fab.taken e.handle.toNat,
                                          window := d.fab.window.filter fun x => x.2.extent != e.handle } }
    if hExtHome e.handle = d.id then
      match tget d.fab.extent (hExtNum e.handle) with
      | some x => d.raiseEpoch.freeExtent (hExtNum e.handle) x
      | none => d
    else
      let d := { d with fab := { d.fab with map := tdel d.fab.map e.handle.toNat } }
      d.emit (.ctrl (hExtHome e.handle) (.extentReturn e.handle 0))) d

/-- SCRUB_COMPLETE (R358): keys, extents, jobs, sessions and stacks are gone, and STOP_INTERFACE_REQUEST is answered. -/
def execScrubComplete (p : Nat) (s : State) : Res :=
  guarded (.scrubComplete p) (.next (s.onHome fun d =>
    if d.tdi p ≠ .scrubbing then d
    else
      let d := (d.sec.drain.filter fun x => x.key / 65536 == p).foldl (fun d x => d.endDrain x) d
      let d := ((d.endWaiting p stTenant).wipe p).returnExtents p
      (d.setTdi p .unlocked).emit (.answer (.tdisp p "STOP_INTERFACE_RESPONSE" []))))

end Sys2Proof.Machine
end

