-- ==== Sys2Proof/Machine/Checkpoint.lean ====
section
/-! DEFINITION. The checkpoint opcodes, shard reports, the manifest's commit, and the probes that checkpoints share with job switches
(14_checkpoint_shrink.md R364–R385; 08_cores_placement_models.md R218). -/

namespace Sys2Proof.Machine

/-! ### CKPT_START (R364, R369, R372–R374, R376) -/

/-- Ranges of CKPT_START. -/
def chkCkptStart (d : Dev) (p : Nat) (x : Desc) : Byte :=
  let st := d.jobStatus p x.target
  if st ≠ stOk then st
  else if fieldAt x 20 1 > 2 ∨ fieldAt x 21 1 = 0 ∨ fieldAt x 21 1 > 2 ∨ fieldAt x 32 8 % 64 ≠ 0 ∨ fieldAt x 48 1 > 16 ∨
      (d.storeKey p (fieldAt x 22 2)).isNone then stBad
  else stOk

/-- Greatest CKPT_ID of a ladder's manifests. -/
def Dev.lastCkpt (d : Dev) (l : U64) : Nat := ((d.ladder l).getD []).foldl (fun a m => max a m.id) 0

/-- Why a CKPT_START is refused: state and order first, then the manifest slots. -/
def Dev.ckptStatus (d : Dev) (p slot id : Nat) : Byte :=
  let j := d.job p slot
  if j.st ≠ .active ∨ !d.rootOf j ∨ (d.ckpt p).isSome ∨ id ≤ d.lastCkpt j.hdr.ladder ∨
      (d.ckp.kept.any fun x => x.part == p && x.ladder == j.hdr.ladder && decide (id ≤ x.id)) then stWrong
  else if (d.ladder j.hdr.ladder).isNone ∧ d.flash.ladders.length ≥ 16 then stLimit
  else stOk

/-- CKPT_START's effect: the lists of regions are read first. -/
def doCkptStart (d : Dev) (k : Nat) (e : DescEntry) : Dev :=
  let slot := hSlot e.d.target
  let st := d.ckptStatus e.part slot (fieldAt e.d 16 4)
  if st ≠ stOk then d.refuse k st
  else
    let n := (((d.job e.part slot).sect.map fun c => c.devices.length)).getD 1
    let d := d.emitFor e.part (.hostRead e.part (BitVec.ofNat 64 (fieldAt e.d 24 8)) (8 * n))
    let d := if fieldAt e.d 48 1 = 0 then d
      else d.emitFor e.part (.hostRead e.part (BitVec.ofNat 64 (fieldAt e.d 40 8)) (8 * fieldAt e.d 48 1))
    d.wait k .hostRead

/-- CKPT_START (R364). -/
def execCkptStart (ring : Nat) (x : Desc) (s : State) : Res :=
  guarded (.ckptStart ring x) (onDev s fun d => d.runOp 0xA0 ring x chkCkptStart doCkptStart)

/-- Every device has confirmed: the cut is listed in the next commit token (C3). -/
def Dev.listCut (d : Dev) (p : Nat) : Dev := d.modStep p fun s => { s with cut := true }

/-- C1: the region lists are here: the ladder takes its slots, this device's region is checked, and the others are probed. -/
def Dev.ckptArrived (d : Dev) (k : Nat) (bytes : List Byte) : Dev :=
  match tget d.rng.descs k with
  | none => d
  | some e =>
    let p := e.part
    let slot := hSlot e.d.target
    let st := d.ckptStatus p slot (fieldAt e.d 16 4)
    if st ≠ stOk then d.refuse k st
    else
      let j := d.job p slot
      let n := (j.sect.map fun c => c.devices.length).getD 1
      let handle := fun (i : Nat) => BitVec.ofNat 64 (leAt bytes (8 * i) 8)
      let extra := (List.range (fieldAt e.d 48 1)).map fun i => handle (n + i)
      let me := d.posIn p slot
      let far := d.others j
      let c : Ckpt := { desc := some k, job := slot, id := fieldAt e.d 16 4, mode := fieldAt e.d 20 1, peat := fieldAt e.d 21 1,
                        macKey := fieldAt e.d 22 2, manifest := BitVec.ofNat 64 (fieldAt e.d 32 8), extra := extra,
                        asked := far.map fun x => x.1, pos := me, region := hRegion (handle me) }
      if !d.shardFit p c (handle me) then d.failOpen k stBad (some (BitVec.ofNat 32 me))
      else
        let d := if (d.ladder j.hdr.ladder).isSome then d else { d with flash := { d.flash with ladders := (j.hdr.ladder, []) :: d.flash.ladders } }
        let d := (d.wait k .checkpoint).setCkpt p c
        let d := far.foldl (fun d x => d.emit (.ctrl x.2 (.probe p (.ckpt (handle x.1) c.id c.mode c.peat extra)))) d
        if far.isEmpty then d.listCut p else d

/-! ### Probes (08 R218, 14 R364, R369) -/

/-- SWITCH_PROBE: a device answers whether it holds the image LOADED, or whether its shard region is fit; then it is ready for the
cut. -/
def execSwitchProbe (p src : Nat) (probe : Probe) (s : State) : Res :=
  guarded (.switchProbe p src probe) (onDev s fun d =>
    match probe with
    | .job image =>
      match (List.range 4).find? fun i => (d.job p i).st == .loaded && (d.job p i).full == image with
      | some i => d.emit (.ctrl src (.probeAnswer p (d.posIn p i) true))
      | none =>
        let i := ((List.range 4).find? fun i => (d.job p i).st != .empty && (d.job p i).full == image).getD 0
        d.emit (.ctrl src (.probeAnswer p (d.posIn p i) false))
    | .ckpt region id mode peat extra =>
      match d.activeSlot p with
      | none => d.emit (.ctrl src (.probeAnswer p 0 false))
      | some i =>
        let c : Ckpt := { desc := none, job := i, id := id, mode := mode, peat := peat, extra := extra, pos := d.posIn p i, region := hRegion region }
        if (d.ckpt p).isNone && d.shardFit p c region then (d.setCkpt p c).emit (.ctrl src (.probeAnswer p c.pos true))
        else d.emit (.ctrl src (.probeAnswer p c.pos false)))

/-- PROBE_ANSWER: of a switch first, then of a checkpoint, whose region of that position may be unfit (R369). -/
def execProbeAnswer (p pos : Nat) (holds : Bool) (s : State) : Res :=
  guarded (.probeAnswer p pos holds) (onDev s fun d =>
    match d.probing p with
    | some x => d.switchAnswer p pos x holds
    | none =>
      match d.ckpt p with
      | none => d
      | some c =>
        if c.desc.isNone || !c.asked.contains pos then d
        else if holds then
          let c := { c with asked := c.asked.filter fun q => q != pos }
          let d := d.setCkpt p c
          if c.asked.isEmpty then d.listCut p else d
        else
          match c.desc with
          | some k => (d.dropCkpt p).failOpen k stBad (some (BitVec.ofNat 32 pos))
          | none => d)

/-- SWITCH_PROBE_TIMEOUT: 50 ms without every answer. -/
def execSwitchProbeTimeout (p : Nat) (s : State) : Res :=
  guarded (.switchProbeTimeout p) (onDev s fun d =>
    match d.probing p with
    | some x => d.switchTimeout p x
    | none =>
      match d.ckpt p with
      | some c =>
        match c.desc with
        | some k => if c.asked.isEmpty then d else (d.dropCkpt p).failOpen k stPeer none
        | none => d
      | none => d)

/-! ### The end of a checkpoint (R372–R375) -/

/-- SHARD_REPORT (C6). -/
def execShardReport (p pos sessions length : Nat) (addr : U64) (keyId : U16) (digest : Digest) (s : State) : Res :=
  guarded (.shardReport p pos sessions length addr keyId digest) (onDev s fun d => d.gotShard p pos sessions length addr keyId.toNat digest)

/-- HOLDUP_WAIT_EXPIRY (R373): the energy is still short: the checkpoint is abandoned. -/
def execHoldupWaitExpiry (p : Nat) (s : State) : Res :=
  guarded (.holdupWaitExpiry p) (onDev s fun d =>
    match d.ckpt p with
    | some c => if c.phase = 3 then (d.flag CKP_STATUS_HOLDUP_DEFER CKP_STATUS_DEFER_COUNT).abandon p stHoldup else d
    | none => d)

/-! ### CKPT_RELEASE (R367, R374) -/

/-- CKPT_RELEASE's effect. -/
def doCkptRelease (d : Dev) (k : Nat) (e : DescEntry) : Dev :=
  let p := e.part
  let j := d.job p (hSlot e.d.target)
  let l := j.hdr.ladder
  let busy := fun (id : Option Nat) => d.ckp.now.any fun x => (d.job x.1 x.2.job).hdr.ladder == l && (id.isNone || id == some x.2.id)
  if fieldAt e.d 20 1 % 2 = 1 then
    if !d.rootOf j || busy none then d.refuse k stWrong
    else
      let (d, n) := d.releaseKept fun x => x.ladder == l
      (({ d with flash := { d.flash with ladders := d.flash.ladders.filter fun x => x.1 != l } }).showLast p).ok k (BitVec.ofNat 64 n) 0
  else
    let id := fieldAt e.d 16 4
    if busy (some id) || !d.ckp.kept.any (fun x => x.part == p && x.ladder == l && x.id == id) then d.refuse k stWrong
    else
      let (d, n) := d.releaseKept fun x => x.part == p && x.ladder == l && x.id == id
      d.ok k (BitVec.ofNat 64 n) 0

/-- CKPT_RELEASE (R367). -/
def execCkptRelease (ring : Nat) (x : Desc) (s : State) : Res :=
  guarded (.ckptRelease ring x) (onDev s fun d =>
    d.runOp 0xA1 ring x
      (fun d p x =>
        let st := d.jobStatus p x.target
        if st ≠ stOk then st else if fieldAt x 20 1 % 2 = 1 ∧ fieldAt x 16 4 ≠ 0 then stBad else stOk)
      doCkptRelease)

/-! ### CKPT_RESTORE (R381, R382) -/

/-- Ranges of CKPT_RESTORE. -/
def chkCkptRestore (d : Dev) (p : Nat) (x : Desc) : Byte :=
  let st := d.jobStatus p x.target
  let only := fieldAt x 30 1 == 8 && fieldAt x 48 4 == 0
  if st ≠ stOk then st
  else if fieldAt x 32 8 % 8 ≠ 0 ∨ fieldAt x 48 4 > 65536 ∨
      (!only ∧ (fieldAt x 24 4 < 256 ∨ fieldAt x 24 4 > 128 + 80 * 256 + 48)) then stBad
  else stOk

/-- The job may be restored: LOADED, or ACTIVE and held (R381). -/
def Dev.restorable (d : Dev) (p slot : Nat) : Bool :=
  (d.job p slot).st == .loaded || ((d.job p slot).st == .active && (d.stepP p).lossHeld)

/-- CKPT_RESTORE's effect: CONTINUE alone only ends the hold; otherwise the manifest and the ADOPT list are read. -/
def doCkptRestore (d : Dev) (k : Nat) (e : DescEntry) : Dev :=
  let p := e.part
  let slot := hSlot e.d.target
  if fieldAt e.d 30 1 = 8 ∧ fieldAt e.d 48 4 = 0 then
    if (d.job p slot).st = .active && (d.stepP p).lossHeld then (d.endLossHold p).ok k 0 0 else d.refuse k stWrong
  else if !d.restorable p slot then d.refuse k stWrong
  else
    let d := d.emitFor p (.hostRead p (BitVec.ofNat 64 (fieldAt e.d 16 8)) (fieldAt e.d 24 4))
    let d := if fieldAt e.d 48 4 = 0 then d else d.emitFor p (.hostRead p (BitVec.ofNat 64 (fieldAt e.d 40 8)) (8 * fieldAt e.d 48 4))
    d.wait k .hostRead

/-- CKPT_RESTORE (R381). -/
def execCkptRestore (ring : Nat) (x : Desc) (s : State) : Res :=
  guarded (.ckptRestore ring x) (onDev s fun d => d.runOp 0xA2 ring x chkCkptRestore doCkptRestore)

/-- Why a manifest is refused: layout and HMAC, then the job that it names (Table 14.8). -/
def Dev.restoreStatus (d : Dev) (p slot what : Nat) (b : List Byte) : Byte :=
  let j := d.job p slot
  let mac := (d.manifestMac p b).map digestBytes
  if !manifestOk b || mac != some (b.drop (b.length - 48)) then stBad
  else if BitVec.ofNat 64 (leAt b 24 8) ≠ j.hdr.ladder ∨ BitVec.ofNat 384 (leAt b 32 48) ≠ j.full ∨ !d.restorable p slot ∨
      (what.testBit 2 ∧ (tget d.tus.mirror p).isNone) ∨ (what.testBit 0 ∧ leAt b 12 1 ≠ j.hdr.rung) then stWrong
  else stOk

/-- The manifest and the ADOPT list are here: the shard is read next, or the histories. -/
def Dev.restoreArrived (d : Dev) (k : Nat) (bytes : List Byte) : Dev :=
  match tget d.rng.descs k with
  | none => d
  | some e =>
    let p := e.part
    let slot := hSlot e.d.target
    let what := fieldAt e.d 30 1
    let n := fieldAt e.d 24 4
    let b := bytes.take n
    let adopt := (List.range (fieldAt e.d 48 4)).map fun i => ((0 : BitVec 512), BitVec.ofNat 64 (leAt bytes (n + 8 * i) 8), true)
    let st := d.restoreStatus p slot what b
    let pos := if fieldAt e.d 28 2 = 0xFFFF then d.posIn p slot else fieldAt e.d 28 2
    if st ≠ stOk then d.refuse k st
    else if pos ≥ leAt b 6 2 then d.refuse k stBad
    else
      let at_ := 128 + 80 * pos
      let r : Restore := { part := p, slot := slot, what := what, addr := BitVec.ofNat 64 (leAt b (at_ + 8) 8), len := leAt b (at_ + 16) 8,
                           keyId := leAt b (at_ + 24) 2, digest := BitVec.ofNat 384 (leAt b (at_ + 32) 48), todo := adopt }
      let d := { d with ckp := { d.ckp with restore := tput d.ckp.restore k r } }
      if what % 8 = 0 then d.readHistories k
      else
        let t := ceilDiv r.len tileSize
        if t = 0 then d.shardRead k r
        else (List.range t).foldl (fun d i => d.request p (.shardRead k i) (r.addr + BitVec.ofNat 64 (tileSize * i)) tileSize none) (d.wait k (.requests t))

/-! ### MANIFEST_SEAL (R383) -/

/-- MANIFEST_SEAL (R383): the manifest is read first. -/
def execManifestSeal (ring : Nat) (x : Desc) (s : State) : Res :=
  guarded (.manifestSeal ring x) (onDev s fun d =>
    d.runOp 0xA3 ring x (fun _ _ x => if fieldAt x 24 4 < 256 ∨ fieldAt x 24 4 > 128 + 80 * 256 + 48 then stBad else stOk)
      fun d k e => (d.emitFor e.part (.hostRead e.part (BitVec.ofNat 64 (fieldAt e.d 16 8)) (fieldAt e.d 24 4))).wait k .hostRead)

/-- The manifest is here: its HMAC is written in place. -/
def Dev.sealArrived (d : Dev) (k : Nat) (bytes : List Byte) : Dev :=
  match tget d.rng.descs k with
  | none => d
  | some e =>
    let n := fieldAt e.d 24 4
    let b := bytes.take n
    if !manifestOk b then d.refuse k stBad
    else match d.manifestMac e.part b with
      | none => d.refuse k stWrong
      | some m =>
        (d.emitFor e.part (.hostWrite e.part (BitVec.ofNat 64 (fieldAt e.d 16 8 + n - 48)) (digestBytes m))).ok k 0 0

end Sys2Proof.Machine
end

