-- ==== Sys2Proof/Machine/StateRead.lean ====
section
/-! DEFINITION. STATE_READ and its four kinds of record (03_rings_doorbells.md R63, R64; 04 R87, 06 R156, 08 R231, 15 R393). -/

namespace Sys2Proof.Machine

/-- A ledger record (15 Table 15.2). -/
def ledgerRecord (key : Nat) (l : Ledger) : List Byte :=
  let cls := key / 0x1000000
  let signed := fun (x : Int) => (BitVec.ofInt 64 x).toNat
  padTo 64 (record ([(1, cls), (3, key % 0x1000000), (1, ledgerPlaces cls), (1, l.result), (2, 0), (8, signed l.total)] ++
    (l.held.take (ledgerPlaces cls)).map fun x => (8, signed x)))

/-- Ledger instances that a partition may read, from an index upward (15 R393). -/
def Dev.ledgerFrom (d : Dev) (p first : Nat) : List (Nat × Ledger) :=
  d.ldg.inst.filter fun (e : Nat × Ledger) => decide (first ≤ e.1) && (e.2.part == some p || (e.2.part.isNone && d.whole))

/-- The records that a STATE_READ returns; of a page table the published version (06 R161). -/
def Dev.stateRecords (d : Dev) (p : Nat) (x : Desc) : List (List Byte) :=
  let n := fieldAt x 26 2
  let first := fieldAt x 28 4
  let loc := hLocal x.target
  match fieldAt x 24 1 with
  | 1 => [d.tussock loc]
  | 2 => (List.range n).map fun i => d.pteOf loc (first + i) ((d.ses loc).pub.getD (d.ses loc).pages)
  | 3 => (List.range n).map fun i => d.semRecord p (first + i)
  | _ => ((d.ledgerFrom p first).take n).map fun e => ledgerRecord e.1 e.2

/-- The records written to host memory. -/
def Dev.stateWrite (d : Dev) (e : DescEntry) : Dev :=
  d.emitFor e.part (.hostWrite e.part (BitVec.ofNat 64 (fieldAt e.d 16 8)) (d.stateRecords e.part e.d).flatten)

/-- Checks of STATE_READ (Table 03.6; 08 R231). -/
def chkStateRead (d : Dev) (p : Nat) (x : Desc) : Byte :=
  let kind := fieldAt x 24 1
  let n := fieldAt x 26 2
  if fieldAt x 16 8 % 64 ≠ 0 ∨ kind = 0 ∨ kind > 4 ∨ n = 0 ∨ n > 64 ∨ (kind = 1 ∧ n ≠ 1) ∨ (kind > 2 ∧ x.target ≠ 0) then stBad
  else if kind ≤ 2 then d.sessionStatus p x.target
  else if kind = 3 ∧ !((List.range n).all fun i => d.semOwned p (fieldAt x 28 4 + i)) then stDenied
  else stOk

/-- STATE_READ applied: at once, or during the commit of the next boundary. -/
def doStateRead (d : Dev) (k : Nat) (e : DescEntry) : Dev :=
  if fieldAt e.d 25 1 % 2 = 1 then d.wait k .boundaryRead else (d.stateWrite e).okOpen k

/-- STATE_READ (R64). -/
def execStateRead (ring : Nat) (x : Desc) (s : State) : Res :=
  guarded (.stateRead ring x) (onDev s fun d => d.runOp 0x06 ring x chkStateRead doStateRead)

end Sys2Proof.Machine
end

