-- ==== Sys2Proof/Machine/Release.lean ====
section
/-! DEFINITION. The end of a step other than by publication: what a retried step discards, what a halted partition completes, E12 with
the mirror and the power cap before it (02_handshake_timing.md R37, R38; 04 R111–R113; 05 R138; 06 R161; 15 R392; 16 R422, R433). -/

namespace Sys2Proof.Machine

/-! ### Frames reserved for a step (06 R168) -/

/-- Frames that running revivals hold in RESERVED (04 R105). -/
def Dev.revivalFrames (d : Dev) (p : Nat) : Nat :=
  ((d.sesWhere p fun s => s.st == .reviving).map fun l => ((d.ses l).pages.filter fun (e : Nat × Page) => !e.2.here).length).sum

/-- RESERVED frames that neither a revival nor `keep` needs return to FREE. -/
def Dev.trimReserved (d : Dev) (p keep : Nat) : Dev :=
  d.moveFrames p 4 0 ((d.frames p).reserved - (d.revivalFrames p + keep))

/-- The length table's frames reserved again after its versions were discarded. -/
def Dev.reserveAgain (d : Dev) (p : Nat) : Dev :=
  let want := ((d.lens p).map fun e => e.frames).sum + d.revivalFrames p
  d.moveFrames p 0 4 (min (want - (d.frames p).reserved) (d.freeFrames p))

/-- The step's uncommitted effects are discarded: pending versions, scattered pages, sampled tokens (05 R138, 06 R161). -/
def Dev.discardStep (d : Dev) (p : Nat) : Dev :=
  let d := (d.lens p).foldl (fun (d : Dev) e => d.discardVersion e.loc) d
  let d := d.setLens p ((d.lens p).map fun e => { e with scattered := [], parts := [], tokens := [], shards := [] })
  d.reserveAgain p

/-! ### Halted partitions (02 R38; 15 R392) -/

/-- A partition halts: every outstanding descriptor but the excepted ones completes with LEDGER_FAULT. -/
def Dev.haltPart (d : Dev) (p : Nat) : Dev :=
  let d := (d.setPhase p 5).modStep p fun s => { s with stage := .none, token := none, due := [], esp := none, reports := [], held := false }
  (tkeys d.rng.descs fun _ e => e.part == p && haltRefuses e.op e.d).foldl (fun d k => d.refuseHalted k) d

/-! ### The mirror (04 R111–R113) -/

/-- Records of the partition's sessions that differ from those the peer was last sent; the record of a freed slot keeps its handle,
so that the peer can tell which slot it frees. -/
def Dev.mirrorRecords (d : Dev) (p : Nat) (all : Bool) : List (Nat × BitVec 512) :=
  let rec_ := fun (l : Nat) =>
    let s := d.ses l
    if s.st = .free then BitVec.ofNat 512 (mkHandle d.id p s.gen l).toNat else BitVec.ofNat 512 (leNat (d.tussock l))
  ((d.sesWhere p fun _ => true).map fun l => (l, rec_ l)).filter fun x => all || tget d.tus.sent x.1 != some x.2

/-- Records sent to the peer, whose acknowledgement is awaited. -/
def Dev.mirrorSend (d : Dev) (p : Nat) (all : Bool) : Dev :=
  let rs := d.mirrorRecords p all
  let d := d.emit (.ctrl (d.getB (TUS_MIRROR_CFG_PEER p)) (.mirror p (rs.map fun x => x.2)))
  { d with tus := { d.tus with awaited := p :: d.tus.awaited.filter (· != p),
                               sent := rs.foldl (fun (t : Tbl (BitVec 512)) x => tput t x.1 x.2) d.tus.sent } }

/-- No acknowledgement of a partition's mirror is awaited any more. -/
def Dev.mirrorHeard (d : Dev) (p : Nat) : Dev := { d with tus := { d.tus with awaited := d.tus.awaited.filter (· != p) } }

/-- After E11 (R112): changed records go to the peer, and E12 waits when the mirror is in use. A mirror just switched on is first filled
in the background (R113). MSTATE: 0 OFF, 1 SYNCING, 2 MIRRORED, 3 LOST. -/
def Dev.mirrorE11 (d : Dev) (p : Nat) : Dev :=
  if d.getB (TUS_MIRROR_CFG_EN p) = 0 then (d.mirrorHeard p).setL (TUS_COUNT_MSTATE p) 0
  else match d.getL (TUS_COUNT_MSTATE p) with
    | 0 => (d.mirrorSend p true).setL (TUS_COUNT_MSTATE p) 1
    | 1 => if d.tus.awaited.contains p then d else (d.mirrorSend p false).modStep p fun s => { s with stage := .mirror }
    | 2 => (d.mirrorSend p false).modStep p fun s => { s with stage := .mirror }
    | _ => d

/-! ### E12 -/

/-- E12: the next step is released, or the partition is IDLE; what the boundary owes is completed. -/
def Dev.releaseStep (d : Dev) (p : Nat) : Dev :=
  let due := (d.stepP p).due
  let d := d.modStep p fun s => { s with stage := .none, token := none, due := [], released := d.clock.now }
  let d := if d.getL (TUS_COUNT_MSTATE p) = 1 && !d.tus.awaited.contains p then d.setL (TUS_COUNT_MSTATE p) 2 else d
  let d := (d.setPhase p (if (d.lens p).isEmpty then 6 else 0)).stallAt p 0
  (d.payDue due).switchDone p

/-- C-die that a stack attaches to (01 Table 01.2): M10 has 3, 2, 3, 2 stacks on its dies, the others as many on each. -/
def Dev.stackDie (d : Dev) (s : Nat) : Nat :=
  if d.getF GLB_ASSEMBLY_STACKS = 10 then (if s < 3 then 0 else if s < 5 then 1 else if s < 8 then 2 else 3) else s * 4 / d.getF GLB_ASSEMBLY_STACKS

/-- Die of a unit that is at or above 95 °C: a die 0–8, or that of stack `s` for 16 + s. -/
def Dev.hotUnitDie (d : Dev) (u : Nat) : Nat := if u < 16 then u else d.stackDie (u - 16)

/-- Heat holds the E12 of a partition: with cores on the die concerned, or every one when it is the K-die or an L-die (16 Table 16.3). -/
def Dev.heatHolds (d : Dev) (p : Nat) : Bool :=
  d.pwr.veryHot.any fun u => decide (d.hotUnitDie u ≥ 4) || d.reg (PLC_PART_CORES p (d.hotUnitDie u)) != 0

/-- E12 of a partition is held: the power cap cannot be met otherwise (16 R422), heat (Table 16.3), or the device is shutting down. -/
def Dev.e12Held (d : Dev) (p : Nat) : Bool := d.pwr.capHold || d.stopping || d.heatHolds p

/-- E12 once the mirror has answered. -/
def Dev.endCommit (d : Dev) (p : Nat) : Dev :=
  if (d.stepP p).stage = .mirror then d
  else if d.e12Held p then
    let d := d.modStep p fun s => { s with stage := .power }
    { d with pwr := { d.pwr with held := p :: d.pwr.held.filter (· != p) } }
  else d.releaseStep p

/-- A held E12 goes on where nothing holds it any more (16 R422). -/
def Dev.resumeHeld (d : Dev) : Dev :=
  let ps := d.pwr.held.filter fun p => !d.e12Held p
  let d := { d with pwr := { d.pwr with held := d.pwr.held.filter fun p => !ps.contains p } }
  ps.foldl (fun d p => if (d.stepP p).stage = .power then d.releaseStep p else d) d

end Sys2Proof.Machine
end

