-- ==== Sys2Proof/Machine/Power.lean ====
section
/-! DEFINITION. Rails, the power cap, heat, coolant and the hold-up bank (16_power_cooling_holdup.md R416–R430). -/

namespace Sys2Proof.Machine

/-! ### Rails (R418, R419) -/

/-- Millivolts of an operating point (02 Table 02.1). -/
def pointMv (n : Nat) : Nat := if n = 3 then 850 else if n = 2 then 750 else 650

/-- Highest point that partitions with a property request in force; N1 when there are none (log 44). -/
def Dev.pointOf (d : Dev) (c : Nat → Bool) : Nat :=
  ((List.range 8).filter fun p => d.present p && c p).foldl (fun a p => max a (d.getB (PWR_OP_REQ p))) 1

/-- Target of a rail (R419). -/
def Dev.railTarget (d : Dev) (r : Nat) : Nat :=
  pointMv (if r < 4 then d.pointOf fun p => d.reg (PLC_PART_CORES p r) != 0 else d.pointOf fun _ => true)

/-- The limits of a rail in the order of LIMITED_BY: cap, heat, coolant, PWR_BRAKE#. -/
def Dev.railLimits (d : Dev) (r : Nat) : List Nat :=
  [d.pwr.capLimit.getD r 850, d.pwr.thLimit.getD r 850, if d.pwr.reversed then 650 else 850, if d.pins.pwrBrake then 850 else 650]

/-- Die rails are on: from U4 to the end of the self-test; on the power-loss and emergency paths the K-die's alone (Tables 16.8, 16.11). -/
def Dev.railOn (d : Dev) (r : Nat) : Bool :=
  match d.pwr.seq with
  | .off | .u1 | .u2 | .x7 | .y7 => false
  | .y1 | .y5 => r == 4
  | _ => true

/-- Voltage of a rail in mV (R419), never below 0.65 V while it is on; 0.65 V at U4 and on the hold-up load (R429). -/
def Dev.railMv (d : Dev) (r : Nat) : Nat :=
  if !d.railOn r then 0
  else match d.pwr.seq with
    | .u4 | .y1 | .y5 => 650
    | _ => max 650 ((d.railLimits r).foldl min (d.railTarget r))

/-- PWR_RAILS shows the rails and what holds them down. -/
def Dev.showRails (d : Dev) : Dev :=
  let v := fun (r : Nat) => d.railMv r / 5
  let bits := (List.range 4).filter fun i => (List.range 6).any fun r =>
    d.railOn r && (d.railLimits r).getD i 850 == d.railMv r && decide (d.railMv r < d.railTarget r)
  let d := ((d.setF PWR_RAILS_C0_V (v 0)).setF PWR_RAILS_C1_V (v 1)).setF PWR_RAILS_C2_V (v 2)
  let d := ((d.setF PWR_RAILS_C3_V (v 3)).setF PWR_RAILS_K_V (v 4)).setF PWR_RAILS_L_V (v 5)
  d.setF PWR_RAILS_LIMITED_BY (bits.map fun i => 2 ^ i).sum

/-! ### The cap (R421, R422) -/

/-- The cap in force: the lowest that is set, and the option's maximum. -/
def Dev.cap (d : Dev) : Nat :=
  let soft := [d.getF PWR_CAP_CAP_W, d.getF PWR_CAP_SIDEBAND_W].filter fun c => c != 0
  let own := d.pwr.ownCaps ++ (if d.pwr.ignored.contains 2 then [1600] else [])
  (soft ++ own).foldl min (d.getF PWR_CAPS_MAX_W)

/-- EFFECTIVE_W shows it. -/
def Dev.showCap (d : Dev) : Dev := d.setF PWR_CAP_EFFECTIVE_W d.cap

/-- Limits of some rails changed. -/
def limitsAt (ls : List Nat) (rs : List Nat) (f : Nat → Nat → Nat) : List Nat :=
  ls.zipIdx.map fun x => if rs.contains x.2 then f x.2 x.1 else x.1

/-- Rails that run above 0.65 V, of some. -/
def Dev.aboveFloor (d : Dev) (rs : List Nat) : List Nat := rs.filter fun r => decide (d.railMv r > 650)

/-- STEP_HELD set. -/
def Dev.stepHeld (d : Dev) : Dev := d.flag PWR_STATUS_STEP_HELD PWR_EVENTS_HELD_COUNT

/-- The Puppeteer's control cores as master (13 Table 13.2; log 16). -/
def puppeteer : Nat := 0x110

/-- A device-scope fault of the power block, for which the manual states no address. -/
def Dev.powerFault (d : Dev) (code : Nat) : Dev := d.raiseOpen none code puppeteer

/-- The loop against the cap (R422): C-dies go down first, then the K-die and L-dies, then E12 is held; up in the reverse order. -/
def Dev.capStep (d : Dev) (avg : Nat) : Dev :=
  let down := fun (rs : List Nat) => limitsAt d.pwr.capLimit rs fun r _ => max 650 (d.railMv r - 10)
  let up := fun (rs : List Nat) => limitsAt d.pwr.capLimit rs fun _ v => min 850 (v + 10)
  let low := fun (rs : List Nat) => rs.any fun r => decide (d.pwr.capLimit.getD r 850 < d.railTarget r)
  if avg > d.cap then
    if !(d.aboveFloor [0, 1, 2, 3]).isEmpty then { d with pwr := { d.pwr with capLimit := down [0, 1, 2, 3] } }
    else if !(d.aboveFloor [4, 5]).isEmpty then { d with pwr := { d.pwr with capLimit := down [4, 5] } }
    else if d.pwr.capHold then d
    else ({ d with pwr := { d.pwr with capHold := true } }).stepHeld.powerFault 0x0F12
  else
    let d := if d.pwr.capHold && decide (avg < d.cap) then { d with pwr := { d.pwr with capHold := false } } else d
    if 100 * avg < 97 * d.cap then
      { d with pwr := { d.pwr with capLimit := if low [4, 5] then up [4, 5] else if low [0, 1, 2, 3] then up [0, 1, 2, 3] else d.pwr.capLimit } }
    else d

/-! ### Heat (R424) -/

/-- Rail of a die. -/
def dieRail (die : Nat) : Nat := min die 5

/-- Rails that a hot die or stack lowers. -/
def Dev.hotRails (d : Dev) : List Nat := d.pwr.hotDie.map dieRail ++ d.pwr.hotStack.map d.stackDie

/-- Rails that a unit at or above 95 °C holds at 0.65 V. -/
def Dev.pinnedRails (d : Dev) : List Nat := d.pwr.veryHot.map fun u => dieRail (d.hotUnitDie u)

/-- Every 100 µs: rails of what is hot go down by 10 mV, others up again. -/
def Dev.heatStep (d : Dev) : Dev :=
  let hot := d.hotRails
  let pin := d.pinnedRails
  let f := fun (r v : Nat) => if pin.contains r then 650 else if hot.contains r then max 650 (d.railMv r - 10) else min 850 (v + 10)
  let limited := (List.range 6).any fun r => d.railOn r && d.pwr.thLimit.getD r 850 == d.railMv r && decide (d.railMv r < d.railTarget r)
  let d := if limited then d.setF PWR_THERMAL_THROTTLE_US (min (d.getF PWR_THERMAL_THROTTLE_US + 100) (2 ^ 32 - 1)) else d
  { d with pwr := { d.pwr with thLimit := limitsAt d.pwr.thLimit (List.range 6) f } }

/-- E12 hold time of the latest 10 ms. -/
def Dev.countHold (d : Dev) : Dev :=
  let hs := ((!d.pwr.held.isEmpty) :: d.pwr.holds).take 100
  let d := { d with pwr := { d.pwr with holds := hs } }
  d.setF PWR_CAP_HOLD_US (100 * (hs.filter fun h => h).length)

/-- Every die is powered and the Puppeteer runs. -/
def Dev.running (d : Dev) : Bool :=
  match d.pwr.seq with
  | .u5 | .u6 | .x1 | .x5 => true
  | _ => false

/-- POWER_LOOP_PERIOD (R422, R424). -/
def execPowerLoopPeriod (avgW : U16) (s : State) : Res :=
  guarded (.powerLoopPeriod avgW) (onDev s fun d =>
    if !d.running then d
    else
      let d := (d.setF PWR_INPUT_AVG_W avgW.toNat).showCap
      ((((d.capStep avgW.toNat).heatStep).countHold).showRails).resumeHeld)

/-- The hottest of a list, with its index. -/
def hottest (ts : List Nat) : Nat × Nat := ts.zipIdx.foldl (fun a x => if x.1 > a.1 then x else a) (0, 0)

/-- Units of a list that satisfy a condition, or stay above a lower one. -/
def episode (ts : List Nat) (old : List Nat) (on until_ base : Nat) : List Nat :=
  (ts.zipIdx.filter fun x => decide (x.1 ≥ on) || (old.contains (base + x.2) && decide (x.1 ≥ until_))).map fun x => base + x.2

/-- THERMAL_SAMPLE (R424): what is hot, from the samples of the dies and stacks. -/
def execThermalSample (dies hbms : List Nat) (s : State) : Res :=
  guarded (.thermalSample dies hbms) (onDev s fun d =>
    if !d.running then d
    else
      let t := hottest dies
      let h := hottest hbms
      let d := ((d.setF PWR_THERMAL_TJ_MAX t.1).setF PWR_THERMAL_TJ_DIE t.2).setF PWR_THERMAL_HBM_MAX h.1
      let d := d.setF PWR_THERMAL_HBM_STACK h.2
      let tj := d.getF PWR_TH_CFG_TJ_THROTTLE
      let th := d.getF PWR_TH_CFG_HBM_THROTTLE
      let hotD := episode dies d.pwr.hotDie tj (tj - 3) 0
      let very := episode dies d.pwr.veryHot 95 93 0 ++ episode hbms d.pwr.veryHot 95 93 16
      let newHot := d.pwr.hotDie.isEmpty && !hotD.isEmpty
      let newVery := d.pwr.veryHot.isEmpty && !very.isEmpty
      let p := { d.pwr with hotDie := hotD, hotStack := episode hbms d.pwr.hotStack th (th - 3) 0, veryHot := very,
                            trip := episode dies [] 100 100 0 ++ episode hbms [] 100 100 16 }
      let d := { d with pwr := p }
      let d := { d with pwr := { d.pwr with thLimit := limitsAt d.pwr.thLimit d.pinnedRails fun _ _ => 650 } }
      let d := if newHot then (d.flag PWR_STATUS_THERMAL PWR_EVENTS_THERMAL_COUNT).powerFault 0x0F13 else d
      let d := if newVery then d.stepHeld else d
      d.showRails.resumeHeld)

/-- PWR_BRAKE_ASSERT (R423). -/
def execPwrBrakeAssert (s : State) : Res :=
  guarded .pwrBrakeAssert (onDev s fun d => ({ d with pins := { d.pins with pwrBrake := false } }).showRails)

/-- PWR_BRAKE_DEASSERT (R423). -/
def execPwrBrakeDeassert (s : State) : Res :=
  guarded .pwrBrakeDeassert (onDev s fun d => ({ d with pins := { d.pins with pwrBrake := true } }).showRails)

/-! ### The guarantee (15 R394; 16 R427, R430) -/

/-- SUPPORTED: a verified slice map, coolant within its limits, a bank that a snapshot and the reserve fit. -/
def Dev.supported (d : Dev) : Bool :=
  d.getF PWR_STATE_STATE != 2 && !d.pwr.coolBad && decide (10 * d.getF PWR_HOLDUP_CFG_RESERVE_J + 171 ≤ d.pwr.fullJ)

/-- LDG_GUARANTEE recomputed. -/
def Dev.showGuarantee (d : Dev) : Dev :=
  let bit := fun (b : Bool) => if b then 1 else 0
  let fw := d.getF GLB_FW_PRODUCTION == 1
  let noOver := !(d.flash.overlay.any fun x => x.source == 1)
  let d := ((d.setF LDG_GUARANTEE_PRODUCTION_FW (bit fw)).setF LDG_GUARANTEE_NO_OVERRIDE (bit noOver)).setF LDG_GUARANTEE_SUPPORTED (bit d.supported)
  d.setF LDG_GUARANTEE_GUARANTEE (bit (fw && noOver && d.supported && d.getF LDG_GUARANTEE_INJECTED == 0))

/-! ### Energy (R428, R430) -/

/-- Usable energy of a full bank in 0.1 J: ½ × C × (75² − 25²), less the ESR loss at 90 W, P × R × C × ln 3, both from C in mF and R in
0.1 mΩ; the lower bound of ±2 % (log 45). -/
def fullEnergy (cap esr : Nat) : Nat := (cap * 25 - cap * esr * 98875 / 1000000000) * 98 / 100

/-- The bank is measured at full charge: degraded below 720 J or above 1.5 times the factory ESR (R430). -/
def Dev.measureBank (d : Dev) (cap esr : Nat) : Dev :=
  let d := { d with pwr := { d.pwr with fullJ := fullEnergy cap esr } }
  let d := d.setF PWR_HOLDUP_ESR esr
  let d := if d.pwr.fullJ < 7200 ∨ esr > Config.esrLimit then
      (d.flag PWR_STATUS_HOLDUP_DEGRADED PWR_EVENTS_DEGRADED_COUNT).powerFault 0x0F19 else d
  d.showGuarantee

/-- Bytes that a snapshot writes. -/
def Dev.snapshotBytes (d : Dev) : Nat := 64 * (d.tus.slot.filter fun (e : Nat × Session) => e.2.st != .free).length

/-- Cost of a snapshot in 0.1 J, rounded up: 1.0 J and 0.063 J per MiB (Table 16.7). -/
def Dev.snapshotCost (d : Dev) : Nat := 10 + ceilDiv (63 * d.snapshotBytes) 104857600

/-- Table 16.7: a snapshot is skipped. -/
def Dev.skipSnapshot (d : Dev) : Dev := (d.flag PWR_STATUS_HOLDUP_SHORT PWR_EVENTS_SHORT_COUNT).powerFault 0x0F18

/-- The snapshot is written over the older slot (R436). -/
def Dev.storeSnapshot (d : Dev) : Dev :=
  let x : Snapshot := { epoch := d.flash.epoch, map := (d.flash.map.map fun m => m.digest).getD 0,
                        sessions := d.tus.slot.filter fun (e : Nat × Session) => e.2.st != .free }
  { d with flash := { d.flash with snaps := (x :: d.flash.snaps).take 2 }, pwr := { d.pwr with noSnap := true } }

end Sys2Proof.Machine
end

