-- ==== Sys2Proof/Machine/Shutdown.lean ====
section
/-! DEFINITION. The orderly shut-down, the power-loss and emergency paths, and the closing self-test
(16_power_cooling_holdup.md R431–R437; 15_ledger_faults_selftest.md R402–R408). -/

namespace Sys2Proof.Machine

/-! ### Module states (R431) -/

/-- PWR_STATE shows a state and what keeping flash records of stops. -/
def Dev.setState (d : Dev) (n : Nat) : Dev :=
  ((d.setF PWR_STATE_STATE n).setF PWR_STATE_LAST_REASON d.flash.reason).setF PWR_STATE_SHUTDOWNS d.flash.shutdowns

/-- A stop recorded in keeping flash. -/
def Dev.noteStop (d : Dev) : Dev :=
  { d with flash := { d.flash with shutdowns := d.flash.shutdowns + 1, reason := d.pwr.reason } }

/-- State at each point where the dies are off (Table 16.8). -/
def coldState : SeqPoint → Nat
  | .u5 => 1
  | .x7 => 6
  | _ => 0

/-- The dies are off, or start again: all but keeping flash, the sideband and the bank is as at reset. -/
def Dev.cold (d : Dev) (at_ : SeqPoint) : Dev :=
  let p : Pwr := { seq := at_, input := d.pwr.input, failed := d.pwr.failed, ignored := d.pwr.ignored, fullJ := d.pwr.fullJ,
                   wet := d.pwr.wet, pldm := d.pwr.pldm, eid := d.pwr.eid }
  let gens := d.tus.slot.map fun (e : Nat × Session) => (e.1, ({ gen := e.2.gen } : Session))
  let x : Dev := { flash := d.flash, out := d.out, free := d.free, pins := d.pins, pwr := p, tus := { slot := gens, base := d.tus.base } }
  (x.setState (coldState at_)).showRails

/-- What the HBM held is lost. -/
def Dev.hbmLost (d : Dev) : Bool :=
  match d.pwr.seq with
  | .u6 | .x1 | .x5 | .z2 | .y1 | .y5 => false
  | _ => true

/-- A row that may take power from the HBM, or zero it: the bytes lent to the pool go with it. -/
def State.onPower (s : State) (f : Dev → Dev) : State :=
  let d := f s.dev
  { s with dev := d, mem := if d.hbmLost then [] else s.mem }

/-- A pin driven. -/
def Dev.drive (d : Dev) (name : String) (level : Bool) : Dev := d.emit (.pin name level)

/-- MOD_READY goes low. -/
def Dev.notReady (d : Dev) : Dev :=
  if d.pins.modReady then ({ d with pins := { d.pins with modReady := false } }).drive "MOD_READY" false else d

/-- DXL, pool and host ports stopped (X4); with the host ports go the log rings. -/
def Dev.stopPorts (d : Dev) : Dev :=
  let d := (List.range 32).foldl (fun d n => d.setF (FAB_PORT_STATE n) 0) d
  let d := (List.range 8).foldl (fun d p => (d.setReg (RNG_ERRLOG p) 0).setReg (RNG_TELEM p) 0) d
  { d with fab := { d.fab with port := [], req := [] } }

/-! ### The closing self-test (15 R402–R408) -/

/-- X6, Z1: the self-test is entered. -/
def Dev.selftestStart (d : Dev) : Dev :=
  let d := { d with pwr := { d.pwr with seq := .z2, noSnap := true, waitCharge := false }, ldg := { d.ldg with selftest := [], passed := [] } }
  let d := ((d.setF LDG_SELFTEST_PHASE 2).setF LDG_SELFTEST_DURATION_MS 0).setF LDG_SELFTEST_FAILED 0
  d.setState 5

/-- The overlay write's cost, 0.1 J (Table 16.7). -/
def overlayCost : Nat := 8

/-- Z2: secrets, core stores, K-die SRAM and every stack are zeroed (R403). -/
def Dev.zeroise (d : Dev) : Dev :=
  { d with sec := {}, rng := {}, step := [], tier := {}, kva := {}, ari := [], plc := {}, tok := [], red := {}, fab := {}, slu := {}, ckp := {},
           tus := { slot := d.tus.slot.map fun (e : Nat × Session) => (e.1, ({ gen := e.2.gen } : Session)), base := d.tus.base } }

/-- A unit failed (R404): kind 8 is a repair, no failure; kind 0 stands for the hold-up bank, which is degraded (log 46). -/
def Dev.unitFailed (d : Dev) (u : TestUnit) : Dev :=
  let d := { d with ldg := { d.ldg with selftest := d.ldg.selftest ++ [u] }, flash := { d.flash with failed := d.flash.failed ++ [u] } }
  if u.kind = 8 then d
  else
    let d := (d.flag LDG_STATUS_SELFTEST_FAIL LDG_EVENTS_SELFTEST_COUNT).powerFault 0x0E13
    let d := d.setF LDG_SELFTEST_FAILED (min (d.getF LDG_SELFTEST_FAILED + 1) 0xFFFF)
    if u.kind = 0 then (d.flag PWR_STATUS_HOLDUP_DEGRADED PWR_EVENTS_DEGRADED_COUNT).powerFault 0x0F19 else d

/-- What a testing phase found. -/
def Dev.testResults (d : Dev) (r : PhaseResult) : Dev :=
  let d := r.failed.foldl (fun d u => d.unitFailed u) d
  { d with ldg := { d.ldg with passed := d.ldg.passed ++ r.passed } }

/-- Overlay entries for units that failed: a mark is renewed or added. -/
def markFailed (es : List OverlayEnt) (us : List TestUnit) (source epoch : Nat) : List OverlayEnt :=
  (us.filter fun u => u.kind != 0).foldl (fun es u =>
    if es.any fun x => x.kind == u.kind && x.unit == u.unit && x.source != 1 then
      es.map fun x => if x.kind == u.kind && x.unit == u.unit && x.source != 1 then { x with passes := 0, epoch := epoch } else x
    else es ++ [{ kind := u.kind, source := source, passes := 0, unit := u.unit, epoch := epoch }]) es

/-- Overlay entries after a test that units passed: after 3 passes in a row a unit is usable again (R408). -/
def markPassed (es : List OverlayEnt) (us : List TestUnit) : List OverlayEnt :=
  (es.map fun x => if x.source != 1 && us.any (fun u => u.kind == x.kind && u.unit == x.unit) then { x with passes := x.passes + 1 } else x).filter
    fun x => x.source == 1 || decide (x.passes < 3)

/-- Z8 and X7, or the restart that takes its place (R433). -/
def Dev.selftestEnd (d : Dev) : Dev :=
  let d := d.setF LDG_SELFTEST_PHASE 8
  let d := { d with flash := { d.flash with testMs := d.getF LDG_SELFTEST_DURATION_MS, testFailed := d.getF LDG_SELFTEST_FAILED } }
  let d := d.noteStop
  if d.pwr.restart then d.cold .u4
  else ({ d.cold .x7 with pins := { d.pins with smbAlert := false } }).drive "SMB_ALERT#" false

/-- Z7 done: the overlay is written and VALID. -/
def Dev.overlayDone (d : Dev) : Dev :=
  let es := markFailed (markPassed d.flash.overlay d.ldg.passed) d.flash.failed 0 d.flash.epoch
  let d := { d with flash := { d.flash with overlay := es, overState := 1, overEpoch := d.flash.epoch, failed := [] } }
  (d.endDurable overlayCost).selftestEnd

/-- Z7: the overlay is written where the energy covers it; else it is left STALE (R405). -/
def Dev.overlayWrite (d : Dev) : Dev :=
  if d.durableOk overlayCost then
    ({ d.startDurable overlayCost with pwr := { d.pwr with seq := .z7 } }).setF LDG_SELFTEST_PHASE 7
  else ({ d with flash := { d.flash with overState := 2 } }).selftestEnd

/-- The self-test goes on to a phase. -/
def Dev.toPhase (d : Dev) (at_ : SeqPoint) (n : Nat) : Dev := ({ d with pwr := { d.pwr with seq := at_ } }).setF LDG_SELFTEST_PHASE n

/-- SELFTEST_PHASE_DONE (15 R402, R403): when the readback after Z2 fails, Z3 to Z5 are skipped. -/
def execSelftestPhaseDone (r : PhaseResult) (s : State) : Res :=
  guarded (.selftestPhaseDone r) (.next (s.onPower fun d =>
    let more := fun (d : Dev) => d.addF LDG_SELFTEST_DURATION_MS r.ms
    match d.pwr.seq with
    | .z2 =>
      let d := (more d).zeroise
      if r.readbackZero then d.toPhase .z3 3
      else ((d.flag LDG_STATUS_SELFTEST_FAIL LDG_EVENTS_SELFTEST_COUNT).raise none 0x0E13 0 2 puppeteer).toPhase .z6 6
    | .z3 => (more d).toPhase .z4 4
    | .z4 => ((more d).testResults r).toPhase .z5 5
    | .z5 => ((more d).testResults r).toPhase .z6 6
    | .z6 => ((more d).testResults r).overlayWrite
    | .z7 => (more d).overlayDone
    | _ => d))

/-! ### The orderly shut-down (R433) -/

/-- A partition has reached X2: it is absent, halted or idle, or its E12 is held. -/
def Dev.quiet (d : Dev) (p : Nat) : Bool := !d.present p || d.phase p == 5 || d.phase p == 6 || (d.stepP p).stage == .power

/-- X5: the Tussock snapshot, which may wait for charge. -/
def Dev.shutSnapshot (d : Dev) : Dev :=
  if d.pwr.noSnap then d.selftestStart
  else if d.durableOk d.snapshotCost then { d.startDurable d.snapshotCost with pwr := { d.pwr with seq := .x5, waitCharge := false } }
  else { d with pwr := { d.pwr with seq := .x5, waitCharge := true } }

/-- X3 to X5: outstanding descriptors complete with PEER_LOST, ports stop, the snapshot follows. -/
def Dev.shutDown (d : Dev) : Dev :=
  let d := (d.rng.descs.map fun e => e.1).foldl (fun d k => d.failOpen k stPeer none) d
  d.stopPorts.shutSnapshot

/-- X2 ends when every partition is quiet and no manifest is being written; other checkpoints are abandoned (14 R375). -/
def Dev.shutdownOn (d : Dev) : Dev :=
  if d.pwr.seq ≠ .x1 ∨ !(List.range 8).all d.quiet then d
  else
    let d := (d.ckp.now.filter fun (e : Nat × Ckpt) => e.2.phase != 4).foldl (fun (d : Dev) (e : Nat × Ckpt) => d.abandon e.1 stPeer) d
    if d.ckp.now.isEmpty then d.shutDown else d

/-- X1: an orderly shut-down starts, unless a path runs already (17 R453). -/
def Dev.shutdownStart (d : Dev) (restart : Bool) (reason : Nat) : Dev :=
  match d.pwr.seq with
  | .u5 | .u6 =>
    let d := { d with pwr := { d.pwr with seq := .x1, restart := restart, reason := reason } }
    let d := (d.notReady).setState 4
    let d := (List.range 8).foldl (fun d p => d.modPr p fun x => { x with scan := [], pending := false, timer := false }) d
    d.shutdownOn
  | _ => d

/-- SHUTDOWN_STEP_TIMEOUT (X2): the step in progress is discarded. -/
def execShutdownStepTimeout (s : State) : Res :=
  guarded .shutdownStepTimeout (.next (s.onPower fun d =>
    if d.pwr.seq ≠ .x1 then d
    else
      let ps := (List.range 8).filter fun p => !d.quiet p
      let d := ps.foldl (fun d p => (d.discardStep p).modStep p fun x => { x with stage := .power }) d
      d.shutdownOn))

/-- SNAPSHOT_CHARGE_TIMEOUT (X5): 10 s without enough charge: the snapshot is skipped. -/
def execSnapshotChargeTimeout (s : State) : Res :=
  guarded .snapshotChargeTimeout (.next (s.onPower fun d =>
    if d.pwr.seq = .x5 ∧ d.pwr.waitCharge then d.skipSnapshot.selftestStart else d))

/-! ### Power loss and emergency (R434, R435) -/

/-- Y6 and Y7: secrets are gone with the power; what follows depends on the trigger (R435). -/
def Dev.pathEnd (d : Dev) : Dev :=
  let d := { d with flash := { d.flash with overState := if d.flash.overState = 1 then 2 else d.flash.overState } }
  let d := d.noteStop
  d.cold (if !d.pwr.input then .off else if d.pwr.restart then .u4 else .y7)

/-- Y5: the snapshot, if R429 admits it. -/
def Dev.pathSnapshot (d : Dev) : Dev :=
  if d.pwr.noSnap then d.pathEnd
  else if d.durableOk d.snapshotCost then { d.startDurable d.snapshotCost with pwr := { d.pwr with seq := .y5 } }
  else d.skipSnapshot.pathEnd

/-- Y3: a durable commit in progress is completed first. -/
def Dev.pathOn (d : Dev) : Dev := if d.getF PWR_HOLDUP_COMMITTED ≠ 0 then d else d.pathSnapshot

/-- Y1 to Y4 for a trigger with its LAST_REASON and its fault record; a path that runs already goes on. -/
def Dev.emergency (d : Dev) (reason : Nat) (record : Dev → Dev) : Dev :=
  match d.pwr.seq with
  | .off | .u1 | .u2 | .u4 | .x7 | .y1 | .y5 | .y7 => d
  | _ =>
    let d := record d
    let d := { d with pwr := { d.pwr with seq := .y1, reason := reason, restart := reason == 7 || reason == 8, waitCharge := false } }
    let d := (d.notReady.setState 7).stopPorts
    let d := ((List.range 8).filter d.present).foldl (fun d p => d.discardStep p) d
    d.showRails.pathOn

/-- A fault record of a trigger for which the manual states no code: CODE is a free value (log 43). -/
def Dev.openRecord (d : Dev) : Dev :=
  let (v, d) := d.draw
  d.powerFault (v.toNat % 65536)

/-- MOD_RESET_HELD_5S (R434). -/
def execModResetHeld5s (s : State) : Res :=
  guarded .modResetHeld5s (.next (s.onPower fun d => ({ d with pins := { d.pins with modReset := false } }).emergency 8 Dev.openRecord))

/-- WATCHDOG_TIMEOUT (R434). -/
def execWatchdogTimeout (s : State) : Res := guarded .watchdogTimeout (.next (s.onPower fun d => d.emergency 7 Dev.openRecord))

/-- RAIL_FAULT (R417): a C-die's rail stays failed. -/
def execRailFault (die : Nat) (s : State) : Res :=
  guarded (.railFault die) (.next (s.onPower fun d =>
    if !d.running then d
    else
      let d := if die < 4 then { d with pwr := { d.pwr with failed := die :: d.pwr.failed.filter (· != die) } } else d
      d.emergency 6 fun d => d.powerFault 0x0F11))

/-- THERMAL_TRIP_TIMEOUT (R424): the unit is still at or above 100 °C. -/
def execThermalTripTimeout (isStack : Bool) (unit : Nat) (s : State) : Res :=
  guarded (.thermalTripTimeout isStack unit) (.next (s.onPower fun d =>
    if d.pwr.trip.contains (if isStack then 16 + unit else unit) then d.emergency 4 fun d => d.powerFault 0x0F14 else d))

/-- INPUT_EVENT set, with its record. -/
def Dev.inputEvent (d : Dev) : Dev := (d.flag PWR_STATUS_INPUT_EVENT PWR_EVENTS_INPUT_COUNT).powerFault 0x0F10

/-- The latched outputs, released by removal of input power (17 Table 17.5). -/
def Dev.releaseAlerts (d : Dev) : Dev :=
  let d := if d.pins.leakAlert then d else ({ d with pins := { d.pins with leakAlert := true } }).drive "LEAK_ALERT#" true
  if d.pins.smbAlert then d else ({ d with pins := { d.pins with smbAlert := true } }).drive "SMB_ALERT#" true

/-- The input is gone or disconnected: a running module takes the power-loss path, any other is off. -/
def Dev.loseInput (d : Dev) (reason : Nat) (present : Bool) : Dev :=
  let d := { d with pwr := { d.pwr with input := present } }
  match d.pwr.seq with
  | .u1 | .u2 | .u4 | .x7 | .y7 =>
    ({ d.releaseAlerts with pwr := { d.pwr with input := false } }).cold .off
  | _ => d.emergency reason Dev.inputEvent

/-- INPUT_VOLTAGE_EVENT (R417). A current trip disconnects an input that is still there (log 47). -/
def execInputVoltageEvent (e : InputEvent) (s : State) : Res :=
  guarded (.inputVoltageEvent e) (.next (s.onPower fun d =>
    match e with
    | .currentTrip => d.loseInput 6 true
    | .voltage mv =>
      let d := d.setF PWR_INPUT_VOLTAGE (min mv 0xFFFF)
      if mv < 44000 ∨ mv > 58000 then d.loseInput 2 false
      else if mv < 48000 then
        if d.pwr.excursion || !d.running then d else ({ d with pwr := { d.pwr with excursion := true } }).inputEvent
      else { d with pwr := { d.pwr with excursion := false } }))

/-! ### Durable commits that end (R429) -/

/-- What waits for a durable commit goes on: X2, or Y3. -/
def Dev.afterCommit (d : Dev) : Dev :=
  match d.pwr.seq with
  | .x1 => d.shutdownOn
  | .y1 => d.pathOn
  | _ => d

/-- The manifest of a partition's checkpoint is in keeping flash (14 R372 C8–C10). -/
def Dev.manifestDone (d : Dev) (p : Nat) : Dev :=
  match d.ckpt p with
  | some c =>
    match c.desc with
    | some k => if c.phase = 4 then (d.commitManifest p c k).afterCommit else d
    | none => d
  | none => d

/-- MANIFEST_WRITE_DONE (14 R372). -/
def execManifestWriteDone (p : Nat) (s : State) : Res :=
  guarded (.manifestWriteDone p) (.next (s.onPower fun d => d.manifestDone p))

/-- The snapshot is in keeping flash (R436). -/
def Dev.snapshotDone (d : Dev) : Dev :=
  match d.pwr.seq with
  | .x5 => if d.pwr.waitCharge then d else ((d.endDurable d.snapshotCost).storeSnapshot).selftestStart
  | .y5 => ((d.endDurable d.snapshotCost).storeSnapshot).pathEnd
  | _ => d

/-- SNAPSHOT_WRITE_DONE (R436). -/
def execSnapshotWriteDone (s : State) : Res := guarded .snapshotWriteDone (.next (s.onPower fun d => d.snapshotDone))

/-- DURABLE_COMMIT_DONE (R429): of a manifest, the overlay or the snapshot, whichever is in progress. -/
def execDurableCommitDone (kind : Nat) (s : State) : Res :=
  guarded (.durableCommitDone kind) (.next (s.onPower fun d =>
    match kind with
    | 0 => (d.ckp.now.find? fun (e : Nat × Ckpt) => e.2.phase == 4).elim d fun e => d.manifestDone e.1
    | 1 => if d.pwr.seq = .z7 then d.overlayDone else d
    | _ => d.snapshotDone))

/-- HOLDUP_MEASURE (R428): USABLE, and what waited for energy. -/
def execHoldupMeasure (bankV usable : U16) (s : State) : Res :=
  guarded (.holdupMeasure bankV usable) (.next (s.onPower fun d =>
    let d := (d.setF PWR_HOLDUP_BANK_V bankV.toNat).setF PWR_HOLDUP_USABLE usable.toNat
    let d := (d.ckp.now.map fun (e : Nat × Ckpt) => e.1).foldl (fun d p => d.ckptHoldup p) d
    if d.pwr.seq = .x5 ∧ d.pwr.waitCharge then d.shutSnapshot else d))

/-! ### Coolant (R425–R427) -/

/-- Flow in 0.01 L/min inferred from input power and the temperature difference (R426), with the figures of R425: 2.4 L/min carry
0.0408 kg/s at 3.9 kJ/kg·K (log 48). -/
def Dev.inferFlow (d : Dev) (c : Coolant) : Int :=
  if c.outlet ≤ c.inlet then 0 else (d.getF PWR_INPUT_AVG_W * 58820 / (3900 * (c.outlet - c.inlet)) : Nat)

/-- Flow that the device acts on. -/
def Dev.flow (d : Dev) (c : Coolant) : Int := if d.pwr.ignored.contains 2 then d.inferFlow c else c.flow

/-- PWR_COOLANT shows the sensors. -/
def Dev.showCoolant (d : Dev) (c : Coolant) : Dev :=
  let d := ((d.setF PWR_COOLANT_INLET c.inlet).setF PWR_COOLANT_OUTLET c.outlet).setF PWR_COOLANT_PRESSURE c.pressure
  (d.setF PWR_COOLANT_FLOW (BitVec.ofInt 16 (d.flow c)).toNat).setF PWR_COOLANT_LEAK_NOW (if c.leak && !d.pwr.ignored.contains 4 then 1 else 0)

/-- A leak: LEAK_ALERT# until input power is removed, and the emergency path. -/
def Dev.leak (d : Dev) : Dev :=
  if d.pwr.wet then d
  else
    let d := ({ d with pwr := { d.pwr with wet := true }, pins := { d.pins with leakAlert := false } }).drive "LEAK_ALERT#" false
    d.emergency 3 fun d => (d.flag PWR_STATUS_LEAK PWR_EVENTS_LEAK_COUNT).powerFault 0x0F17

/-- LEAK_DETECT (R427). -/
def execLeakDetect (s : State) : Res :=
  guarded .leakDetect (.next (s.onPower fun d => if d.pwr.seq = .off then d else (d.setF PWR_COOLANT_LEAK_NOW 1).leak))

/-- COOLANT_FAULT set, with a record. -/
def Dev.coolantFault (d : Dev) (code : Nat) : Dev := (d.flag PWR_STATUS_COOLANT_FAULT PWR_EVENTS_COOLANT_COUNT).powerFault code

/-- COOLANT_SAMPLE (R427): what Table 16.6 asks for at once; the conditions that act after a time have rows of their own. -/
def Dev.coolantSample (d : Dev) (c : Coolant) : Dev :=
  let d := d.showCoolant c
  let flow := d.flow c
  let least : Int := (d.getF PWR_CAPS_MAX_W / 10 : Nat)
  let use := fun (i : Nat) => !d.pwr.ignored.contains i
  let inlet := use 0 && decide (c.inlet > 450)
  let out := use 1 && decide (c.outlet > 650)
  let weak := decide (0 ≤ flow ∧ flow < least)
  let back := (use 2 && decide (flow < 0)) || (use 0 && use 1 && decide (c.outlet + 20 < c.inlet ∧ d.getF PWR_INPUT_AVG_W > 500))
  let caps := (if inlet then [2400 - 8 * (min c.inlet 500 - 450)] else []) ++ (if weak then [10 * flow.toNat] else [])
  let fresh := !(d.pwr.coolBad && !d.pwr.reversed) && (inlet || out || weak)
  let turned := back && !d.pwr.reversed
  let p := { d.pwr with ownCaps := caps, reversed := back, lowFlow := decide (0 ≤ flow ∧ flow < 50), hotInlet := use 0 && decide (c.inlet > 500),
                        coolBad := inlet || out || weak || back || d.pwr.wet }
  let d := { d with pwr := p }
  let d := if fresh then d.coolantFault 0x0F15 else d
  let d := if turned then d.coolantFault 0x0F16 else d
  let d := d.showCap.showRails.showGuarantee
  let d := if c.leak && use 4 then d.leak else d
  if out then d.shutdownStart false 5 else d

/-- COOLANT_SAMPLE (R427). -/
def execCoolantSample (c : Coolant) (s : State) : Res :=
  guarded (.coolantSample c) (.next (s.onPower fun d => if d.running then d.coolantSample c else d))

/-- COOLANT_CONDITION_TIMEOUT (R427): hot inlet for 10 s, or flow below 0.5 L/min for 1 s. -/
def execCoolantConditionTimeout (c : CoolantCond) (s : State) : Res :=
  guarded (.coolantConditionTimeout c) (.next (s.onPower fun d =>
    match c with
    | .inletHigh => if d.pwr.hotInlet then d.shutdownStart false 5 else d
    | .flowLow => if d.pwr.lowFlow then d.emergency 5 fun d => d.powerFault 0x0F15 else d))

/-- COOLANT_REVERSED_TIMEOUT (R427). -/
def execCoolantReversedTimeout (s : State) : Res :=
  guarded .coolantReversedTimeout (.next (s.onPower fun d => if d.pwr.reversed then d.shutdownStart false 5 else d))

/-- SENSOR_DISAGREE_TIMEOUT (R426): the sensor is ignored and marked; SOURCE of the mark is not stated (log 43). -/
def execSensorDisagreeTimeout (sensor : Nat) (s : State) : Res :=
  guarded (.sensorDisagreeTimeout sensor) (onDev s fun d =>
    if d.pwr.ignored.contains sensor then d
    else
      let (v, d) := d.draw
      let es := markFailed d.flash.overlay [{ kind := 7, unit := sensor }] (v.toNat % 256) d.flash.epoch
      let d := { d with pwr := { d.pwr with ignored := sensor :: d.pwr.ignored }, flash := { d.flash with overlay := es } }
      ((d.flag PWR_STATUS_SENSOR_FAULT PWR_EVENTS_SENSOR_COUNT).powerFault 0x0F1A).showCap)

end Sys2Proof.Machine
end

