-- ==== Sys2Proof/Machine/Startup.lean ====
section
/-! DEFINITION. Power-up: from connection to READY or RECOVERY (16_power_cooling_holdup.md R432, R433, R435–R437; 15 R405–R411; 13 R341–R344;
17 R454). -/

namespace Sys2Proof.Machine

/-! ### U1 to U5 -/

/-- U1: input above the start threshold; its removal has released the latched outputs (Table 16.6, Table 17.5). -/
def Dev.inputOn (d : Dev) (mv : Nat) : Dev :=
  let d := { d.releaseAlerts with pwr := { d.pwr with seq := .u1, input := true, wet := false, failed := [] } }
  d.setF PWR_INPUT_VOLTAGE mv

/-- POWER_CONNECT (R432, 15 Table 15.10): a reversed input starts nothing. -/
def execPowerConnect (mv : Nat) (reversed : Bool) (s : State) : Res :=
  guarded (.powerConnect mv reversed) (.next (s.onPower fun d =>
    if d.pwr.seq = .off ∧ !reversed ∧ 46000 < mv ∧ mv ≤ 58000 then d.inputOn mv else d))

/-- OVERVOLTAGE_RESTART (R416): the input is back below 56 V. -/
def execOvervoltageRestart (mv : Nat) (s : State) : Res :=
  guarded (.overvoltageRestart mv) (.next (s.onPower fun d =>
    if d.pwr.seq = .off ∧ 46000 < mv ∧ mv < 56000 then d.inputOn mv else d))

/-- STANDBY_RAILS_UP (U2): the sideband answers. -/
def execStandbyRailsUp (s : State) : Res :=
  guarded .standbyRailsUp (.next (s.onPower fun d =>
    if d.pwr.seq = .u1 then ({ d with pwr := { d.pwr with seq := .u2 } }).setState 0 else d))

/-- The option's maximum (00 R3), W. -/
def Hw.maxW (h : Hw) : Nat := 1760 + 30 * h.hbms + 70 * h.ldies

/-- U3: forward flow at least half the minimum, inlet 15–45 °C, no leak, usable temperature sensors (R426, R432). -/
def Dev.coolantOk (d : Dev) (h : Hw) (c : Coolant) : Bool :=
  decide (20 * d.flow c ≥ (h.maxW : Int)) && decide (150 ≤ c.inlet ∧ c.inlet ≤ 450) && !(c.leak && !d.pwr.ignored.contains 4) && !d.pwr.wet &&
    !d.pwr.ignored.contains 0 && !d.pwr.ignored.contains 1

/-- COOLANT_CHECK_TICK (U3, U4): the core rails ramp to 0.65 V when the check passes. -/
def execCoolantCheckTick (c : Coolant) (s : State) : Res :=
  guarded (.coolantCheckTick c) (.next (s.onPower fun d =>
    if d.pwr.seq ≠ .u2 then d
    else
      let d := d.showCoolant c
      if d.coolantOk s.hw c then ({ d with pwr := { d.pwr with seq := .u4 } }).showRails else d))

/-- RESET_RELEASE (U5): the bank is measured. -/
def execResetRelease (bankV esr cap : Nat) (s : State) : Res :=
  guarded (.resetRelease bankV esr cap) (.next (s.onPower fun d =>
    if d.pwr.seq ≠ .u4 then d
    else
      let d := ({ d with pwr := { d.pwr with seq := .u5, eid := 0 } }).setState 1
      let d := ((d.setF PWR_CAPS_MAX_W s.hw.maxW).setF PWR_HOLDUP_BANK_V bankV).measureBank cap esr
      d.showCap.showRails))

/-! ### Firmware (17 R454) -/

/-- A slot's image verifies and is not below the anti-rollback fuses. -/
def Dev.fwOk (d : Dev) (x : FwSlot) : Bool := x.ok && decide (d.flash.fuseSec.toNat ≤ x.sec.toNat)

/-- Slot B holds the newer image. -/
def Dev.fwNewerB (d : Dev) : Bool :=
  match d.flash.slotA, d.flash.slotB with
  | some a, some b => decide (a.version.toNat < b.version.toNat)
  | none, some _ => true
  | _, none => false

/-- Slot that the boot ROM runs (false: A), and whether it fell back; none when both fail. -/
def Dev.fwChoice (d : Dev) : Option (Bool × Bool) :=
  let newer := d.fwNewerB
  let at_ := fun (b : Bool) => if b then d.flash.slotB else d.flash.slotA
  if (at_ newer).any d.fwOk then some (newer, false) else if (at_ !newer).any d.fwOk then some (!newer, true) else none

/-- The firmware of a slot runs. -/
def Dev.runFw (d : Dev) (b : Bool) : Dev :=
  match (if b then d.flash.slotB else d.flash.slotA) with
  | none => d
  | some x =>
    let d := { d with flash := { d.flash with running := b } }
    let d := ((d.setF GLB_FW_FW_VERSION x.version.toNat).setF GLB_FW_SEC_VERSION x.sec.toNat).setF GLB_FW_SLOT (if b then 1 else 0)
    d.setF GLB_FW_PRODUCTION (if x.prod then 1 else 0)

/-! ### The slice map (13 R341–R343) -/

/-- Ranges, as first and count, that are disjoint. -/
def disjoint : List (Nat × Nat) → Bool
  | [] => true
  | x :: r => (r.all fun y => decide (x.1 + x.2 ≤ y.1 ∨ y.1 + y.2 ≤ x.1 ∨ x.2 = 0 ∨ y.2 = 0)) && disjoint r

/-- Masks that share no bit. -/
def disjointMasks : List Nat → Bool
  | [] => true
  | x :: r => (r.all fun y => x &&& y == 0) && disjointMasks r

/-- Ranges that are disjoint and end within a limit. -/
def rangesOk (limit : Nat) (rs : List (Nat × Nat)) : Bool := disjoint rs && rs.all fun r => decide (r.1 + r.2 ≤ limit)

/-- Frames that one copy of the system areas takes (R343). -/
def areaFrames (m : SliceMap) (h : Hw) : Nat :=
  4096 + h.hbms * 1024 + h.hbms * 64 + ceilDiv (16 * m.lent) 65536 + ceilDiv m.mirrorB 65536

/-- The map verifies against an owner key that is not revoked (R342). -/
def Dev.mapSigned (d : Dev) (m : SliceMap) : Bool := m.sigOk &&& ~~~d.flash.revoked != 0

/-- The map keeps the rules of the manual (R341–R343, 00 R5, 03 R49, Table 13.1). -/
def mapOk (m : SliceMap) (h : Hw) : Bool :=
  let ps := m.parts
  let n := ps.length
  let cores := fun (c : Nat) => ps.map fun x => (x.cores.getD c 0).toNat
  (if m.whole then ps.map (fun x => x.p) == [0] && ps.all (fun x => x.ringFirst == 0 && x.ringCount == 4096 && x.vecFirst == 0 && x.vecCount == 2048)
   else decide (2 ≤ n ∧ n ≤ 8) && decide ((ps.map fun x => x.p).Nodup) && ps.all (fun x => decide (x.p < 8))) &&
  m.hostRole != 0 && decide (m.hostRole.toNat < 2 ^ h.ldies) && decide (m.deviceId < 4096) && decide (m.routes.length ≤ 64) &&
  ps.all (fun x => decide (x.ringCount > 0) && (x.hostPorts &&& ~~~m.hostRole) == 0 && decide (x.portMask.toNat < 2 ^ (8 * h.ldies))) &&
  rangesOk 4096 (ps.map fun x => (x.ringFirst, x.ringCount)) && rangesOk 2048 (ps.map fun x => (x.vecFirst, x.vecCount)) &&
  rangesOk 4194304 (ps.map fun x => (x.localFirst, x.localCount)) && rangesOk 4194304 (ps.map fun x => (x.indexFirst, x.indexCount)) &&
  rangesOk 128 (ps.map fun x => (x.bankFirst, x.banks)) && rangesOk 16384 (ps.map fun x => (x.shaperFirst, x.shaperCount)) &&
  decide ((ps.map fun x => x.reeds).sum ≤ 4096 ∧ (ps.map fun x => x.pages).sum ≤ 3072 ∧ (ps.map fun x => x.keyQuota).sum ≤ 4096) &&
  (List.range 4).all (fun c => disjointMasks (cores c)) && disjointMasks (ps.map fun x => x.stackMask.toNat) &&
  ps.all (fun x => decide (x.stackMask.toNat < 2 ^ h.hbms)) && decide (m.perStack ≤ 1048576) &&
  decide (2 * areaFrames m h + m.lent ≤ m.perStack * h.hbms)

/-! ### The overlay at start (15 R405–R408) -/

/-- Marks of one kind. -/
def Dev.marked (d : Dev) (kind : Nat) : List Nat := ((d.flash.overlay.filter fun x => x.kind == kind).map fun x => x.unit).eraseDups

/-- Overrides that the sideband asked for are written or removed; a STALE overlay takes the failures recorded since it was written. -/
def Dev.startOverlay (d : Dev) : Dev :=
  let es := d.flash.overrides.foldl (fun (es : List OverlayEnt) (o : Nat × Nat × Nat) =>
    let mine := fun (x : OverlayEnt) => x.source == 1 && x.kind == o.1 && x.unit == o.2.1
    if o.2.2 = 1 then es.filter fun x => !mine x
    else if es.any mine then es
    else es ++ [{ kind := o.1, source := 1, passes := 0, unit := o.2.1, epoch := d.flash.epoch }]) d.flash.overlay
  let es := if d.flash.overState = 1 then es else markFailed es d.flash.failed 0 d.flash.epoch
  let d := { d with flash := { d.flash with overlay := es, overrides := [] } }
  let d := ((d.setF LDG_OVERLAY_STATE d.flash.overState).setF LDG_OVERLAY_EPOCH d.flash.overEpoch).setF LDG_OVERLAY_ENTRIES es.length
  let d := (d.setF LDG_SELFTEST_DURATION_MS d.flash.testMs).setF LDG_SELFTEST_FAILED d.flash.testFailed
  let d := d.setF LDG_FLASHLOG_NEXT d.flash.next
  { d with pwr := { d.pwr with ignored := (d.pwr.ignored ++ (d.marked 7).filter fun u => u < 5).eraseDups } }

/-- Frames of a stack that partitions can use: those outside its system reserve, less what the overlay removes (13 R343, Table 15.8). A
pseudo-channel is taken as 16,384 frames in a row from the stack's start. -/
def Dev.stackFrames (d : Dev) (perStack s : Nat) : Nat :=
  let top := 1048576 - perStack
  let pcs := ((d.marked 3).filter fun u => u / 64 == s).map fun u => u % 64
  let frames := ((d.marked 5).filter fun u => u / 1048576 == s && decide (u % 1048576 < top)).filter fun u => !pcs.contains (u % 1048576 / 16384)
  top - (pcs.map fun c => min 16384 (top - 16384 * c)).sum - frames.length

/-- Usable cores of a C-die (R209, R410). -/
def Dev.coreMask (d : Dev) (c : Nat) : U64 :=
  if d.pwr.failed.contains c then 0
  else (d.marked 1).foldl (fun (m : U64) u => if u / 64 = c then m &&& ~~~BitVec.ofNat 64 (2 ^ (u % 64)) else m) (BitVec.allOnes 64)

/-! ### Registers and accounts from the slice map (Table 13.1) -/

/-- A ledger instance opened with all of its units in place 0 (15 R388). -/
def Dev.openLed (d : Dev) (cls inst n : Nat) (part : Option Nat) : Dev :=
  let l := Ledger.empty part
  d.setLed cls inst { l with total := n, held := addAt l.held 0 n, actual := addAt l.actual 0 n }

/-- What one partition is given. -/
def Dev.startPart (d : Dev) (m : SliceMap) (x : SlicePart) : Dev :=
  let p := x.p
  let quota := min x.frames (((List.range 12).filter fun s => x.stackMask.getLsbD s).map fun s => d.stackFrames m.perStack s).sum
  let d := ((d.setF (RNG_PART_RINGS_RING_FIRST p) x.ringFirst).setF (RNG_PART_RINGS_RING_COUNT p) x.ringCount).setF (RNG_PART_RINGS_VEC_FIRST p) x.vecFirst
  let d := ((d.setF (RNG_PART_RINGS_VEC_COUNT p) x.vecCount).setF (TUS_PART_FIRST p) x.localFirst).setF (TUS_PART_COUNT p) x.localCount
  let d := ((d.setF (RED_PART_FIRST p) x.indexFirst).setF (RED_PART_COUNT p) x.indexCount).setF (RED_QUOTA_REEDS p) x.reeds
  let d := ((d.setF (RED_QUOTA_PAGES p) x.pages).setF (PLC_SEM_FIRST_BANK p) x.bankFirst).setF (PLC_SEM_BANKS p) x.banks
  let d := ((d.setF (SLU_PART_SHAPER_FIRST p) x.shaperFirst).setF (SLU_PART_SHAPER_COUNT p) x.shaperCount).setF (SEC_PART_KEY_QUOTA p) x.keyQuota
  let d := ((d.setF (SEC_PART_HOST_PORTS p) x.hostPorts.toNat).setF (SEC_PART_STACKS p) x.stackMask.toNat).setF (SEC_PART_PORT_MASK p) x.portMask.toNat
  let d := d.setF (SEC_PART_WHOLE p) (if m.whole then 1 else 0)
  let d := (List.range 4).foldl (fun (d : Dev) c => d.setReg (PLC_PART_CORES p c) (x.cores.getD c 0 &&& d.coreMask c)) d
  let d := (((d.setF (TIER_FRAMES_QUOTA p) quota).setF (TIER_FRAMES_FREE p) quota).setL (TIER_FRAMES_QUOTA p) quota).setL (TIER_FRAMES_FREE p) quota
  let f : Frames := { free := quota }
  let d := { d with tier := { d.tier with frames := tput d.tier.frames p f } }
  let d := ((d.openLed 0 p quota (some p)).openLed 1 p 0 (some p)).openLed 5 (1 + p) x.pages (some p)
  d.setPhase p 6

/-- Registers of the assembly, the fabric and the system areas (00 R1, 05 R151, 11 R305, R323). -/
def Dev.startFabric (d : Dev) (m : SliceMap) (h : Hw) : Dev :=
  let d := ((d.setF GLB_ID_SERIAL Config.serial.toNat).setF GLB_ASSEMBLY_STACKS h.hbms).setF GLB_ASSEMBLY_L_DIES h.ldies
  let d := d.setF GLB_ASSEMBLY_HOST_ROLE m.hostRole.toNat
  let d := ((d.setF FAB_ID_DEVICE_ID m.deviceId).setF FAB_ID_POSITION m.position).setF FAB_ID_SIZE_M1 m.sizeM1
  let d := ((d.setF FAB_ID_CHAIN (if m.chain then 1 else 0)).setF FAB_CAPS_PORTS (8 * h.ldies)).setF FAB_CAPS_PCIE_PORTS h.ldies
  let d := (d.setF FAB_LEND_LENT_FRAMES m.lent).setF FAB_LEND_FREE_FRAMES m.lent
  let d := (m.roles.filter fun r => decide (r.1 < 8 * h.ldies)).foldl (fun (d : Dev) r => d.setF (FAB_PORT_ROLE r.1) r.2) d
  let d := (m.routes.take 64).zipIdx.foldl (fun (d : Dev) (x : RouteEnt × Nat) =>
    let d := ((d.setF (FAB_ROUTE_FIRST_ID x.2) x.1.first).setF (FAB_ROUTE_LAST_ID x.2) x.1.last).setF (FAB_ROUTE_VALID x.2) 1
    d.setF (FAB_ROUTE_PORT_MASK x.2) x.1.ports.toNat) d
  let d := { d with fab := { d.fab with route := m.routes } }
  let d := (d.setF TIER_RESERVE_PER_STACK m.perStack).setF TIER_RESERVE_SYSTEM_FRAMES (2 * areaFrames m h)
  let d := d.setF TIER_CAPACITY_T1_FRAMES ((List.range h.hbms).map fun s => d.stackFrames m.perStack s).sum
  let d := (d.setReg TUS_TABLE_BASE (d.devAddr (Config.areaOffset 0).toNat)).setReg KVA_COUNT_BASE (d.devAddr (Config.areaOffset 1).toNat)
  let d := (List.range 4).foldl (fun (d : Dev) c => d.setReg (PLC_CORE_MASK c) (d.coreMask c)) d
  let d := d.setF RED_CAPS_PIPES (d.getF RED_CAPS_PIPES - (d.marked 4).length)
  let slowest := fun (n : Nat) => (List.range 4).foldl (fun a c => max a (Config.calNs c 0 n).toNat) 0
  let d := ((d.setF ARI_CAL_N1_NS (slowest 1)).setF ARI_CAL_N2_NS (slowest 2)).setF ARI_CAL_N3_NS (slowest 3)
  let d := d.setF ARI_CAL_DONE 1
  let d := (List.range h.ldies).foldl (fun (d : Dev) l => d.openLed 4 (l + 1) 0 none) ((d.openLed 4 0 m.lent none).openLed 5 0 128 none)
  d

/-! ### Sessions of the newest snapshot (R436) -/

/-- A restored session. -/
def Session.restored (s : Session) (now : U64) : Session :=
  { gen := s.gen, st := .parked, depth := 2, pin := s.pin, cls := s.cls, prio := s.prio, positions := s.positions, ptVersion := s.ptVersion,
    dropped := 0xFFFF, keyId := s.keyId, histAddr := s.histAddr, stateTime := now, staged := s.staged, listSet := s.listSet,
    profile := s.profile, carry := s.carry, histReg := regionLimit, hist := s.hist }

/-- Slot numbers of a partition when some are taken. -/
def numbersOf (first : Nat) (used : List Nat) : Numbers :=
  let n := used.foldl (fun a l => max a (l + 1 - first)) 0
  { fresh := n, freed := ((List.range n).map fun i => first + i).filter fun l => !used.contains l }

/-- Sessions come back from the newest snapshot where it was taken under the map now verified; every other slot is FREE, its generation
raised by one, except at the module's first start, which no handle precedes. -/
def Dev.restoreSessions (d : Dev) (m : SliceMap) : Dev :=
  let top := 0x7FFFFFF
  let up := fun (g : Nat) => if d.flash.shutdowns = 0 then g else nextGen g top
  let back : Tbl Session := match d.flash.snaps with
    | x :: _ => if x.map = m.digest then
        (x.sessions.filter fun (e : Nat × Session) => (d.locOwner e.1).isSome && e.2.st != .closing && e.2.st != .faulted && e.2.st != .free) else []
    | [] => []
  let old := d.tus.slot.map fun (e : Nat × Session) => (e.1, ({ gen := up e.2.gen } : Session))
  let slot := back.foldl (fun (t : Tbl Session) (e : Nat × Session) => tput t e.1 (e.2.restored d.clock.now)) old
  let nums := (List.range 8).foldl (fun (t : Tbl Numbers) p =>
    let used := (back.filter fun (e : Nat × Session) => d.locOwner e.1 == some p).map fun (e : Nat × Session) => e.1
    if used.isEmpty then t else tput t p (numbersOf (d.getF (TUS_PART_FIRST p)) used)) []
  { d with tus := { slot := slot, numbers := nums, base := up d.tus.base } }

/-! ### U6 -/

/-- The recovery state (R437). -/
def Dev.recovery (d : Dev) : Dev := (({ d with pwr := { d.pwr with seq := .u6 } }).setState 2).showCap.showRails.showGuarantee

/-- READY (U6). -/
def Dev.ready (d : Dev) : Dev :=
  let d := { d with pwr := { d.pwr with seq := .u6, noSnap := false }, pins := { d.pins with modReady := true }, sec := { d.sec with system := true } }
  ((d.setState 3).drive "MOD_READY" true).showCap.showRails.showGuarantee

/-- A K-die failure keeps the device in the recovery state (15 R410). -/
def startBad (r : StartResult) : Bool := !r.engineOk || !r.sramOk || !r.refOk || decide (r.puppeteer < 20)

/-- START_PHASES_DONE: firmware, slice map, overlay, engines, sessions. -/
def Dev.startUp (d : Dev) (h : Hw) (r : StartResult) : Dev :=
  let d := { d with flash := { d.flash with epoch := d.flash.epoch + 1 } }
  let d := (d.setF PWR_CAPS_MAX_W h.maxW).setReg SEC_BOOT_EPOCH (BitVec.ofNat 64 (d.flash.epoch % 2 ^ 24))
  match d.fwChoice with
  | none => d.recovery
  | some (b, fell) =>
    let d := d.runFw b
    let d := if fell then d.raiseOpen none 0x0011 puppeteer else d
    let d := { d with flash := { d.flash with map := d.flash.staged.orElse fun _ => d.flash.map, staged := none } }
    match d.flash.map.filter fun m => d.mapSigned m && mapOk m h with
    | none => (d.raiseOpen none 0x0C16 puppeteer).recovery
    | some m =>
      let d := d.startOverlay
      if startBad r then d.recovery
      else
        let d := d.startFabric m h
        let d := m.parts.foldl (fun (d : Dev) x => d.startPart m x) d
        (d.restoreSessions m).ready

/-- START_PHASES_DONE (15 R409): HBM is zeroed in them. -/
def execStartPhasesDone (r : StartResult) (s : State) : Res :=
  guarded (.startPhasesDone r) (if s.dev.pwr.seq = .u5 then .next { s with dev := s.dev.startUp s.hw r, mem := [] } else .next s)

/-! ### MOD_RESET# (R433, R435) -/

/-- A restart request: from READY an orderly shut-down first, from STANDBY after a stop the coolant check again unless there was a leak. -/
def Dev.restartRequest (d : Dev) : Dev :=
  match d.pwr.seq with
  | .y7 => if d.pwr.wet then d else { d with pwr := { d.pwr with seq := .u2 } }
  | _ => d.shutdownStart true 1

/-- MOD_RESET_RELEASE: a pulse below 1 µs is not seen, one below 10 ms is reported only, one of up to 5 s restarts the module. -/
def execModResetRelease (us : Nat) (s : State) : Res :=
  guarded (.modResetRelease us) (.next (s.onPower fun d =>
    let d := { d with pins := { d.pins with modReset := true } }
    if us < 1 then d
    else if us < 10000 then (if d.running then d.powerFault 0x0F1B else d)
    else if us ≤ 5000000 then d.restartRequest else d))

end Sys2Proof.Machine
end

