-- ==== Sys2Proof/Machine/Sideband.lean ====
section
/-! DEFINITION. The sideband: MCTP, PLDM with its sensors, effecters and OEM commands, firmware update, stuck or damaged links
(17_registers_connectors.md R449–R454; 15_ledger_faults_selftest.md R411). -/

namespace Sys2Proof.Machine

/-- The sideband answers: the standby rails are up (16 Table 16.9 U2). -/
def Dev.sideband (d : Dev) : Bool :=
  match d.pwr.seq with
  | .off | .u1 => false
  | _ => true

/-- A sideband row, which only a powered sideband serves. -/
def Dev.served (d : Dev) (f : Dev → Dev) : Dev := if d.sideband then f d else d

/-- PLDM SUCCESS, ERROR_INVALID_DATA, ERROR_UNSUPPORTED_PLDM_CMD (DSP0240). -/
def pldmOk : Nat := 0
/-- ERROR_INVALID_DATA. -/
def pldmInvalid : Nat := 2
/-- ERROR_UNSUPPORTED_PLDM_CMD. -/
def pldmUnsupported : Nat := 5

/-- An answer with a completion code. -/
def Dev.pldmCode (d : Dev) (code : Nat) : Dev := d.emit (.answer (.pldm code 0))

/-- An answer whose completion code the manual does not state (log 43). -/
def Dev.pldmOpen (d : Dev) : Dev :=
  let (v, d) := d.draw
  d.pldmCode (v.toNat % 256)

/-! ### Reading a register (00 R8, 02 R30, 17 R442) -/

/-- A beat-rate register of an absent L-die. -/
def Dev.deadBeat (d : Dev) (off : Nat) : Bool :=
  decide (GLB_BEAT_RATE 5 ≤ off ∧ off ≤ GLB_BEAT_RATE 8 ∧ (off - GLB_BEAT_RATE 5) / 8 ≥ d.getF GLB_ASSEMBLY_L_DIES)

/-- What a read of a register returns, and the device after it: RC fields return to their reload value, which is that at reset. -/
def Dev.readReg (d : Dev) (off : Nat) : U64 × Dev :=
  match regAt off with
  | none => (BitVec.allOnes 64, d)
  | some (r, _) =>
    if off = GLB_TIME then (d.clock.now, d)
    else if d.deadBeat off then (0, d)
    else
      let v := d.reg off
      (v &&& ~~~r.wo, if r.rc = 0 then d else d.setReg off ((v &&& ~~~r.rc) ||| (r.reset &&& r.rc)))

/-! ### MCTP and platform monitoring (R451, R452) -/

/-- SET_ENDPOINT_ID (R451). -/
def execSetEndpointId (eid : Byte) (s : State) : Res :=
  guarded (.setEndpointId eid) (onDev s fun d => d.served fun d =>
    ({ d with pwr := { d.pwr with eid := eid } }).emit (.answer (.mctp eid)))

/-- Quantities of the sensors of Table 17.6. -/
def Dev.sensors (d : Dev) : Tbl Int :=
  let u := fun (f : Fld) => (d.getF f : Int)
  [(0x0001, u PWR_INPUT_AVG_W), (0x0002, u PWR_INPUT_VOLTAGE), (0x0003, u PWR_COOLANT_INLET), (0x0004, u PWR_COOLANT_OUTLET),
   (0x0005, signedOf 16 (d.getF PWR_COOLANT_FLOW)), (0x0006, u PWR_COOLANT_PRESSURE), (0x0007, u PWR_THERMAL_TJ_MAX),
   (0x0008, u PWR_THERMAL_HBM_MAX), (0x0009, u PWR_HOLDUP_USABLE)] ++
  ((List.range 9).map fun i => (0x0010 + i, if d.deadBeat (GLB_BEAT_RATE i) then 0 else u (GLB_BEAT_RATE_RATE i))) ++
  [(0x0020, u PWR_STATE_STATE), (0x0021, u PWR_COOLANT_LEAK_NOW)]

/-- SENSOR_REFRESH_TICK (R452). -/
def execSensorRefreshTick (s : State) : Res :=
  guarded .sensorRefreshTick (onDev s fun d => d.served fun d => { d with pwr := { d.pwr with pldm := d.sensors } })

/-- PLDM_GET_SENSOR_READING (R452): the reading of the last refresh. -/
def execPldmGetSensorReading (id : Nat) (s : State) : Res :=
  guarded (.pldmGetSensorReading id) (onDev s fun d => d.served fun d =>
    if (tget d.sensors id).isSome then d.emit (.answer (.pldm pldmOk (tgetD d.pwr.pldm id 0))) else d.pldmOpen)

/-- PLDM_SET_POWER_CAP (R452). -/
def execPldmSetPowerCap (w : U16) (s : State) : Res :=
  guarded (.pldmSetPowerCap w) (onDev s fun d => d.served fun d =>
    if w = 0 ∨ (1200 ≤ w.toNat ∧ w.toNat ≤ s.hw.maxW) then (d.setF PWR_CAP_SIDEBAND_W w.toNat).showCap.pldmCode pldmOk else d.pldmCode pldmInvalid)

/-- PLDM_FRU_READ (R452). -/
def execPldmFruRead (s : State) : Res :=
  guarded .pldmFruRead (onDev s fun d => d.served fun d => d.emit (.answer (.pldmData pldmOk Config.fru)))

/-! ### OEM commands (R453) -/

/-- SHUTDOWN in each state of the module: as PWR_CTL; in STANDBY after a stop MODE 1 restarts it unless there was a leak (16 R435). -/
def Dev.pldmStop (d : Dev) (restart : Bool) : Dev :=
  match d.pwr.seq with
  | .u5 | .u6 => (d.shutdownStart restart 1).pldmCode pldmOk
  | .y7 => if !restart then d.pldmCode pldmOk else if d.pwr.wet then d.pldmOpen else d.restartRequest.pldmCode pldmOk
  | _ => d.pldmCode pldmOk

/-- PLDM_SHUTDOWN (R453; 16 R433, R435). -/
def execPldmShutdown (mode : Byte) (s : State) : Res :=
  guarded (.pldmShutdown mode) (.next (s.onPower fun d => d.served fun d =>
    if mode.toNat > 1 then d.pldmOpen else d.pldmStop (mode == 1)))

/-- OVERLAY_OVERRIDE (R453): only within a session authenticated against an owner key. -/
def execOverlayOverride (sid : Nat) (kind : Byte) (unit : U32) (action : Byte) (s : State) : Res :=
  guarded (.overlayOverride sid kind unit action) (onDev s fun d => d.served fun d =>
    if !(tget d.sec.spdm sid).any fun x => x.done && x.owner then d.pldmCode pldmUnsupported
    else if action.toNat > 1 then d.pldmOpen
    else
      let o := (kind.toNat, unit.toNat, action.toNat)
      ({ d with flash := { d.flash with overrides := d.flash.overrides ++ [o] } }).pldmCode pldmOk)

/-- PLDM_LOG_READ (R453). -/
def execPldmLogRead (first : U32) (count : Byte) (s : State) : Res :=
  guarded (.pldmLogRead first count) (onDev s fun d => d.served fun d =>
    if count.toNat < 1 ∨ count.toNat > 7 then d.pldmOpen
    else d.emit (.answer (.pldmLog ((List.range count.toNat).filterMap fun i => d.logAt (first.toNat + i)))))

/-- GLB_READ (R453): a register of GLB or PWR. -/
def execGlbRead (offset : Nat) (s : State) : Res :=
  guarded (.glbRead offset) (onDev s fun d => d.served fun d =>
    if (regAt offset).isSome ∧ (offset / 0x10000 = 0 ∨ offset / 0x10000 = 0xF) then
      let (v, d) := d.readReg offset
      d.emit (.answer (.pldm pldmOk (v.toNat : Int)))
    else d.pldmOpen)

/-! ### Firmware update (R454; 13 R344) -/

/-- FW_UPDATE_COMPONENT (R454): accepted in READY and RECOVERY; the firmware slot that is not running is written, a slice map staged. -/
def execFwUpdateComponent (c : FwPayload) (s : State) : Res :=
  guarded (.fwUpdateComponent c) (onDev s fun d => d.served fun d =>
    if d.getF PWR_STATE_STATE ≠ 2 ∧ d.getF PWR_STATE_STATE ≠ 3 then d.pldmOpen
    else match c with
      | .firmware f =>
        let x : FwSlot := { version := f.version, sec := f.sec, prod := f.prod, ok := f.sigOk, digest := f.digest }
        let d := { d with flash := if d.flash.running then { d.flash with slotA := some x } else { d.flash with slotB := some x } }
        if d.fwOk x then d.pldmCode pldmOk else d.pldmOpen
      | .sliceMap m =>
        if d.mapSigned m && mapOk m s.hw then ({ d with flash := { d.flash with staged := some m } }).pldmCode pldmOk else d.pldmOpen)

/-! ### Damaged lines (15 R411) -/

/-- SIDEBAND_STUCK set, with its record. -/
def Dev.sidebandStuck (d : Dev) : Dev := (d.flag LDG_STATUS_SIDEBAND_STUCK LDG_EVENTS_SIDEBAND_COUNT).powerFault 0x0E14

/-- SMBUS_TIMEOUT (R411). -/
def execSmbusTimeout (s : State) : Res := guarded .smbusTimeout (onDev s fun d => d.served Dev.sidebandStuck)

/-- PCIE_LINK_UP (R411): a record, whose code the manual does not state, for lanes that are shorted or open (log 43). -/
def execPcieLinkUp (port width : Nat) (bad : List Nat) (s : State) : Res :=
  guarded (.pcieLinkUp port width bad) (onDev s fun d =>
    if d.running ∧ port < d.getF GLB_ASSEMBLY_L_DIES ∧ bad ≠ [] then d.openRecord else d)

end Sys2Proof.Machine
end

