-- ==== Sys2Proof/Machine/Commit.lean ====
section
/-! DEFINITION. The commit of a boundary, E6 to E12: ledger check, publication, job switch, checkpoint cut and the next batch
(02_handshake_timing.md R37–R39, R45; 04 R91–R93, R102–R105, R111–R113; 06 R159–R168; 08 R217–R225; 15 R391, R392). -/

namespace Sys2Proof.Machine

/-! ### E6 and E7 -/

/-- Completions that a boundary owes after its E12. -/
def Dev.owe (d : Dev) (p : Nat) (xs : List Due) : Dev := d.modStep p fun s => { s with due := s.due ++ xs }

/-- The timestamp counter of a device other than the root takes the token's stamp and its path delay, which is that of the port
toward the root; it never decreases (02 R45). -/
def Dev.alignClock (d : Dev) (p : Nat) (t : CommitToken) : Dev :=
  if d.isRoot p then d
  else
    let delay := match d.egress (d.getF (GLB_SYNC_CFG_ROOT_DEVICE p)) with
      | some n => (d.port n).delay
      | none => 0
    let want := t.stamp + BitVec.ofNat 64 delay
    if d.clock.now.toNat ≤ want.toNat then { d with clock := { now := want } }
    else { d with clock := { d.clock with slew := (d.clock.now - want).toNat } }

/-- LDG_LAST of a partition (15 Table 15.14). -/
def Dev.showCheck (d : Dev) (p k : Nat) (f : Option LedgerFail) : Dev :=
  let d := (d.setL (LDG_LAST_STEP_LO p) k).setL (LDG_LAST_CLASS p) (f.elim 0xFF fun f => f.cls)
  (d.setL (LDG_LAST_PLACE p) (f.elim 0xFF fun f => f.place)).setL (LDG_LAST_RESULT p) (if f.isSome then 2 else 1)

/-- A failed check: its record, and the halt of its partition, or of every partition (15 R392). LDG_LAST is read at once, since no
commit follows. -/
def Dev.ledgerFailed (d : Dev) (p : Nat) (f : LedgerFail) : Dev :=
  let scope := d.ledgerScope f
  let d := (d.flag LDG_STATUS_MISMATCH LDG_EVENTS_MISMATCH_COUNT).raise scope 0x0E10 f.address 2 0x105
  let d := d.setReg (LDG_LAST p) (d.liveReg (LDG_LAST p))
  match scope with
  | some q => d.haltPart q
  | none => ((List.range 8).filter d.present).foldl (fun d q => d.haltPart q) d

/-- E7: the records of the closed step are applied and its instances checked; the failure, if any (15 R391). -/
def Dev.checkStep (d : Dev) (p : Nat) : Dev × Option LedgerFail :=
  let k := (d.stepP p).number.toNat - 1
  let d := d.applyDeltas p k
  let f := d.ledgerCheck p
  let d := (d.markChecked p f).showCheck p k f
  ({ d with ldg := { d.ldg with events := d.ldg.events.filter fun e => e.2.2 != p } }, f)

/-! ### E8 (06 R161, R164; 09 R253, R261) -/

/-- The token of an entry emitted: progress of a stream, or the final completion of a generation that it ends (Table 09.8, S7). -/
def Dev.emitEntry (d : Dev) (p loc : Nat) (t : U32) : Dev :=
  let (d, why) := d.emitToken loc t.toNat
  let r := d.genRec loc
  match why with
  | none =>
    let ks := tkeys d.rng.descs fun _ e => e.st == .waiting (.generation loc)
    d.owe p (ks.map fun k => { desc := k, st := stOk, result := BitVec.ofNat 64 r.outBytes, detail := BitVec.ofNat 32 r.gen.length, final := false })
  | some reason =>
    let (d, xs) := d.takeGen loc reason (if reason = 3 then stStopped else stOk)
    d.owe p xs

/-- A history entry that is committed takes the escalation epoch of its step in bits [31:20] (07 R199). -/
def stampEntry (epoch first n : Nat) (w : U32 × Nat) : U32 :=
  if first ≤ w.2 ∧ w.2 < first + n then (w.1 &&& 0xFFFFF) ||| BitVec.ofNat 32 (epoch * 2 ^ 20) else w.1

/-- One entry of the length table committed: its version, its positions, its token, its history. -/
def Dev.commitEntry (d : Dev) (p : Nat) (e : LenEntry) : Dev :=
  let s := d.ses e.loc
  let d := if s.pub.isSome then d.publish e.loc else d
  if e.held || !(s.st == .resident || s.st == .waiting) then d
  else
    let decoding := s.genArmed && !(d.genRec e.loc).gen.isEmpty
    let epoch := (d.arip p).epoch
    let d := if e.new = 0 || e.repeats then d else d.modSes e.loc fun s =>
      { s with positions := s.positions + e.new, staged := if decoding then s.staged else s.staged - e.new,
               hist := s.hist.zipIdx.map (stampEntry epoch e.ctx e.new) }
    let emits := e.sample && s.genArmed
    let d := match e.tokens with
      | t :: _ => if emits then d.emitEntry p e.loc t else d
      | [] => d
    let n := e.new + (if emits && !e.tokens.isEmpty then 1 else 0)
    if n = 0 then d else (d.writeHistory e.loc e.ctx n none).1

/-- KV frames whose count has stayed 0 since before this E8 become FREE, and so do frames that engines gave back (R164); frames with too many
errors are RETIRED (15 R400). -/
def Dev.reclaim (d : Dev) (p : Nat) : Dev :=
  let mine := d.kva.zeroed.filter fun (e : Nat × Nat) => e.2 == p && d.refs e.1 == 0
  let gone := fun (f : Nat) => mine.any fun e => e.1 == f
  let d := { d with kva := { d.kva with zeroed := d.kva.zeroed.filter (fun (e : Nat × Nat) => e.2 != p),
                                        count := d.kva.count.filter (fun (e : Nat × Nat) => !gone e.1),
                                        poison := d.kva.poison.filter (fun (f : Nat) => !gone f),
                                        bad := d.kva.bad.filter fun f => !gone f } }
  let f := d.frames p
  let d := (d.setL (KVA_RECLAIM_RECLAIMED p) (mine.length + f.freeKv)).moveFrames p 1 0 (mine.length + f.freeKv)
  let d := (d.moveFrames p 2 0 f.freeRegion).moveFrames p 3 0 f.freeMeta
  let none_ := fun (f : Frames) => { f with freeKv := 0, freeRegion := 0, freeMeta := 0 }
  let d := { d with tier := { d.tier with frames := tmod d.tier.frames p {} none_ } }
  let d := (d.ldg.retiring.filter fun r => r.1 == p).foldl (fun (d : Dev) r => d.moveFrames p r.2 5 1) d
  let d := { d with ldg := { d.ldg with retiring := d.ldg.retiring.filter fun r => r.1 != p } }
  let runs := (d.kva.runs.filter fun r => r.1 == p && !d.runHeld r.2.1).map fun r => r.2
  ({ d with kva := { d.kva with runs := d.kva.runs.filter fun r => r.1 != p } }.freeRunPages runs).1

/-- A closed session's slot becomes FREE and its number the last to be taken again; its CLOSE is due (Table 04.6). -/
def Dev.freeSlot (d : Dev) (p loc : Nat) : Dev :=
  let s := d.ses loc
  let d := if s.memIndex = 0xFFFFFFFF then d else d.nameIndex s.memIndex.toNat false
  let ks := d.rng.descs.filter fun e => e.2.st == .waiting (.close loc)
  let d := d.owe p (ks.map fun e => { desc := e.1, st := stOk, result := 0, detail := e.2.detail, final := true })
  let d := d.modTok p fun t => { t with gens := tdel t.gens loc }
  let d := { d with tus := { d.tus with numbers := tmod d.tus.numbers p {} fun n => n.give loc } }
  d.setSes loc { gen := s.gen }

/-- CLOSING sessions that no hand-over still holds, and destroyed regions, have let go of their last frames. -/
def Dev.freeSlots (d : Dev) (p : Nat) : Dev :=
  let offered := fun (l : Nat) => d.fab.offer.any fun (o : Nat × OfferTxn) => o.2.isSession && o.2.obj == l
  let d := ((d.sesWhere p fun s => s.st == .closing && !s.inBatch).filter fun l => !offered l).foldl (fun d l => d.freeSlot p l) d
  let ks := d.rng.descs.filter fun e => e.2.part == p && (match e.2.st with
    | .waiting (.destroyed _) => true
    | _ => false)
  d.owe p (ks.map fun e => { desc := e.1, st := stOk, result := e.2.result, detail := e.2.detail, final := true })

/-- Frames of a partition as they stand after E8 (Table 05.13, Table 06.11). -/
def Dev.showFrames (d : Dev) (p : Nat) : Dev :=
  let used := ((d.sesWhere p fun _ => true).flatMap fun l => (d.ses l).pages.flatMap fun (e : Nat × Page) => e.2.frames).eraseDups
  let d := (d.setL (TIER_FRAMES_FREE p) (d.frames p).free).setL (KVA_FRAMES_KV_FRAMES p) (d.frames p).kv
  let d := d.setL (KVA_FRAMES_SHARED p) (used.filter fun f => decide (d.refs f > 1)).length
  d.setL (KVA_RECLAIM_TABLE_FRAMES p) ((d.sesWhere p fun _ => true).map fun l => (d.ses l).tables).sum

/-- E8. -/
def Dev.publishStep (d : Dev) (p : Nat) : Dev :=
  let d := (d.lens p).foldl (fun d e => d.commitEntry p e) d
  let d := (((d.trimReserved p 0).reclaim p).freeSlots p).showFrames p
  ((d.windowFrames p (d.windowWant p)).wakeHeld).wakeReed

/-! ### E9: the job switch (08 R217–R225) -/

/-- The switch that a token lists: the root's own, or that to the job here whose digest the token names. -/
def Dev.tokenSwitch (d : Dev) (p : Nat) (t : CommitToken) : Option Switch :=
  if t.switchTo.isNone && !t.stop then none
  else match tget d.plc.switch p with
    | some x => some x
    | none =>
      match t.switchTo with
      | some g => ((List.range 4).find? fun i => (d.job p i).full == g && ((d.job p i).st == .loaded || (d.job p i).st == .pending)).map
          fun i => { desc := none, job := some i }
      | none => some { desc := none, job := none }

/-- J2 for the outgoing job, and the switch in progress. A switch whose first layers never came ends unfinished. -/
def Dev.switchOut (d : Dev) (p : Nat) (x : Switch) : Dev :=
  let out := d.activeSlot p
  let d := match (d.window p).filling.bind fun f => f.desc with
    | some k => d.refuse k stWrong
    | none => d
  let d := d.modWindow p fun w => { w with filling := none }
  let d := match out with
    | some i => d.jobOut p i
    | none => d
  d.setSwitch p { x with outgoing := out, since := d.clock.now, step := (d.stepP p).number }

/-- Channels of a partition's set. -/
def jobChannels (p : Nat) : List Nat := (List.range 4).map fun v => channel (chanSet (some p)) v

/-- Credits of a port's channels that the receiver has not returned. -/
def Dev.outstanding (d : Dev) (p port : Nat) : Nat :=
  ((jobChannels p).map fun c => (((d.led 3 (36 * port + c)).map fun (l : Ledger) => l.actual.getD 1 0).getD 0).toNat).sum

/-- Every link credit of the outgoing job has returned (J3). -/
def Dev.creditsBack (d : Dev) (p : Nat) : Bool := (List.range 32).all fun n => !d.portUp n || d.outstanding p n == 0

/-- Requests whose frames a reset discarded are issued again once their job is ACTIVE (R225). -/
def Dev.reissue (d : Dev) (p slot : Nat) : Dev :=
  let tags := tkeys d.fab.req fun _ r => r.part == p && r.reset == some slot
  tags.foldl (fun (d : Dev) t =>
    ({ d with fab := { d.fab with req := tupd d.fab.req t fun r => { r with reset := none } } }).dispatch t) d

/-- J4: the grant passes to the incoming job, which becomes ACTIVE, and its window starts; a STOP completes here. -/
def Dev.switchIn (d : Dev) (p : Nat) (reset : Bool) : Dev :=
  match tget d.plc.switch p with
  | none => d
  | some x =>
    let us := (d.clock.now - x.since).toNat / 1000
    let d := (d.setL (PLC_SWITCH_DRAIN_US p) (min us 0xFFFF)).setL (PLC_SWITCH_RESET_USED p) (if reset then 1 else 0)
    let d := ((List.range 32).filter d.portUp).foldl (fun d n => (jobChannels p).foldl (fun d c => d.regrant n c) d) d
    match x.job with
    | some i =>
      let d := (d.jobIn p i).reissue p i
      d.modWindow p fun w => { w with filling := some { desc := x.desc, first := (d.job p i).hdr.first, since := x.since, reissued := x.reissued, step := x.step } }
    | none =>
      let d := ((d.noImage p).setL (PLC_SWITCH_WINDOW_US p) 0).setL (PLC_JOB_SWITCHES p) (d.getL (PLC_JOB_SWITCHES p) + 1)
      match x.desc with
      | some k => d.owe p [{ desc := k, st := stOk, result := x.step, detail := BitVec.ofNat 32 x.reissued, final := true }]
      | none => d

/-! ### E11: leaving sessions (04 R102) -/

/-- The park flag of a TOOL_WAIT acts on a WAITING session, unless PIN_RESIDENT overrides it (R101). -/
def Dev.waitPark (d : Dev) (loc : Nat) : Dev :=
  let s := d.ses loc
  match s.armed with
  | some g => if g.park && !s.pin then d.toParking loc g.depth g.peat else d
  | none => d

/-- A session of the closed step leaves the batch, or stays. -/
def Dev.leaveOne (d : Dev) (loc : Nat) : Dev :=
  let s := d.ses loc
  let out := fun (d : Dev) => d.modSes loc fun s => { s with inBatch := false, heldStep := false, heldFor := none, wanted := 0 }
  if !s.inBatch then d
  else match s.st with
    | .closing =>
      let (d, n) := d.closePages loc
      let ks := tkeys d.rng.descs fun _ e => e.st == .waiting (.close loc)
      out (ks.foldl (fun d k => d.modDesc k fun e => { e with detail := BitVec.ofNat 32 n }) d)
    | .waiting => (out d).waitPark loc
    | .resident =>
      if s.ended || s.linger then ((out d).enter loc .idle).modSes loc fun s => { s with ended := false, linger := false } else d
    | _ => out d

/-- Sessions that leave the batch, and those that entered WAITING from IDLE since the last E11. -/
def Dev.leaveBatch (d : Dev) (p : Nat) : Dev :=
  let d := (d.lens p).foldl (fun d e => d.leaveOne e.loc) d
  let ls := d.sesWhere p fun s => s.st == .waiting && s.fromIdle
  ls.foldl (fun d l => (d.waitPark l).modSes l fun s => { s with fromIdle := false }) d

/-! ### E11: victims and admission (R102, R103) -/

/-- A READY session at DEPTH 0b00, or a REVIVING one whose pages are present and whose input is tokenised. -/
def Dev.runnable (d : Dev) (p loc : Nat) : Bool :=
  let s := d.ses loc
  d.isActive p loc && !s.lossHold &&
    ((s.st == .ready && s.depth == 0) || (s.st == .reviving && s.allHere && s.fetching.isEmpty && !d.appending loc))

/-- A session may be a victim (R102). -/
def Session.victim (s : Session) : Bool :=
  !s.pin && ((s.st == .parked && s.depth == 1 && s.writing.isEmpty) ||
    (!s.inBatch && (s.st == .idle || s.st == .waiting) && s.depth == 0) || (s.inBatch && s.st == .resident && s.linger))

/-- Frames that a victim will release: those that no other session's pages name (06 R166). -/
def Dev.releases (d : Dev) (loc : Nat) : Nat :=
  let fs := (d.ses loc).pages.flatMap fun (e : Nat × Page) => e.2.frames
  (fs.eraseDups.filter fun f => decide (d.refs f ≤ fs.count f)).length

/-- The next victim: the oldest that lowers a need, one PARKED at T1 first when only frames are needed. -/
def Dev.nextVictim (d : Dev) (p : Nat) (slots frames : Int) (done : List Nat) : Option Nat :=
  let vs := (d.byTime (d.sesWhere p Session.victim)).filter fun l => !done.contains l &&
    (((d.ses l).inBatch && decide (slots > 0)) || (decide (frames > 0) && decide (d.releases l > 0)))
  match (if slots ≤ 0 then vs.find? fun l => (d.ses l).st == .parked else none) with
  | some l => some l
  | none => vs.head?

/-- Victims chosen until no need is left; the fuel bounds their number. -/
def Dev.evict : Nat → Dev → Nat → Int → Int → List Nat → Dev
  | 0, d, _, _, _, _ => d
  | fuel + 1, d, p, slots, frames, done =>
    if slots ≤ 0 ∧ frames ≤ 0 then d
    else match d.nextVictim p slots frames done with
      | none => d
      | some l =>
        let was := (d.ses l).inBatch
        let n := d.releases l
        let d := if (d.ses l).st = .parked then
            (d.modSes l fun s => { s with parkTier := 2, parkPeat := d.defaultPeat p }).parkStart l
          else (d.toParking l 0 0).modSes l fun s => { s with inBatch := false }
        Dev.evict fuel (d.satL (YOY_STATUS_EVICTIONS p) 1) p (if was then slots - 1 else slots) (frames - n) (l :: done)

/-- Runnable sessions enter the batch, oldest first, while it has room; those admitted. -/
def Dev.admitOne (p : Nat) (x : Dev × List Nat) (loc : Nat) : Dev × List Nat :=
  let d := x.1
  if (d.sesWhere p fun s => s.inBatch).length < d.getL (YOY_BATCH_B_MAX p) then
    let d := (d.enter loc .resident).modSes loc fun s => { s with inBatch := true, linger := false, ended := false }
    (d.endRevive loc stOk, x.2 ++ [loc])
  else x

/-- The session's work ended: nothing armed, staged, held or on its way in (R91). -/
def Dev.workEnded (d : Dev) (loc : Nat) : Bool :=
  let s := d.ses loc
  s.st == .resident && !s.genArmed && s.staged == 0 && !s.heldStep && !d.appending loc

/-- The next batch, in batch order. -/
def Dev.formBatch (d : Dev) (p : Nat) : Dev × List Nat :=
  let d := d.leaveBatch p
  let old := ((d.lens p).map fun e => e.loc).filter fun l => (d.ses l).inBatch
  let run := d.byTime ((d.sesWhere p fun _ => true).filter fun l => d.runnable p l)
  let slots : Int := run.length - ((d.getL (YOY_BATCH_B_MAX p) : Int) - old.length)
  let frames : Int := (((d.sesWhere p fun s => s.st == .ready || s.inBatch).map fun l => (d.ses l).wanted).sum : Nat)
  let d := Dev.evict (d.sesWhere p fun _ => true).length d p slots frames []
  let (d, new) := run.foldl (Dev.admitOne p) (d, [])
  let batch := (old.filter fun l => (d.ses l).inBatch) ++ new
  (batch.foldl (fun d l => d.modSes l fun s => { s with linger := d.workEnded l }) d, batch)

/-! ### E11: the length table (04 R104, R459; 06 R168) -/

/-- Frames that `n` new positions of a session need from position `ctx`: new pages, and copies of pages that cannot be written in
place. -/
def Dev.framesFor (d : Dev) (p loc ctx n : Nat) : Nat :=
  let h := d.sesHdr p loc
  let ps := (d.activeJob p).elim [] d.pairs
  if n = 0 then 0
  else
    let open_ := (rangesOf (ctx + n) - rangesOf ctx) * ps.length
    let copies := if ctx % 32 = 0 then 0 else (ps.filter fun x =>
      match tget (d.ses loc).pages (h.page (ctx / 32) x.1 x.2) with
      | some y => !(d.refs y.frame == 1 && y.rows == ctx % 32)
      | none => false).length
    open_ + copies

/-- META frames that the table of a session takes more once the pages of `n` new positions are open (log 56). -/
def Dev.tableGrowth (d : Dev) (p loc ctx n : Nat) : Nat :=
  let h := d.sesHdr p loc
  let s := d.ses loc
  let ps := (d.activeJob p).elim [] d.pairs
  let new := (List.range (rangesOf (ctx + n) - rangesOf ctx)).flatMap fun r => ps.map fun x => (h.page (rangesOf ctx + r) x.1 x.2, ({} : Page))
  if new.isEmpty then 0 else tableFrames (s.pages ++ new) - s.tables

/-- A decoding session: one whose last token is not yet computed. -/
def Dev.decoding (d : Dev) (loc : Nat) : Bool := (d.ses loc).genArmed && !(d.genRec loc).gen.isEmpty

/-- A session that repeats its last committed position (R459). -/
def Dev.repeating (d : Dev) (loc : Nat) : Bool :=
  let s := d.ses loc
  s.genArmed && (d.genRec loc).gen.isEmpty && s.staged == 0 && decide (s.positions > 0) && !d.appending loc

/-- Positions that a session asks for, and whether it asks as a decoding session does. -/
def Dev.asks (d : Dev) (loc : Nat) : Nat × Bool :=
  let s := d.ses loc
  if s.heldStep then (0, false)
  else if d.decoding loc || d.repeating loc then (1, true)
  else (s.staged, false)

/-- One entry allotted out of a budget of positions; those whose frames cannot be reserved carry to the next step. -/
def Dev.allot (p : Nat) (x : Dev × Nat × Tbl LenEntry) (loc : Nat) : Dev × Nat × Tbl LenEntry :=
  let (d, budget, es) := x
  let s := d.ses loc
  let want := min (d.asks loc).1 budget
  let rep := d.repeating loc && want == 1 && !s.heldStep
  let ctx := if rep then s.positions - 1 else s.positions
  let need := fun (n : Nat) => if rep then 0 else d.framesFor p loc ctx n
  let all := fun (n : Nat) => if rep then 0 else need n + d.tableGrowth p loc ctx n
  let lack := all want - d.freeFrames p
  let d := (List.range lack).foldl (fun d _ => d.dropCopy p) d
  let n := ((List.range (want + 1)).reverse.find? fun n => decide (all n ≤ d.freeFrames p)).getD 0
  let d := (d.modSes loc fun s => { s with wanted := lack }).moveFrames p 0 4 (need n)
  let last := d.decoding loc || rep || (decide (n = s.staged) && !d.appending loc)
  let e : LenEntry := { loc := loc, ctx := ctx, new := n, version := s.ptVersion, root := s.ptRoot, sample := s.genArmed && decide (n > 0) && last,
                        linger := s.linger, held := s.heldStep, repeats := rep && decide (n = 1), frames := need n }
  (d, budget - n, tput es loc e)

/-- The length table of the next step: decoding sessions first, then staged input, in batch order (R104). -/
def Dev.buildLens (d : Dev) (p : Nat) (batch : List Nat) : Dev :=
  let first := batch.filter fun l => (d.asks l).2
  let then_ := batch.filter fun l => !(d.asks l).2
  let (d, _, es) := (first ++ then_).foldl (Dev.allot p) (d, d.getL (YOY_BATCH_POS_MAX p), [])
  d.setLens p (batch.filterMap fun l => tget es l)

/-! ### Registers and telemetry of a boundary -/

/-- Two bits of a job slot in SLOT_STATES (Table 08.11). -/
def JobState.code : JobState → Nat
  | .empty => 0
  | .loaded => 1
  | .active => 2
  | .pending => 3

/-- STEP-LATCHED registers that report what stands at a boundary. -/
def Dev.showBoundary (d : Dev) (p : Nat) : Dev :=
  let count := fun (c : Session → Bool) => (d.sesWhere p c).length
  let d := (d.setL (TUS_COUNT_OPEN p) (count fun s => s.st != .free)).setL (TUS_COUNT_PARKED p) (count fun s => s.st == .parked)
  let d := (d.setL (YOY_QUEUE_READY p) (min (count fun s => s.st == .ready) 0xFFFF)).setL (YOY_QUEUE_REVIVING p) (min (count fun s => s.st == .reviving) 0xFFFF)
  let d := d.setL (YOY_QUEUE_T_RE_NS p) (min (d.tRe p 1) (2 ^ 32 - 1))
  let d := d.setL (PLC_JOB_SLOT_STATES p) ((List.range 4).map fun i => (d.job p i).st.code * 4 ^ i).sum
  let d := (d.setL (PLC_JOB_ACTIVE_VALID p) (if (d.activeSlot p).isSome then 1 else 0)).setL (PLC_JOB_ACTIVE_SLOT p) ((d.activeSlot p).getD 0)
  let d := { d with live := tput d.live (GLB_STEP_NUMBER p) (d.stepP p).number }
  ((d.showLevels p).showParked p).showLast p

/-- Registers that read 0 with no job loaded, or no model in force (06 R178, 08 R237). -/
def Dev.blankRegs (d : Dev) (p : Nat) : Dev :=
  let zero := fun (d : Dev) (rs : List Nat) => rs.foldl (fun d r => d.setReg r 0) d
  let d := if (List.range 4).all fun i => (d.job p i).st == .empty then zero d [PLC_JOB p, PLC_SWITCH p, PLC_CORE p] else d
  if (d.activeSlot p).isNone then zero d [KVA_GEOM p, KVA_STEP p, KVA_FRAMES p, KVA_RECLAIM p] else d

/-- Counts of the closed step start again once they are latched. -/
def Dev.clearCounts (d : Dev) (p : Nat) : Dev :=
  let live := [YOY_STATUS p, KVA_STEP p, TOK_INPUT p, TOK_OUTPUT p].foldl (fun t r => tput t r (0 : U64)) d.live
  let d := { d with live := live }
  (((d.setL (PLC_CORE_BG_JOBS p) 0).setL (PLC_CORE_SEM_WAITS p) 0).setL (TIER_WINDOW_STALLS p) 0).clearAri p

/-- BOUNDARY-APPLIED registers take effect, the operating point among them (16 R419). -/
def Dev.applyRegs (d : Dev) (p : Nat) : Dev :=
  let d := d.applyB p
  (d.setF (PWR_OP_IN_FORCE p) (d.getB (PWR_OP_REQ p))).showRails

/-- Periodic telemetry records of a closed step (03 R82). -/
def Dev.periodic (d : Dev) (p resident positions revived parked : Nat) : Dev :=
  let n := (d.stepP p).number
  let period := (d.pr p).period
  if period = 0 ∨ n.toNat % period ≠ 0 then d
  else
    let step := n - 1
    let d := d.telem p 0x01 0x00 0 step (record [(4, d.getL (GLB_STEP_TIME_STEP_NS p)), (4, d.getL (GLB_STEP_TIME_SYNC_WAIT_NS p)),
      (4, resident), (4, positions), (2, revived), (2, parked)])
    let d := (d.telemQueues p step).telem p 0x03 0x00 0 step (record ((List.range 9).map fun i => (2, d.getF (GLB_BEAT_RATE_RATE i))))
    d.telemLayers p step

/-! ### The commit -/

/-- Descriptors of a partition that wait for what `w` names. -/
def Dev.waiters (d : Dev) (p : Nat) (w : Wait) : List Nat := tkeys d.rng.descs fun _ e => e.part == p && e.st == .waiting w

/-- REGION_FLUSH and STATE_READ with AT_BOUNDARY (05 R134, 03 R64). -/
def Dev.boundaryWork (d : Dev) (p : Nat) : Dev :=
  let d := (d.waiters p .boundaryFlush).foldl (fun (d : Dev) k => match tget d.rng.descs k with
    | some e => d.flushRun (((d.region (targetRegion e.d)).elim 0 fun r => r.tiles) + 1) k
    | none => d) d
  (d.waiters p .boundaryRead).foldl (fun (d : Dev) k => match tget d.rng.descs k with
    | some e =>
      let d := d.stateWrite e
      let (x, d) := d.draw
      d.owe p [{ desc := k, st := stOk, result := (d.stepP p).number, detail := x.setWidth 32, final := true }]
    | none => d) d

/-- E10 to E12. -/
def Dev.commitTail (d : Dev) (p : Nat) (t : CommitToken) : Dev :=
  let sw := tget d.plc.switch p
  let d := d.dropSwitch p
  let n := (d.stepP p).number
  let mine := (d.tier.copy.filter fun c => !c.started && (tget d.rng.descs c.desc).any fun e => e.part == p).map fun c => c.desc
  let d := mine.foldl (fun d k => d.copyStart k n) d
  let d := if t.cut then d.cutShard p n else d
  let closed := d.lens p
  let d := match sw.bind fun x => x.outgoing with
    | some i => d.batchOut p i
    | none => d
  let (d, ks) := d.applyTok p
  let d := d.owe p (ks.map fun k => { desc := k, st := stOk, result := 0, detail := 0, final := true })
  let d := d.applyLevels p t.clears t.levels
  let d := closed.foldl (fun d e => d.unhold e.loc) d
  let d := if closed.isEmpty || (d.activeSlot p).isNone then d else d.modAri p fun a => { a with steps := a.steps + 1 }
  let (d, batch) := d.formBatch p
  let d := (d.buildLens p batch).boundaryWork p
  let revived := d.getL (YOY_STATUS_REVIVALS p)
  let parked := d.getL (YOY_STATUS_PARKS p)
  let d := (((d.showBoundary p).latch p).blankRegs p).applyRegs p
  let d := d.periodic p closed.length ((closed.filter fun e => !e.held).map fun e => e.new).sum revived parked
  ((d.clearCounts p).mirrorE11 p).endCommit p

/-- E9 to E12: with a switch listed the outgoing job's credits must have returned before J4. -/
def Dev.commitOn (d : Dev) (p : Nat) (t : CommitToken) : Dev :=
  match d.tokenSwitch p t with
  | none => d.commitTail p t
  | some x =>
    let d := d.switchOut p x
    if ((tget d.plc.switch p).bind fun x => x.outgoing).isNone || d.creditsBack p then (d.switchIn p false).commitTail p t
    else (d.setPhase p 4).modStep p fun s => { s with stage := .drain, token := some t }

/-- The commit of a boundary under a commit token (02 R37): E6, E7, and where the check passes E8 to E12. -/
def Dev.commit (d : Dev) (p : Nat) (t : CommitToken) : Dev :=
  let d := d.alignClock p t
  let d := d.modStep p fun s => { s with number := s.number + 1, reports := [], esp := none, failed := false }
  let d := d.setPhase p 3
  match d.checkStep p with
  | (d, some f) => d.ledgerFailed p f
  | (d, none) => (d.publishStep p).commitOn p t

/-- J3 is over: the commit goes on from J4. -/
def Dev.drained (d : Dev) (p : Nat) (reset : Bool) : Dev :=
  match (d.stepP p).token with
  | some t =>
    let d := (d.setPhase p 3).modStep p fun s => { s with stage := .none, token := none }
    (d.switchIn p reset).commitTail p t
  | none => d

end Sys2Proof.Machine
end

