-- ==== Sys2Proof/Machine/Boundary.lean ====
section
/-! DEFINITION. The way to a boundary and away from it: safe reports, the sync condition, commit, retry and SHRINK tokens, the drain of a
job switch, and the mirror (02_handshake_timing.md R30, R36–R46; 04 R111–R113; 05 R138, R139; 08 R224; 14 R377–R380; 15 R411). -/

namespace Sys2Proof.Machine

/-! ### Tokens (02 R37–R43) -/

/-- The other devices that a boundary of a partition concerns: those of the active job, or of the job that it brings in. -/
def Dev.boundaryPeers (d : Dev) (p : Nat) : List Nat :=
  let ds := match d.activeSlot p, (d.stepP p).switchTo with
    | none, some (some i) => ((d.job p i).sect.map Sections.devices).getD []
    | _, _ => d.jobDevices p
  ds.filter fun x => x != d.id

/-- STEP_MARK: a pulse on the pin and a token on every port that feeds another domain (R43). -/
def Dev.markStep (d : Dev) (p : Nat) : Dev :=
  if d.getB (GLB_SYNC_CFG_MARK_EN p) = 0 then d
  else
    let d := (d.drive "STEP_MARK" true).drive "STEP_MARK" false
    ((List.range 32).filter fun n => d.getF (FAB_PORT_ROLE n) == 4).foldl (fun (d : Dev) n =>
      d.emit (.ctrl (d.getF (FAB_PORT_PEER_DEVICE n)) (.stepMark (d.getF (FAB_PORT_PEER_PORT n))))) d

/-- The commit token of a root: stamp, switch, cut, clears and at most 8 layers to escalate, lowest first (07 R197). -/
def Dev.makeToken (d : Dev) (p : Nat) : CommitToken :=
  let s := d.stepP p
  { stamp := d.clock.now,
    switchTo := match s.switchTo with
      | some (some i) => some (d.job p i).full
      | _ => none,
    stop := s.switchTo == some none, cut := s.cut, clears := s.clears,
    levels := (((List.range 256).filter fun l => s.escReq.contains l).take 8) }

/-- E4: the token goes to every device of the job, and the root commits. `late` counts boundaries at the window's end (15 R411). -/
def Dev.sendToken (d : Dev) (p : Nat) (late : Bool) : Dev :=
  let s := d.stepP p
  let t := d.makeToken p
  let d := (d.boundaryPeers p).foldl (fun (d : Dev) x => d.emit (.ctrl x (.commitToken p t))) d
  let d := d.markStep p
  let wait := s.esp.elim 0 fun e => min (d.clock.now - e).toNat (2 ^ 32 - 1)
  let d := d.modStep p fun s =>
    { s with switchTo := none, cut := false, clears := [], escReq := s.escReq.filter fun l => !t.levels.contains l, early := false,
             late := if late then s.late + 1 else 0, syncWait := wait }
  (d.setL (GLB_STEP_TIME_SYNC_WAIT_NS p) wait).commit p t

/-- A step that failed is held with its effects discarded (05 R138); a device with no degraded tile of its own runs it again at once
(DEDUCED, log 66: no message reports a rebuild). -/
def Dev.retryStep (d : Dev) (p : Nat) : Dev :=
  let d := (d.discardStep p).modStep p fun s => { s with held := true, failed := false, reports := [], esp := none }
  if (d.window p).degraded.isEmpty then (d.modStep p fun s => { s with held := false }).setPhase p 0 else d.setPhase p 1

/-- A retry token in place of the commit token. -/
def Dev.sendRetry (d : Dev) (p : Nat) : Dev :=
  ((d.boundaryPeers p).foldl (fun (d : Dev) x => d.emit (.ctrl x (.retryToken p))) d).retryStep p

/-- E3: what follows the ESP (R40, R41). -/
def Dev.reachEsp (d : Dev) (p : Nat) : Dev :=
  let s := d.stepP p
  if d.phase p = 6 then d.sendToken p false
  else
    let ns := min (d.clock.now - s.released).toNat (2 ^ 32 - 1)
    let d := (d.modStep p fun s => { s with esp := some d.clock.now, stepNs := ns }).setL (GLB_STEP_TIME_STEP_NS p) ns
    if s.failed then d.sendRetry p
    else if d.getB (GLB_SYNC_CFG_MODE p) = 0 || s.early then d.sendToken p false
    else d.setPhase p 2

/-- The root holds one more safe report. -/
def Dev.gotReport (d : Dev) (p pos : Nat) (failed : Bool) (escalate : List Nat) : Dev :=
  let d := d.modStep p fun s =>
    { s with reports := pos :: s.reports.filter (· != pos), failed := s.failed || failed,
             escReq := s.escReq ++ (escalate.eraseDups.filter fun l => !s.escReq.contains l) }
  if (List.range (d.jobDevices p).length).all fun i => (d.stepP p).reports.contains i then d.reachEsp p else d

/-! ### Safe points (02 R36) -/

/-- A row that may end a step, after which an orderly shut-down may go on (16 R433). -/
def State.onStep (s : State) (f : Dev → Dev) : State := s.onPower fun d => (f d).shutdownOn


/-- Position of this device in its active job. -/
def Dev.myPos (d : Dev) (p : Nat) : Nat := (((d.activeJob p).bind fun j => j.sect).bind fun c => d.position c).getD 0

/-- Every entry of the step has its rows scattered and its token chosen. -/
def Dev.stepDone (d : Dev) (p : Nat) : Bool :=
  let ps := (d.activeJob p).elim [] d.pairs
  (d.lens p).all fun e => e.held || ((!e.sample || !e.tokens.isEmpty) && (e.new == 0 || e.repeats || ps.all fun x => e.scattered.contains x))

/-- LOCAL_SAFE_POINT (02 R36, R37): E1 and E2. A failed step stops here (05 R138), a partition whose TDI is in ERROR halts here
(13 R357), and a device with an empty batch reports to a root that is not idle. -/
def execLocalSafePoint (p : Nat) (s : State) : Res :=
  guarded (.localSafePoint p) (.next (s.onStep fun d =>
    let root := d.isRoot p
    if !(d.phase p == 0 || (d.phase p == 6 && !root)) || !d.present p then d
    else if tget d.sec.tdi p = some .error then d.setPhase p 5
    else if !(d.stepP p).failed && !d.stepDone p then d
    else
      let d := d.abandonShadows p
      if root then (d.setPhase p 1).gotReport p (d.myPos p) false []
      else
        let s := d.stepP p
        let d := d.emit (.ctrl (d.getF (GLB_SYNC_CFG_ROOT_DEVICE p)) (.safeReport p (d.myPos p) s.failed s.escReq))
        (d.modStep p fun s => { s with escReq := [] }).setPhase p 7))

/-- SAFE_REPORT (02 R37): one that arrives during a commit belongs to the next boundary and is kept. -/
def execSafeReport (p pos : Nat) (failed : Bool) (escalate : List Nat) (s : State) : Res :=
  guarded (.safeReport p pos failed escalate) (.next (s.onStep fun d =>
    if d.isRoot p && d.present p && decide (pos < (d.jobDevices p).length) && d.phase p != 5 && d.phase p != 2 then
      (d.gotReport p pos failed escalate)
    else d))

/-- IDLE_BOUNDARY_TIMER (02 R39): the root of an idle partition is at its safe point. -/
def execIdleBoundaryTimer (p : Nat) (s : State) : Res :=
  guarded (.idleBoundaryTimer p) (.next (s.onStep fun d =>
    if d.isRoot p && d.present p && d.phase p == 6 then d.gotReport p (d.myPos p) false [] else d))

/-! ### The sync condition (02 R40–R43; 15 R411) -/

/-- An edge or a feed token for a root: it sends the commit token inside the window, is held before the ESP, and is ignored and counted
when one is held already. -/
def Dev.syncEdge (d : Dev) (p : Nat) : Dev :=
  match d.phase p with
  | 2 => d.sendToken p false
  | 0 | 1 | 6 =>
    if (d.stepP p).early then d.flag (GLB_STEP_STATUS_SYNC_EXTRA p) (GLB_STEP_STATUS_EXTRA_COUNT p)
    else d.modStep p fun s => { s with early := true }
  | _ => d

/-- Partitions whose root this device is and whose MODE is `m`. -/
def Dev.synced (d : Dev) (m : Nat) : List Nat :=
  (List.range 8).filter fun p => d.present p && d.isRoot p && d.getB (GLB_SYNC_CFG_MODE p) == m

/-- STEP_SYNC_EDGE (02 R40). -/
def execStepSyncEdge (s : State) : Res :=
  guarded .stepSyncEdge (.next (s.onStep fun d => (d.synced 1).foldl (fun d p => d.syncEdge p) d))

/-- STEP_MARK_TOKEN (02 R40): the feed of the partitions whose FEED_PORT is the port. -/
def execStepMarkToken (port : Nat) (s : State) : Res :=
  guarded (.stepMarkToken port) (.next (s.onStep fun d =>
    (((d.synced 2).filter fun p => d.getB (GLB_SYNC_CFG_FEED_PORT p) == port).foldl (fun d p => d.syncEdge p) d)))

/-- SYNC_WINDOW_EXPIRY (02 R42). -/
def execSyncWindowExpiry (p : Nat) (s : State) : Res :=
  guarded (.syncWindowExpiry p) (.next (s.onStep fun d =>
    if d.isRoot p && d.phase p == 2 then
      let d := (d.flag (GLB_STEP_STATUS_SYNC_LATE p) (GLB_STEP_STATUS_LATE_COUNT p)).raiseOpen (some p) 0x0010 0x101
      (d.sendToken p true)
    else d))

/-- STEP_SYNC_STUCK_COUNT (15 R411): 16 boundaries in a row committed at the window's end. -/
def execStepSyncStuckCount (p : Nat) (s : State) : Res :=
  guarded (.stepSyncStuckCount p) (onDev s fun d =>
    if (d.stepP p).late ≥ 16 then (d.modStep p fun s => { s with late := 0 }).sidebandStuck else d)

/-- COMMIT_TOKEN (02 R37) at a device other than the root. What its GLB_STEP_TIME shows is not stated: ESP and E4 are events of the
root. -/
def execCommitToken (p : Nat) (t : CommitToken) (s : State) : Res :=
  guarded (.commitToken p t) (.next (s.onStep fun d =>
    let waits := (!d.isRoot p && (d.phase p == 7 || d.phase p == 6)) || ((d.activeSlot p).isNone && d.phase p == 6 && t.switchTo.isSome)
    if d.present p && waits then
      let (a, d) := d.draw
      let (b, d) := d.draw
      let d := (d.setL (GLB_STEP_TIME_STEP_NS p) a.toNat).setL (GLB_STEP_TIME_SYNC_WAIT_NS p) b.toNat
      (d.commit p t)
    else d))

/-! ### The drain of a switch (08 R224, R225) -/

/-- LINK_CREDIT_DRAINED (R224): the outgoing job's credits are back, and the switch goes on from J4. -/
def execLinkCreditDrained (p : Nat) (s : State) : Res :=
  guarded (.linkCreditDrained p) (.next (s.onStep fun d =>
    if (d.stepP p).stage = .drain then
      let back := fun (d : Dev) (n : Nat) => (jobChannels p).foldl (fun (d : Dev) c =>
        let k := (((d.led 3 (36 * n + c)).map fun (l : Ledger) => l.actual.getD 1 0).getD 0).toNat
        d.move 3 (36 * n + c) 1 0 k (some p)) d
      ((List.range 32).foldl back d).drained p false
    else d))

/-- Requests of this device whose start flit is in a list of discarded flits. -/
def discardedTags (fs : List TxFlit) (id : Nat) : List Nat :=
  (fs.filter fun f => f.start && leAt f.data 8 2 % 4096 == id).map fun f => leAt f.data 20 4

/-- The outgoing job's channels of a port reset: frames discarded, their requests marked for reissue, credits issued again. -/
def Dev.resetChannels (d : Dev) (p slot port : Nat) : Dev :=
  let x := d.port port
  let cs := jobChannels p
  let gone := x.queue.filter fun f => cs.contains f.chan
  let asm := x.asm.filter fun (e : Nat × (List Byte × Nat)) => !cs.contains (e.1 / 2)
  let d := d.setPort port { x with queue := x.queue.filter (fun f => !cs.contains f.chan), asm := asm }
  let d := (discardedTags gone d.id).foldl (fun (d : Dev) t =>
    { d with fab := { d.fab with req := tupd d.fab.req t fun r => { r with reset := some slot } } }) d
  let n := d.outstanding p port
  let d := cs.foldl (fun (d : Dev) c =>
    let k := (((d.led 3 (36 * port + c)).map fun (l : Ledger) => l.actual.getD 1 0).getD 0).toNat
    d.move 3 (36 * port + c) 1 0 k (some p)) d
  let d := match tget d.plc.switch p with
    | some w => d.setSwitch p { w with reissued := w.reissued + n }
    | none => d
  (d.flag PLC_STATUS_DRAIN_TIMEOUT PLC_STATUS_DRAIN_TIMEOUT_COUNT).raise (some p) 0x0710 (BitVec.ofNat 64 port) 2 0x101

/-- DRAIN_TIMEOUT (R224): the ports still short are reset, and the switch goes on. -/
def execDrainTimeout (p : Nat) (short : List (Nat × Nat)) (s : State) : Res :=
  guarded (.drainTimeout p short) (.next (s.onStep fun d =>
    if (d.stepP p).stage = .drain then
      let slot := ((tget d.plc.switch p).bind fun x => x.outgoing).getD 0
      (((short.map fun x => x.1).eraseDups).foldl (fun d n => d.resetChannels p slot n) d).drained p true
    else d))

/-! ### Held steps (05 R138, R139) -/

/-- RETRY_TOKEN (R138). -/
def execRetryToken (p : Nat) (s : State) : Res :=
  guarded (.retryToken p) (onDev s fun d => if !d.isRoot p && d.phase p == 7 then d.retryStep p else d)

/-- A session of the held batch leaves it as IDLE, its generation ended with UNCORRECTABLE_WEIGHT, its staged input kept. -/
def Dev.dropHeld (d : Dev) (loc : Nat) : Dev :=
  let s := d.ses loc
  let d := if s.genArmed || s.waitArmed then d.endGen loc 0 stWeight else d
  let d := if s.st = .resident || s.st = .waiting then d.enter loc .idle else d
  d.modSes loc fun s => { s with inBatch := false, linger := false, heldStep := false, heldFor := none, wanted := 0 }

/-- REBUILD_TIMEOUT (R139). -/
def execRebuildTimeout (p : Nat) (s : State) : Res :=
  guarded (.rebuildTimeout p) (.next (s.onStep fun d =>
    if d.getB (TIER_REBUILD_CFG_TIMEOUT_S p) ≠ 0 && (d.stepP p).held && !(d.window p).degraded.isEmpty then
      let d := (d.lens p).foldl (fun d e => d.dropHeld e.loc) d
      let d := ((d.setLens p []).trimReserved p 0).modStep p fun s => { s with held := false, failed := false }
      (d.modWindow p fun w => { w with failed := true }).setPhase p 6
    else d))

/-! ### Loss of a device (02 R46; 14 R377–R380) -/

/-- The full image of a job; a job on a rung keeps it behind its rungs. -/
def Job.fullImage (j : Job) : Option (ImageHdr × Sections) :=
  if j.hdr.rung = 0 then j.sect.map fun c => (j.hdr, c) else j.rungs.getLast?

/-- Positions of the full image whose devices the job no longer has. -/
def Job.missing (j : Job) : List Nat :=
  match j.fullImage, j.sect with
  | some (_, f), some c => ((f.devices.zipIdx.filter fun x => !c.devices.contains x.1).map fun x => x.2)
  | _, _ => []

/-- Initial values of a DOMAIN group that is made anew: those of the latest complete manifest, which the manual lets the shards hold, are
free values here (log 8); with none, those of the image. -/
def Dev.groupInit (d : Dev) (ladder : U64) (g : GroupDef) : List Nat × Dev :=
  if ((d.ladder ladder).getD []).isEmpty then (g.init, d)
  else ((List.range g.count).map fun i => (Config.freeValue (d.free + i)).toNat % (g.init.sum + 1), { d with free := d.free + g.count })

/-- S4: DOMAIN groups of lost devices at the homes that the rung names (14 Table 14.6). -/
def Dev.moveGroups (d : Dev) (p slot : Nat) (lost : List Nat) (h : ImageHdr) (c : Sections) : Dev :=
  let gone := d.plc.group.filter fun (e : Nat × SemGroup) => e.2.part == p && e.2.domain && e.2.job == some slot && lost.contains e.2.home
  let d := { d with plc := { d.plc with group := gone.foldl (fun t (e : Nat × SemGroup) => tdel t e.1) d.plc.group } }
  c.groups.foldl (fun (d : Dev) g =>
    if !g.domain || !gone.any (fun e => e.1 == g.first) then d
    else
      let home := c.devices.getD g.home 0
      let (vals, d) := d.groupInit h.ladder g
      let x : SemGroup := { part := p, first := g.first, count := g.count, total := vals.sum, domain := true, job := some slot, home := home }
      if home = d.id then d.newGroup g.first x vals else { d with plc := { d.plc with group := tput d.plc.group g.first x } }) d

/-- S5: a session with a part on a lost device (R379): its ranges are dropped to depth l_max + 1, so that the pairs which this device
takes over are recomputed; in the batch it leaves as READY. -/
def Dev.affect (d : Dev) (p loc : Nat) (pairs : List (Nat × Nat)) (hold : Bool) : Dev :=
  let s := d.ses loc
  let h := d.sesHdr p loc
  let idx := (List.range (rangesOf s.positions)).flatMap fun r => pairs.map fun x => (r, h.page r x.1 x.2)
  let add := fun (t : Tbl Page) (x : Nat × Nat) => if (tget t x.2).isSome then t
    else tput t x.2 { dropped := true, format := h.kvFormat, rows := min 32 (s.positions - 32 * x.1), keyId := s.keyId }
  let d := d.modSes loc fun s => { s with pages := idx.foldl add s.pages, depth := if idx.isEmpty then s.depth else max 1 s.depth, lossHold := s.lossHold || hold }
  let d := (d.retable loc).recountDropped loc
  if s.inBatch && (s.st == .resident || s.st == .waiting) then
    (d.enter loc .ready).modSes loc fun s => { s with inBatch := false, linger := false, heldStep := false, heldFor := none, wanted := 0 }
  else d

/-- The job halts because no rung fits: its generations end with PEER_LOST, and it accepts only JOB_UNLOAD (R380). -/
def Dev.noRungLeft (d : Dev) (p slot : Nat) : Dev :=
  let d := d.modJob p slot fun j => { j with ended := true }
  let d := (d.modStep p fun s => { s with noRung := true, stage := .none, token := none, held := false }).setPhase p 5
  let mine := d.sesWhere p fun s => (s.genArmed || s.waitArmed) && (d.job p slot).hdr.classes.getLsbD s.cls
  mine.foldl (fun d l => d.endGen l 0 stPeer) d

/-- S3 to S6 for a list of all positions of the full image that are lost. -/
def Dev.moveToRung (d : Dev) (p slot : Nat) (j : Job) (fh : ImageHdr) (fs : Sections) (lost : List Nat) : Dev :=
  let rung := if lost.length ≤ fh.rungs && lost.length > 0 then j.rungs[lost.length - 1]? else none
  match rungOrder fs.devices.length fs.chain lost, rung with
  | some order, some (h, c) =>
    let devs := order.map fun i => fs.devices.getD i 0
    let new := lost.filter fun l => !j.missing.contains l
    let gone := new.map fun l => fs.devices.getD l 0
    let c := { c with devices := devs }
    let before := d.pairs j
    let j' : Job := { j with hdr := h, sect := some c, rungs := if j.hdr.rung = 0 then j.rungs ++ [(fh, fs)] else j.rungs }
    let d := d.setJob p slot j'
    let d := d.moveGroups p slot gone h c
    let d := d.showImage p h (devs.getD h.syncRoot 0) (((coresAt c ((d.position c).getD 0)).map fun x => x.core).eraseDups).length
    let over_ := new.flatMap fun l => pairsAt fs l
    let more := (d.pairs j').filter fun x => !before.contains x
    let hold := d.getB (CKP_CFG_HOLD_AFTER_LOSS p) == 1 && !over_.isEmpty
    let hit := if over_.isEmpty then [] else d.sesWhere p fun s => s.st != .free && s.st != .closing && h.classes.getLsbD s.cls
    let d := hit.foldl (fun d l => d.affect p l more hold) d
    let d := d.setLens p ((d.lens p).filter fun e => (d.ses e.loc).inBatch)
    let d := (d.trimReserved p (((d.lens p).map fun e => e.frames).sum)).modStep p fun s =>
      { s with lossHeld := s.lossHeld || hold, released := d.clock.now }
    d.setPhase p (if (d.lens p).isEmpty then 6 else 0)
  | _, _ => d.noRungLeft p slot

/-- SEM_OPs that wait for the answer of a lost device (02 R46). -/
def Dev.loseOps (d : Dev) (p dev : Nat) : Dev :=
  (tkeys d.rng.descs fun _ e => e.part == p && e.op == 0x45 && semHome d e.d == some dev && (match e.st with
    | .waiting _ => true
    | _ => false)).foldl (fun d k => d.failOpen k stPeer none) d

/-- The job moves to a rung (Table 14.6). -/
def Dev.shrink (d : Dev) (p : Nat) (lost : List Nat) : Dev :=
  match d.activeSlot p with
  | none => d
  | some i =>
    let j := d.job p i
    match j.fullImage with
    | none => d
    | some (fh, fs) =>
      let all_ := (List.range fs.devices.length).filter fun x => lost.contains x || j.missing.contains x
      let d := (d.flag CKP_STATUS_SHRINK CKP_STATUS_SHRINK_COUNT).raiseOpen (some p) 0x0D12 0x107
      let d := (d.abandon p stPeer).discardStep p
      let d := d.modStep p fun s => { s with reports := [], esp := none, failed := false, early := false }
      let d := (all_.map fun l => fs.devices.getD l 0).foldl (fun (d : Dev) x => d.loseOps p x) d
      d.moveToRung p i j fh fs all_

/-- PEER_LOSS_TIMEOUT (02 R46): the root declares the device at a position of its image lost, and sends a SHRINK token in place of the
commit token. -/
def execPeerLossTimeout (p pos : Nat) (s : State) : Res :=
  guarded (.peerLossTimeout p pos) (.next (s.onStep fun d =>
    match d.activeJob p with
    | none => d
    | some j =>
      match j.sect, j.fullImage with
      | some c, some (_, fs) =>
        if d.isRoot p && d.phase p == 1 && !(d.stepP p).held && decide (pos < c.devices.length) && !(d.stepP p).reports.contains pos then
          let dev := c.devices.getD pos 0
          let lost := j.missing ++ ((fs.devices.zipIdx.filter fun x => x.1 == dev).map fun x => x.2)
          let d := ((d.boundaryPeers p).filter (· != dev)).foldl (fun (d : Dev) x => d.emit (.ctrl x (.shrinkToken p lost))) d
          d.shrink p lost
        else d
      | _, _ => d))

/-- SHRINK_TOKEN (14 R377): LOST as positions of the full image. -/
def execShrinkToken (p : Nat) (lost : List Nat) (s : State) : Res :=
  guarded (.shrinkToken p lost) (.next (s.onStep fun d => if !d.isRoot p && (d.phase p == 7 || d.phase p == 6) then d.shrink p lost else d))

/-! ### The mirror (04 R111–R113) -/

/-- A record of a peer's session, by its local number; that of a FREE slot removes it. -/
def putMirror (t : Tbl (List (BitVec 512))) (p : Nat) (x : BitVec 512) : Tbl (List (BitVec 512)) :=
  let key := fun (y : BitVec 512) => y.toNat % 2 ^ 22
  let rest := (tgetD t p []).filter fun y => key y != key x
  tput t p (if x.toNat / 2 ^ 64 % 16 = 0 then rest else x :: rest)

/-- MIRROR (R112): a peer's records are kept and acknowledged. -/
def execMirror (f : Frame) (descs : List (BitVec 512)) (s : State) : Res :=
  guarded (.mirror f descs) (onDev s fun d =>
    let part := fun (x : BitVec 512) => x.toNat / 2 ^ 49 % 8
    let p := (descs.head?.map part).getD (f.chan / 4 - 1)
    let d := { d with tus := { d.tus with mirror := descs.foldl (fun t x => putMirror t (part x) x) d.tus.mirror } }
    d.emit (.ctrl f.src (.mirrorAck p)))

/-- MIRROR_ACK (R112, R113): E12 follows; a peer that was lost and answers again is sent the whole table. -/
def execMirrorAck (p : Nat) (s : State) : Res :=
  guarded (.mirrorAck p) (.next (s.onStep fun d =>
    let d := d.mirrorHeard p
    if (d.stepP p).stage = .mirror then ((d.modStep p fun s => { s with stage := .none }).endCommit p)
    else if d.getL (TUS_COUNT_MSTATE p) = 3 && d.getB (TUS_MIRROR_CFG_EN p) == 1 then (d.mirrorSend p true).setL (TUS_COUNT_MSTATE p) 1
    else d))

/-- MIRROR_ACK_TIMEOUT (R113). -/
def execMirrorAckTimeout (p : Nat) (s : State) : Res :=
  guarded (.mirrorAckTimeout p) (.next (s.onStep fun d =>
    if (d.stepP p).stage = .mirror then
      let d := (d.mirrorHeard p).flag TUS_STATUS_MIRROR_LOST TUS_STATUS_MIRROR_LOST_COUNT
      let d := (d.raiseOpen (some p) 0x0210 0x100).setL (TUS_COUNT_MSTATE p) 3
      ((d.modStep p fun s => { s with stage := .none }).endCommit p)
    else d))

/-! ### Beat rates (02 R30) -/

/-- BEAT_SENSOR_WINDOW (R30): RATE and the lowest RATE of a die that is present. -/
def execBeatSensorWindow (die : Nat) (rate : U16) (s : State) : Res :=
  guarded (.beatSensorWindow die rate) (onDev s fun d =>
    if decide (die < 5 + d.getF GLB_ASSEMBLY_L_DIES) && d.running then
      let d := d.setF (GLB_BEAT_RATE_RATE die) rate.toNat
      if rate.toNat < d.getF (GLB_BEAT_RATE_MIN_RATE die) then d.setF (GLB_BEAT_RATE_MIN_RATE die) rate.toNat else d
    else d)

end Sys2Proof.Machine
end

