-- ==== Sys2Proof/Machine/Ledger.lean ====
section
/-! DEFINITION. The ledger's opcodes, delta records, error correction, the patrol scrub and retired frames
(15_ledger_faults_selftest.md R389–R401, R406, R412, R413). -/

namespace Sys2Proof.Machine

/-- MASTER of a record that the ledger unit raises (Table 13.2; log 16). -/
def ledgerMaster : Nat := 0x105

/-! ### LEDGER_DELTA (R389, R391) -/

/-- A delta record reaches the ledger unit: one of a step that is still running elsewhere in time is held, any other is added. -/
def Dev.deltaArrives (d : Dev) (r : Delta) : Dev :=
  let d := { d with ldg := { d.ldg with flying := d.ldg.flying.erase r } }
  if decide (r.step > (d.stepP r.part).number.toNat) then { d with ldg := { d.ldg with flying := d.ldg.flying ++ [r] } }
  else d.applyDelta r

/-- LEDGER_DELTA (R389). -/
def execLedgerDelta (r : Delta) (s : State) : Res := guarded (.ledgerDelta r) (onDev s fun d => d.deltaArrives r)

/-! ### LOG_READ, OVERLAY_READ (R401, R406) -/

/-- LOG_READ applied: the records from FIRST that the log holds. PHASE, which the log does not store, is a free value. -/
def doLogRead (d : Dev) (k : Nat) (e : DescEntry) : Dev :=
  let first := fieldAt e.d 24 4
  let put := fun (d : Dev) (i : Nat) => match d.logAt ((first + i) % 2 ^ 32) with
    | none => d
    | some r =>
      let (v, d) := d.draw
      d.emitFor e.part (.faultRec (BitVec.ofNat 64 (fieldAt e.d 16 8 + 32 * i)) (v.getLsbD 0) r)
  let d := (List.range (fieldAt e.d 28 4)).foldl put d
  let gone := d.flash.next - d.flash.log.length
  d.ok k (BitVec.ofNat 64 d.flash.next) (BitVec.ofNat 32 (min gone first))

/-- LOG_READ (R401). -/
def execLogRead (ring : Nat) (x : Desc) (s : State) : Res :=
  guarded (.logRead ring x) (onDev s fun d =>
    d.runOp 0xB0 ring x
      (fun _ _ x => if fieldAt x 16 8 % 8 ≠ 0 ∨ fieldAt x 28 4 = 0 ∨ fieldAt x 28 4 > 65536 then stBad else stOk) doLogRead)

/-- Bytes of an overlay entry (R406). -/
def OverlayEnt.bytes (x : OverlayEnt) : List Byte :=
  record [(1, x.kind), (1, x.source), (1, x.passes), (1, 0), (4, x.unit), (4, x.epoch), (4, 0)]

/-- OVERLAY_READ (R406). -/
def execOverlayRead (ring : Nat) (x : Desc) (s : State) : Res :=
  guarded (.overlayRead ring x) (onDev s fun d =>
    d.runOp 0xB3 ring x (fun _ _ x => if fieldAt x 24 4 = 0 ∨ fieldAt x 24 4 > 65536 then stBad else stOk) fun d k e =>
      let es := d.flash.overlay.take (fieldAt e.d 24 4)
      let d := if es.isEmpty then d else d.emitFor e.part (.hostWrite e.part (BitVec.ofNat 64 (fieldAt e.d 16 8)) (es.flatMap OverlayEnt.bytes))
      d.ok k (BitVec.ofNat 64 es.length) (BitVec.ofNat 32 d.flash.overlay.length))

/-! ### PART_RESET (R397) -/

/-- Work under way for a partition ends: its checkpoint, its copies, and the descriptors that wait on what goes, which complete with
WRONG_STATE (DESIGN CHOICE, log 49). Requests about extents stay, as the extents do. -/
def Dev.wipeWork (d : Dev) (p k : Nat) : Dev :=
  let ds := tkeys d.rng.descs fun i e => e.part == p && i != k && e.op != 0x06 && (match e.st with
    | .waiting (.ringDown _) => false
    | .waiting _ => true
    | _ => false)
  let d := ds.foldl (fun (d : Dev) i => d.refuse i stWrong) (d.abandon p stWrong)
  let keep := fun (r : Req) => r.part != p || (match r.purpose with
    | .extentOp _ => true
    | .hostLine _ _ _ => true
    | .peer _ => true
    | _ => false)
  { d with tier := { d.tier with copy := d.tier.copy.filter fun c => !ds.contains c.desc },
           ckp := { d.ckp with restore := d.ckp.restore.filter fun (e : Nat × Restore) => e.2.part != p },
           fab := { d.fab with req := d.fab.req.filter (fun (e : Nat × Req) => keep e.2),
                               offer := d.fab.offer.filter (fun (e : Nat × OfferTxn) => !ds.contains e.2.desc),
                               accept := d.fab.accept.filter (fun (e : Nat × AcceptTxn) => !ds.contains e.2.desc) } }

/-- Ledger instances of a partition re-based from actual figures (R397). -/
def Dev.rebase (d : Dev) (p : Nat) : Dev :=
  let f := d.frames p
  let retired := f.retired + (d.ldg.retiring.filter fun (r : Nat × Nat) => r.1 == p).length
  let left := f.free + f.kv + f.region + f.system + f.reserved + f.retired - retired
  let d := { d with tier := { d.tier with frames := tput d.tier.frames p { free := left, retired := retired } } }
  let base := fun (e : Nat × Ledger) =>
    if e.2.part != some p then e
    else
      let now : List Int := if e.1 = ledgerKey 0 p then [(left : Int), 0, 0, 0, 0, (retired : Int)]
        else if e.1 = ledgerKey 1 p then List.replicate 6 0 else e.2.actual
      (e.1, { e.2 with actual := now, held := now, total := now.sum })
  { d with ldg := { d.ldg with inst := d.ldg.inst.map base, flying := d.ldg.flying.filter (fun (r : Delta) => r.part != p),
                               retiring := d.ldg.retiring.filter (fun (r : Nat × Nat) => r.1 != p), events := d.ldg.events.filter fun (e : Nat × Nat × Nat) => e.2.2 != p } }

/-- PART_RESET applied. -/
def doPartReset (d : Dev) (k : Nat) (e : DescEntry) : Dev :=
  let p := e.part
  if d.phase p ≠ 5 && (d.activeSlot p).isSome then d.refuse k stWrong
  else
    let sessions := (d.sesWhere p fun s => s.st != .free).length
    let regions := (tkeys d.tier.region fun _ r => r.part == p).length
    let d := (((((d.wipeWork p k).wipeJobs p).wipeSessions p).wipeRegions p).wipeFrames p).rebase p
    let d := (d.setReg (TOK_BIND p) 0).showDegraded p
    (d.setPhase p 6).ok k (BitVec.ofNat 64 sessions) (BitVec.ofNat 32 regions)

/-- PART_RESET (R397). -/
def execPartReset (ring : Nat) (x : Desc) (s : State) : Res :=
  guarded (.partReset ring x) (.next (s.onStep fun d => d.runOp 0xB1 ring x (fun _ _ _ => stOk) doPartReset))

/-! ### Error correction (R399) -/

/-- A corrected error at a device address, counted for its 64 B location within one scrub period. -/
def Dev.eccCorrected (d : Dev) (addr : Nat) : Dev :=
  let d := d.incF LDG_ECC_CORRECTED
  let (n, since) := tgetD d.ldg.ecc (addr / 64) (0, d.clock.now)
  let over_ := decide ((d.clock.now - since).toNat ≥ d.getF LDG_SCRUB_CFG_SCRUB_HOURS * 3600000000000)
  let new : Nat × U64 := if over_ then (1, d.clock.now) else (n + 1, since)
  { d with ldg := { d.ldg with ecc := tput d.ldg.ecc (addr / 64) new } }

/-- An uncorrectable error, with UNCORRECTABLE_ECC of the block that holds the memory. -/
def Dev.eccBad (d : Dev) (part : Option Nat) (block : Nat) (addr : U64) : Dev :=
  let d := (d.incF LDG_ECC_UNCORRECTABLE).flag LDG_STATUS_ECC_UNCORRECTABLE LDG_EVENTS_UNCORR_COUNT
  d.raise part (block * 256 + 4) addr 2 ledgerMaster

/-- Tile of a region that lies in the T1 frame at a device address. -/
def Dev.tileAt (d : Dev) (addr : U64) : Option (Nat × Nat) :=
  d.tier.region.findSome? fun (e : Nat × Region) =>
    (e.2.tile.find? fun (x : Nat × Tile) => x.2.tier == 1 && x.2.gen != 0 && x.2.storedAt == addr).map fun x => (e.1, x.1)

/-- Sessions and page indexes whose pages lie in a T1 frame. -/
def Dev.pagesIn (d : Dev) (frame : Nat) : List (Nat × Nat) :=
  d.tus.slot.flatMap fun (e : Nat × Session) =>
    (e.2.pages.filter fun (x : Nat × Page) => x.2.frames.contains frame).map fun x => (e.1, x.1)

/-- Partition of a T1 frame by what it holds. -/
def Dev.frameOwner (d : Dev) (frame : Nat) : Option Nat :=
  match d.pagesIn frame with
  | x :: _ => d.locOwner x.1
  | [] => (d.tileAt (d.frameAddr frame)).bind fun x => (d.region x.1).map fun (r : Region) => r.part

/-- Frames that hold KV pages and lie at a device address. -/
def Dev.kvFramesAt (d : Dev) (addr : U64) : List Nat :=
  ((d.tus.slot.flatMap fun (e : Nat × Session) => e.2.pages.flatMap fun (x : Nat × Page) => x.2.frames).eraseDups).filter fun f => d.frameAddr f == addr

/-- An uncorrectable location of a T1 frame: a tile in it is what every reader gets as damaged (05 R124, R133); a frame of KV pages is
bad until it is reclaimed, which the next walk of it meets (06 R172). -/
def Dev.frameBad (d : Dev) (addr : U64) : Dev :=
  let d := { d with kva := { d.kva with bad := (d.kvFramesAt addr).filter (fun f => !d.kva.bad.contains f) ++ d.kva.bad } }
  match d.tileAt addr with
  | some (n, t) => d.modTile n t fun x => { x with bad := stPoison }
  | none => d

/-- An uncorrectable error in step data: the step fails without a rebuild wait, and a second one in it halts the partition with
INTERNAL (R399). -/
def Dev.stepDamaged (d : Dev) (p block : Nat) (addr : U64) : Dev :=
  if d.phase p ≠ 0 then d
  else if (d.stepP p).eccAt = some (d.stepP p).number then
    (d.raise (some p) (block * 256 + 8) addr 2 ledgerMaster).haltPart p
  else d.modStep p fun s => { s with failed := true, eccAt := some s.number }

/-- PATROL_SCRUB_TICK (R399, R400): a system area that is damaged in one copy is repaired from the other (R396). -/
def execPatrolScrubTick (site : ScrubSite) (r : EccResult) (s : State) : Res :=
  guarded (.patrolScrubTick site r) (.next (s.onStep fun d =>
    match r with
    | .clean => d
    | .corrected =>
      match site with
      | .frame n line => d.eccCorrected ((d.frameAddr n).toNat + 64 * line)
      | .area n _ => d.eccCorrected (d.devAddr (Config.areaOffset n).toNat).toNat
      | _ => d.incF LDG_ECC_CORRECTED
    | .uncorrectable =>
      match site with
      | .frame n line => (d.eccBad (d.frameOwner n) 0x04 (d.frameAddr n + BitVec.ofNat 64 (64 * line))).frameBad (d.frameAddr n)
      | .area n _ =>
        let a := d.devAddr (Config.areaOffset n).toNat
        ((d.eccBad none 0x04 a).flag LDG_STATUS_COPY_REPAIRED LDG_EVENTS_REPAIRED_COUNT).raise none 0x0E11 a 2 ledgerMaster
      | .sram w part =>
        let a := BitVec.ofNat 64 w
        let d := d.eccBad part 0x0E a
        match part with
        | some p => d.stepDamaged p 0x0E a
        | none => d
      | .core n w =>
        let a := BitVec.ofNat 64 w
        let d := d.eccBad (d.corePart n) 0x07 a
        match d.corePart n with
        | some p => d.stepDamaged p 0x07 a
        | none => d))

/-! ### FRAME_RETIRE (R400) -/

/-- Some location of a frame has RETIRE_LIMIT corrected errors. -/
def Dev.wornOut (d : Dev) (frame : Nat) : Bool :=
  let lo := (d.frameAddr frame).toNat / 64
  d.ldg.ecc.any fun (e : Nat × (Nat × U64)) => decide (lo ≤ e.1 ∧ e.1 < lo + 1024 ∧ d.getF LDG_SCRUB_CFG_RETIRE_LIMIT ≤ e.2.1)

/-- KV pages of a frame copied to a new one; runs that reach into a second frame stay where they are. -/
def Dev.retirePages (d : Dev) (p frame : Nat) : Dev :=
  let xs := d.pagesIn frame
  let (f, d) := d.newKvFrame p 0
  let move := fun (x : Page) => { x with frame := f, storedAt := if x.tier = 1 then d.frameAddr f + BitVec.ofNat 64 (512 * x.off) else x.storedAt }
  let d := xs.foldl (fun (d : Dev) x => d.modSes x.1 fun s => { s with pages := tupd s.pages x.2 move }) d
  let n := d.refs frame
  let d := { d with kva := { d.kva with count := tput (tdel d.kva.count frame) f n } }
  { d with ldg := { d.ldg with retiring := d.ldg.retiring ++ [(p, 1)] } }

/-- The tile of a frame copied to a new one. -/
def Dev.retireTile (d : Dev) (p n t : Nat) : Dev :=
  let (a, d) := d.newFrame
  let d := (d.moveFrames p 0 2 1).modTile n t fun x => { x with storedAt := a }
  { d with ldg := { d.ldg with retiring := d.ldg.retiring ++ [(p, 2)] } }

/-- A frame's contents go to a free frame of its partition, and it is RETIRED at the next E8. -/
def Dev.retireFrame (d : Dev) (frame : Nat) : Dev :=
  let a := d.frameAddr frame
  let p := (d.frameOwner frame).getD d.lead
  let xs := d.pagesIn frame
  let split := xs.any fun x => ((tget (d.ses x.1).pages x.2).map fun y => y.frames.length).getD 1 > 1
  if d.freeFrames p = 0 ∨ split then d
  else
    let d := match xs, d.tileAt a with
      | _ :: _, _ => d.retirePages p frame
      | [], some (n, t) => d.retireTile p n t
      | [], none => { d with ldg := { d.ldg with retiring := d.ldg.retiring ++ [(p, 0)] } }
    let lo := a.toNat / 64
    let d := { d with ldg := { d.ldg with ecc := d.ldg.ecc.filter fun (e : Nat × (Nat × U64)) => decide (e.1 < lo ∨ lo + 1024 ≤ e.1) } }
    let es := markFailed d.flash.overlay [{ kind := 5, unit := frame }] 2 d.flash.epoch
    let d := { d with flash := { d.flash with overlay := es } }
    let d := d.setF LDG_OVERLAY_ENTRIES es.length
    (d.flag LDG_STATUS_PAGE_RETIRED LDG_EVENTS_RETIRED_COUNT).raise (some p) 0x0E12 a 2 ledgerMaster

/-- FRAME_RETIRE (R400). -/
def execFrameRetire (frame : Nat) (s : State) : Res :=
  guarded (.frameRetire frame) (onDev s fun d => if d.wornOut frame then d.retireFrame frame else d)

/-! ### FAULT_INJECT (R412) -/

/-- A partition may inject into a ledger instance: its own, or a device-scope one in whole-device mode, as R393 lets it read them. -/
def Dev.mayInject (d : Dev) (p key : Nat) : Bool :=
  match tget d.ldg.inst key with
  | none => true
  | some l => l.part == some p || (l.part.isNone && d.whole)

/-- Checks of FAULT_INJECT. -/
def chkFaultInject (d : Dev) (p : Nat) (x : Desc) : Byte :=
  let kind := fieldAt x 16 1
  let key := fieldAt x 20 4
  if kind = 0 ∨ kind > 4 ∨ (kind = 1 ∧ fieldAt x 17 1 ≥ ledgerPlaces (key / 0x1000000)) ∨
      (kind = 4 ∧ fieldAt x 24 8 ≥ 8 * d.getF GLB_ASSEMBLY_L_DIES) then stBad
  else if kind = 1 ∧ !d.mayInject p key then stDenied
  else stOk

/-- FAULT_INJECT applied. The injected delta adds to one place and takes from none: place 7 of the model. -/
def doFaultInject (d : Dev) (k : Nat) (e : DescEntry) : Dev :=
  let key := fieldAt e.d 20 4
  let addr := BitVec.ofNat 64 (fieldAt e.d 24 8)
  let d := match fieldAt e.d 16 1 with
    | 1 =>
      let p := ((tget d.ldg.inst key).bind fun l => l.part).getD d.lead
      let r : Delta := { cls := key / 0x1000000, inst := key % 0x1000000, fromP := 7, toP := fieldAt e.d 17 1, amount := 1,
                         step := (d.stepP p).number.toNat, part := p }
      { d with ldg := { d.ldg with flying := d.ldg.flying ++ [r] } }
    | 2 => d.eccCorrected addr.toNat
    | 3 =>
      let base := BitVec.ofNat 64 (addr.toNat / pageBytes * pageBytes)
      let owner := match d.kvFramesAt base, d.tileAt base with
        | f :: _, _ => d.frameOwner f
        | [], t => t.bind fun x => (d.region x.1).map fun (r : Region) => r.part
      (d.eccBad owner 0x04 addr).frameBad base
    | _ => { d with ldg := { d.ldg with crcPorts := addr.toNat :: d.ldg.crcPorts.filter (· != addr.toNat) } }
  ((d.setF LDG_GUARANTEE_INJECTED 1).showGuarantee).ok k 0 0

/-- FAULT_INJECT (R412). -/
def execFaultInject (ring : Nat) (x : Desc) (s : State) : Res :=
  guarded (.faultInject ring x) (onDev s fun d => d.runOp 0xB2 ring x chkFaultInject doFaultInject)

end Sys2Proof.Machine
end

