-- ==== Sys2Proof/Machine/Attest.lean ====
section
/-! DEFINITION. The SPDM responder and the TDISP report (13_partitions_keys.md R350, R357, R359, R360). The manual names the
requests and what their answers carry; the bytes of the messages are those of the standards it cites (log 50). -/

namespace Sys2Proof.Machine

/-- A mailbox is there (17 Table 17.3): in whole-device mode PF0 carries the requests of partition 0. -/
def Dev.mailbox (d : Dev) : Mailbox → Bool
  | .pf0 => d.hostUp && d.getF GLB_ASSEMBLY_HOST_ROLE != 0
  | .func p => d.funcUp p && !d.whole
  | .mctp => d.sideband

/-- Partition that a mailbox's requests act for. -/
def Dev.mailPart (d : Dev) : Mailbox → Option Nat
  | .pf0 => if d.whole then some 0 else none
  | .func p => some p
  | .mctp => none

/-- A request reaches a mailbox; none answers where there is no mailbox. -/
def Dev.mailed (d : Dev) (mb : Mailbox) (f : Dev → Dev) : Dev := if d.mailbox mb then f d else d

/-- An SPDM response. -/
def Dev.spdm (d : Dev) (mb : Mailbox) (name : String) (data : List Byte) (sig : Option (BitVec 768)) : Dev :=
  d.emit (.answer (.spdm mb name data sig))

/-- An SPDM ERROR response to a request. -/
def Dev.spdmBad (d : Dev) (mb : Mailbox) (name : String) : Dev := d.emit (.answer (.spdmError mb name))

/-- A signature over bytes with the key of a certificate slot: 0 device identity, 1 alias. -/
def signed (slot : Nat) (bs : List Byte) : BitVec 768 := Config.sign slot (Config.sha384 bs)

/-! ### Requests outside a session (R359) -/

/-- GET_VERSION (R359): SPDM 1.3. -/
def execGetVersion (mb : Mailbox) (s : State) : Res :=
  guarded (.getVersion mb) (onDev s fun d => d.mailed mb fun d => d.spdm mb "VERSION" [1, 3] none)

/-- GET_CAPABILITIES (R359). -/
def execGetCapabilities (mb : Mailbox) (s : State) : Res :=
  guarded (.getCapabilities mb) (onDev s fun d => d.mailed mb fun d => d.spdm mb "CAPABILITIES" [] none)

/-- NEGOTIATE_ALGORITHMS (R359): ECDSA P-384, SHA-384, ECDHE secp384r1, AES-256-GCM, the only ones. -/
def execNegotiateAlgorithms (mb : Mailbox) (s : State) : Res :=
  guarded (.negotiateAlgorithms mb) (onDev s fun d => d.mailed mb fun d => d.spdm mb "ALGORITHMS" [] none)

/-- GET_DIGESTS (R359): of slots 0 and 1. -/
def execGetDigests (mb : Mailbox) (s : State) : Res :=
  guarded (.getDigests mb) (onDev s fun d => d.mailed mb fun d =>
    d.spdm mb "DIGESTS" (digestBytes (Config.certDigest 0) ++ digestBytes (Config.certDigest 1)) none)

/-- GET_CERTIFICATE (R359). -/
def execGetCertificate (mb : Mailbox) (slot offset length : Nat) (s : State) : Res :=
  guarded (.getCertificate mb slot offset length) (onDev s fun d => d.mailed mb fun d =>
    if slot > 1 then d.spdmBad mb "GET_CERTIFICATE"
    else d.spdm mb "CERTIFICATE" (((Config.certChain slot).drop offset).take length) none)

/-- CHALLENGE (R359): signed with the slot's key over the digest of its certificates and the nonce. -/
def execChallenge (mb : Mailbox) (slot : Nat) (nonce : BitVec 256) (s : State) : Res :=
  guarded (.challenge mb slot nonce) (onDev s fun d => d.mailed mb fun d =>
    if slot > 1 then d.spdmBad mb "CHALLENGE"
    else
      let bs := digestBytes (Config.certDigest slot)
      d.spdm mb "CHALLENGE_AUTH" bs (some (signed slot (bs ++ leBytes 32 nonce.toNat))))

/-! ### Measurements (R360) -/

/-- The firmware that runs. -/
def Dev.firmware (d : Dev) : Option FwSlot := if d.flash.running then d.flash.slotB else d.flash.slotA

/-- The slice map's digest, zero where none is held. -/
def Dev.mapDigest (d : Dev) : Digest := d.flash.map.elim 0 fun m => m.digest

/-- A measurement block (Table 13.7) as a partition's mailbox, or one of no partition, is served. The places of block 3's fields in its
8 bytes are the model's (log 50). -/
def Dev.measure (d : Dev) (part : Option Nat) : Nat → Option (List Byte)
  | 1 => some (digestBytes Config.bootRomDigest)
  | 2 => some (digestBytes (d.firmware.elim 0 fun x => x.digest))
  | 3 => some (record [(4, d.firmware.elim 0 fun x => x.sec.toNat), (1, d.firmware.elim 0 fun x => x.prod.toNat), (1, d.flash.debugOpen.toNat), (2, 0)])
  | 4 => some (digestBytes d.mapDigest)
  | 5 => some (digestBytes (Config.sha384 (d.flash.overlay.flatMap OverlayEnt.bytes)))
  | 6 => some (record [(8, (d.reg GLB_ASSEMBLY).toNat), (8, d.flash.epoch)])
  | 7 => part.map fun p => digestBytes (Config.recordDigest d.mapDigest p)
  | 8 => part.map fun p => (List.range 4).flatMap fun i =>
      let j := d.job p i
      digestBytes (if j.st = .empty then 0 else j.full)
  | _ => none

/-- The blocks that a request asks for: index 0xFF all that are served. -/
def Dev.measures (d : Dev) (part : Option Nat) (index : Nat) : Option (List Byte) :=
  let one := fun (i : Nat) => (d.measure part i).map fun bs => BitVec.ofNat 8 i :: bs
  if index = 0xFF then some ((List.range 9).flatMap fun i => (one i).getD []) else one index

/-- GET_MEASUREMENTS (R360): signed with the alias key. Index 0 asks for the number of blocks. -/
def execGetMeasurements (mb : Mailbox) (index : Nat) (nonce : BitVec 256) (s : State) : Res :=
  guarded (.getMeasurements mb index nonce) (onDev s fun d => d.mailed mb fun d =>
    let part := d.mailPart mb
    if index = 0 then d.spdm mb "MEASUREMENTS" [if part.isSome then 8 else 6] none
    else match d.measures part index with
      | none => d.spdmBad mb "GET_MEASUREMENTS"
      | some bs => d.spdm mb "MEASUREMENTS" bs (some (signed 1 (bs ++ leBytes 32 nonce.toNat))))

/-! ### Sessions (R359) -/

/-- The device with SPDM session `sid` at a value. -/
def Dev.setSpdm (d : Dev) (sid : Nat) (x : SpdmSession) : Dev := { d with sec := { d.sec with spdm := tput d.sec.spdm sid x } }

/-- Session `sid` of a mailbox. -/
def Dev.spdmSes (d : Dev) (mb : Mailbox) (sid : Nat) : Option SpdmSession := (tget d.sec.spdm sid).filter fun x => x.mb == mb

/-- A request within an established session; any other is answered ERROR. -/
def Dev.inSession (d : Dev) (mb : Mailbox) (sid : Nat) (name : String) (f : SpdmSession → Dev) : Dev :=
  match d.spdmSes mb sid with
  | some x => if x.done then f x else d.spdmBad mb name
  | none => d.spdmBad mb name

/-- KEY_EXCHANGE (R359): signed with the device-identity key. -/
def execKeyExchange (mb : Mailbox) (req : Nat) (owner : Bool) (s : State) : Res :=
  guarded (.keyExchange mb req owner) (onDev s fun d => d.mailed mb fun d =>
    let sid := d.sec.spdmNext
    let d := (({ d with sec := { d.sec with spdmNext := sid + 1 } }).setSpdm sid { mb := mb, owner := owner })
    let bs := record [(2, req), (2, sid)]
    d.spdm mb "KEY_EXCHANGE_RSP" bs (some (signed 0 bs)))

/-- FINISH (R359). -/
def execFinish (mb : Mailbox) (sid : Nat) (s : State) : Res :=
  guarded (.finish mb sid) (onDev s fun d => d.mailed mb fun d =>
    match d.spdmSes mb sid with
    | some x => if x.done then d.spdmBad mb "FINISH" else (d.setSpdm sid { x with done := true }).spdm mb "FINISH_RSP" [] none
    | none => d.spdmBad mb "FINISH")

/-- HEARTBEAT (R359). -/
def execHeartbeat (mb : Mailbox) (sid : Nat) (s : State) : Res :=
  guarded (.heartbeat mb sid) (onDev s fun d => d.mailed mb fun d =>
    d.inSession mb sid "HEARTBEAT" fun _ => d.spdm mb "HEARTBEAT_ACK" [] none)

/-- KEY_UPDATE (R359). -/
def execKeyUpdate (mb : Mailbox) (sid : Nat) (s : State) : Res :=
  guarded (.keyUpdate mb sid) (onDev s fun d => d.mailed mb fun d =>
    d.inSession mb sid "KEY_UPDATE" fun x => (d.setSpdm sid { x with updates := x.updates + 1 }).spdm mb "KEY_UPDATE_ACK" [] none)

/-- END_SESSION (R359). -/
def execEndSession (mb : Mailbox) (sid : Nat) (s : State) : Res :=
  guarded (.endSession mb sid) (onDev s fun d => d.mailed mb fun d =>
    d.inSession mb sid "END_SESSION" fun _ =>
      ({ d with sec := { d.sec with spdm := tdel d.sec.spdm sid } }).spdm mb "END_SESSION_ACK" [] none)

/-! ### Vendor-defined requests and IDE keys (R350, R357) -/

/-- KEK_SET (R350): within a session to the partition; a TDI being scrubbed takes no KEK (R358; DESIGN CHOICE, log 50). -/
def execKekSet (mb : Mailbox) (sid : Nat) (kek : BitVec 256) (s : State) : Res :=
  guarded (.kekSet mb sid kek) (onDev s fun d => d.mailed mb fun d =>
    d.inSession mb sid "KEK_SET" fun _ =>
      match d.mailPart mb with
      | none => d.spdmBad mb "KEK_SET"
      | some p =>
        if d.tdi p = .scrubbing then d.spdmBad mb "KEK_SET"
        else (({ d with sec := { d.sec with kek := tput d.sec.kek p kek } }).setF (SEC_TDI_KEK_SET p) 1).spdm mb "KEK_SET" [] none)

/-- Streams of a port (R357): 0 of PF0, p + 1 of partition p's function. A partition's mailbox keys its own stream alone (log 50). -/
def Dev.mayKey (d : Dev) (mb : Mailbox) (port stream : Nat) : Bool :=
  (d.getF GLB_ASSEMBLY_HOST_ROLE).testBit port && decide (stream ≤ 8) &&
  match mb with
  | .func p => stream == p + 1
  | _ => true

/-- IDE_KM (R357). -/
def execIdeKm (mb : Mailbox) (sid port stream : Nat) (key : BitVec 256) (s : State) : Res :=
  guarded (.ideKm mb sid port stream key) (onDev s fun d => d.mailed mb fun d =>
    d.inSession mb sid "IDE_KM" fun _ =>
      if d.mayKey mb port stream then
        ({ d with sec := { d.sec with ide := tput d.sec.ide (16 * port + stream) key } }).spdm mb "IDE_KM" [] none
      else d.spdmBad mb "IDE_KM")

/-! ### The device interface report (R359) -/

/-- Offsets of the registers of a partition (17 R440). -/
def partRegs (p : Nat) : List Nat :=
  (List.range 16).flatMap fun b => (regsOfBlock b).flatMap fun r =>
    ((List.range r.count).filter fun i => r.part i == some p).map fun i => r.base + 8 * i

/-- Registers that report the resources of Table 13.1. -/
def tableRegs (p : Nat) : List Nat :=
  ((List.range 4).map fun c => PLC_PART_CORES p c) ++
  [SEC_PART p, TIER_FRAMES p, RNG_PART_RINGS p, TUS_PART p, RED_PART p, RED_QUOTA p, PLC_SEM p, SLU_PART p]

/-- GET_DEVICE_INTERFACE_REPORT (R359): register offsets of the partition, then the values of Table 13.1's registers. -/
def execGetDeviceInterfaceReport (p : Nat) (s : State) : Res :=
  guarded (.getDeviceInterfaceReport p) (onDev s fun d =>
    if d.funcUp p then
      d.emit (.answer (.tdisp p "DEVICE_INTERFACE_REPORT" (((partRegs p).map (BitVec.ofNat 64)) ++ ((tableRegs p).map fun o => d.reg o))))
    else d)

end Sys2Proof.Machine
end

