-- ==== Sys2Proof/Machine/Doorbell.lean ====
section
/-! DEFINITION. Doorbell scans, descriptors and data arriving from host memory, interrupts, and the ring-class opcodes
(03_rings_doorbells.md R51–R59, R63, R72–R74, R457; 17_registers_connectors.md R444). -/

namespace Sys2Proof.Machine

/-! ### Scans (R52, R55, R56) -/

/-- Host address of an entry of a partition's doorbell area. -/
def Dev.dbAddr (d : Dev) (p rec_ entry : Nat) : U64 := BitVec.ofNat 64 (64 * d.getF (RNG_DB_BASE_ADDR p) + 64 * rec_ + 8 * entry)

/-- Rings of a partition whose entries stand in record `rec_` (R52), with their places in it. -/
def Dev.recordRings (d : Dev) (p rec_ : Nat) : List (Nat × Nat) :=
  if rec_ = 0 then []
  else ((List.range 4).filter fun j => decide (4 * (rec_ - 1) + j < d.getF (RNG_PART_RINGS_RING_COUNT p))).map fun j =>
    (d.adminRing p + 4 * (rec_ - 1) + j, j)

/-- Records that a scan reads: record 0, and those holding a ring that is not DISABLED. -/
def Dev.scanList (d : Dev) (p : Nat) : List Nat :=
  0 :: ((List.range (ceilDiv (d.getF (RNG_PART_RINGS_RING_COUNT p)) 4)).map (· + 1)).filter fun r =>
    (d.recordRings p r).any fun x => (d.ring x.1).st != .disabled

/-- A partition's rings may be scanned: EN is 1, and neither a shut-down (16 Table 16.10 X1) nor its TDI (13 R357) has stopped it. -/
def Dev.scans (d : Dev) (p : Nat) : Bool :=
  d.present p && d.getF (RNG_DB_BASE_EN p) == 1 && !d.stopping && !d.dmaStopped p

/-- A scan starts: its record reads are issued. -/
def Dev.startScan (d : Dev) (p : Nat) : Dev :=
  if !d.scans p || !(d.pr p).scan.isEmpty then d
  else
    let rs := d.scanList p
    let d := d.modPr p fun x => { x with scan := rs, pending := false, timer := false }
    d.emits (rs.map fun r => .hostRead p (d.dbAddr p r 0) 64)

/-- A WAKE write (R55): a scan starts, or is pending while one runs. -/
def Dev.wake (d : Dev) (p : Nat) : Dev :=
  if !d.scans p then d
  else if (d.pr p).scan.isEmpty then d.startScan p
  else d.modPr p fun x => { x with pending := true }

/-- SCAN_TIMER_EXPIRY (R55). -/
def execScanTimerExpiry (p : Nat) (s : State) : Res :=
  guarded (.scanTimerExpiry p) (onDev s fun d => if (d.pr p).timer then d.startScan p else d)

/-- A record of the scan is dealt with; after the last one the timer restarts, or the pending scan starts. -/
def Dev.recordDone (d : Dev) (p rec_ : Nat) : Dev :=
  let d := d.modPr p fun x => { x with scan := x.scan.erase rec_ }
  let x := d.pr p
  if !x.scan.isEmpty then d
  else
    let d := d.modPr p fun x => { x with timer := true }
    if x.pending then d.startScan p else d

/-! ### Doorbell entries (R53, R58, R59) -/

/-- The device with the reads that a ring has issued given up: their descriptors stay unfetched. -/
def Dev.dropIssued (d : Dev) (n : Nat) : Dev :=
  let r := d.ring n
  let d := d.unreserve r.cqTarget r.issued
  d.setRing n { d.ring n with issued := 0 }

/-- A ring enters ERROR, with a fault record (R58). -/
def Dev.ringError (d : Dev) (n code : Nat) (addr : U64) : Dev :=
  let p := d.ringOwner n
  let d := d.dropIssued n
  let d := d.setRing n { d.ring n with st := .error }
  (d.flag (RNG_STATUS_RING_ERR (p.getD 0)) (RNG_STATUS_RING_ERRORS (p.getD 0))).raise p code addr 0 ringMaster

/-- COUNT of a doorbell entry. -/
def entryCount (e : U64) : U32 := e.setWidth 32

/-- What is wrong with an SQ tail entry. -/
def Ring.tailFault (r : Ring) (e : U64) : Option Nat :=
  if e.toNat ≥ 2 ^ 32 then some 0x0111
  else if (entryCount e - r.fetched).toNat > 2 ^ r.sqLog2 then some 0x0110 else none

/-- What is wrong with a head entry: of a CQ, of the error log or of telemetry. -/
def headFault (written : U32) (log2 : Nat) (e : U64) : Option Nat :=
  if e.toNat ≥ 2 ^ 32 then some 0x0111
  else if (written - entryCount e).toNat > 2 ^ log2 then some 0x0110 else none

/-- The head after an entry: a backward move is ignored (R59). -/
def headTaken (written head : U32) (e : U64) : U32 :=
  if (written - entryCount e).toNat ≤ (written - head).toNat then entryCount e else head

/-- A CQ head entry taken: the slots that it frees. -/
def Dev.takeHead (d : Dev) (n : Nat) (e : U64) : Dev :=
  let r := d.ring n
  let h := headTaken r.written r.cqHead e
  (d.setRing n { r with cqHead := h }).cqMove n 1 0 (h - r.cqHead).toNat

/-- The entries of one ring: the tail of an ACTIVE ring, the CQ head of any ring that is not DISABLED; only an ACTIVE ring enters ERROR
over them, once (log 51). -/
def Dev.ringEntries (d : Dev) (p rec_ n j : Nat) (tail head : U64) : Dev :=
  let r := d.ring n
  if r.st = .disabled then d
  else
    let d := if r.st ≠ .active then d
      else match r.tailFault tail with
        | some c => d.ringError n c (d.dbAddr p rec_ (2 * j))
        | none => d.setRing n { r with tail := entryCount tail }
    if r.cqLog2 = 0 then d
    else match headFault r.written r.cqLog2 head with
      | some c => if (d.ring n).st = .active then d.ringError n c (d.dbAddr p rec_ (2 * j + 1)) else d
      | none => d.takeHead n head

/-- A head entry of record 0: the log ring's head is taken, or the ring stops (R58). -/
def Dev.logEntry (d : Dev) (p : Nat) (telem : Bool) (e : U64) : Dev :=
  let l := if telem then (d.pr p).telem else (d.pr p).errlog
  let log2 := d.getF (if telem then RNG_TELEM_LOG2 p else RNG_ERRLOG_LOG2 p)
  let put := fun (d : Dev) (l : LogRing) => d.modPr p fun x => if telem then { x with telem := l } else { x with errlog := l }
  if log2 = 0 || l.stopped then d
  else match headFault l.written log2 e with
    | some c =>
      let d := (put d { l with stopped := true }).flag (RNG_STATUS_RING_ERR p) (RNG_STATUS_RING_ERRORS p)
      d.raise (some p) c (d.dbAddr p 0 (if telem then 1 else 0)) 0 ringMaster
    | none => put d { l with head := headTaken l.written l.head e }

/-- Counter of DB_READ_ERR sets of a partition (15 Table 15.4). -/
def dbErrs (p : Nat) : Fld := ⟨LDG_DBERR, 8 * p, 8⟩

/-- The entries of a record, and the descriptor reads that they let the device issue: for the record's rings, and for rings whose CQ is
one of theirs (W4). -/
def Dev.recordData (d : Dev) (p rec_ : Nat) (w : BitVec 512) : Dev :=
  let e := fun (i : Nat) => (w.extractLsb' (64 * i) 64 : U64)
  if rec_ = 0 then (d.logEntry p false (e 0)).logEntry p true (e 1)
  else
    let rs := d.recordRings p rec_
    let d := rs.foldl (fun (d : Dev) x => d.ringEntries p rec_ x.1 x.2 (e (2 * x.2)) (e (2 * x.2 + 1))) d
    let mine := rs.map fun x => x.1
    d.issue (tkeys d.rng.ring fun n r => d.ringOwner n == some p && (mine.contains n || mine.contains r.cqTarget))

/-- DOORBELL_RECORD_ARRIVAL (R56, R58). -/
def execDoorbellRecordArrival (p rec_ : Nat) (data : Option (BitVec 512)) (s : State) : Res :=
  guarded (.doorbellRecordArrival p rec_ data) (onDev s fun d =>
    if !(d.pr p).scan.contains rec_ then d
    else
      let d := match data with
        | some w => d.recordData p rec_ w
        | none => (d.flag (RNG_STATUS_DB_READ_ERR p) (dbErrs p)).raise (some p) 0x0106 (d.dbAddr p rec_ 0) 0 ringMaster
      d.recordDone p rec_)

/-! ### Fetched descriptors (R57, R58) -/

/-- Address of a ring's SQ tail entry. -/
def Dev.tailAddr (d : Dev) (n : Nat) : U64 :=
  let p := (d.ringOwner n).getD 0
  let k := n - d.adminRing p
  d.dbAddr p (1 + k / 4) (2 * (k % 4))

/-- DESCRIPTOR_ARRIVAL (R57): the oldest read that the ring has issued is answered. The opcode's row is the start of what it does. -/
def execDescriptorArrival (ring : Nat) (data : Option (BitVec 512)) (s : State) : Res :=
  guarded (.descriptorArrival ring data) (onDev s fun d =>
    if (d.ring ring).issued = 0 then d
    else match data with
      | some w =>
        let (op, x) := decodeDesc w
        (d.arrive ring op x).1
      | none => d.ringError ring 0x0112 (d.tailAddr ring))

/-! ### The error-log buffer (R72) -/

/-- Buffered records written while the ring takes them. -/
def Dev.drainLog (d : Dev) (p : Nat) : Nat → Dev
  | 0 => d
  | n + 1 =>
    match (d.pr p).buffer with
    | [] => d
    | r :: rs =>
      if (d.pr p).errlog.room (d.getF (RNG_ERRLOG_LOG2 p)) then
        Dev.drainLog ((d.modPr p fun x => { x with buffer := rs }).writeFault p r) p n
      else d

/-- ERRLOG_BUFFER_DRAIN (R72). -/
def execErrlogBufferDrain (p : Nat) (s : State) : Res :=
  guarded (.errlogBufferDrain p) (onDev s fun d => d.drainLog p 1024)

/-! ### Interrupts (R73) -/

/-- IRQ_MOD_COUNT_REACHED (R73). -/
def execIrqModCountReached (vec : Nat) (s : State) : Res :=
  guarded (.irqModCountReached vec) (onDev s fun d =>
    let x := d.vec vec
    if 0 < x.count ∧ x.modCnt ≤ x.count then d.sendIrq vec else d)

/-- IRQ_MOD_TIMER_EXPIRY (R73). -/
def execIrqModTimerExpiry (vec : Nat) (s : State) : Res :=
  guarded (.irqModTimerExpiry vec) (onDev s fun d => if (d.vec vec).timer then d.sendIrq vec else d)

/-! ### Data that an opcode read (R457) -/

/-- The bytes that came for a descriptor go on to its opcode; for TILE_WRITE they are records of a payload and its header, tile by tile
(log 52). -/
def Dev.dataArrived (d : Dev) (k : Nat) (e : DescEntry) (x : HostRead) : Dev :=
  match e.op.toNat with
  | 0x11 => d.appendArrived k x.bytes
  | 0x25 => d.tileWriteArrived k e x.bytes
  | 0x28 => d.rebuildRun (fieldAt e.d 28 4 + 1) k
  | 0x40 => d.imageArrived k x
  | 0x54 => d.listArrived k x.bytes
  | 0x60 => d.codebookArrived k x.bytes
  | 0x74 => d.poolArrived k x.bytes
  | 0xA0 => d.ckptArrived k x.bytes
  | 0xA2 => d.restoreArrived k x.bytes
  | 0xA3 => d.sealArrived k x.bytes
  | _ => d

/-- The read failed at a host address: opcodes that go piece by piece keep what came before, any other has no effect. -/
def Dev.dataFailed (d : Dev) (k : Nat) (e : DescEntry) (x : HostRead) (addr : U64) : Dev :=
  match e.op.toNat with
  | 0x11 => (d.hostFailOpen k addr).appendEnd (appendLoc e)
  | 0x25 => d.tileWriteArrived k e x.bytes
  | 0x28 => d.rebuildRun (fieldAt e.d 28 4 + 1) k
  | 0x60 => (d.dropIndex (hLocal e.result)).hostFailOpen k addr
  | 0x74 => d.poolArrived k x.bytes
  | _ => d.hostFailOpen k addr

/-- A descriptor waits for data from the host, none of which has come. -/
def DescEntry.reads (e : DescEntry) : Bool :=
  match e.st with
  | .waiting .hostRead => true
  | .waiting (.mutation _) => e.data.isEmpty && e.failAt.isNone
  | _ => false

/-- HOST_READ_DATA_ARRIVAL (R457), for the descriptor with fetch number `id`. -/
def execHostReadDataArrival (id : Nat) (data : HostRead) (s : State) : Res :=
  guarded (.hostReadDataArrival id data) (onDev s fun d =>
    match tget d.rng.descs id with
    | none => d
    | some e =>
      if !e.reads then d
      else if 0x62 ≤ e.op.toNat ∧ e.op.toNat ≤ 0x64 then d.reedArrived id e data.bytes data.fail
      else
        let d := d.modDesc id fun e => { e with data := data.bytes, failAt := data.fail }
        match data.fail with
        | some a => d.dataFailed id e data a
        | none => d.dataArrived id e data)

/-! ### Ring-class opcodes (R63) -/

/-- NOP (R63). -/
def execNop (ring : Nat) (x : Desc) (s : State) : Res :=
  guarded (.nop ring x) (onDev s fun d => d.runOp 0x00 ring x (fun _ _ _ => stOk) fun d k _ => d.okOpen k)

/-- A ring number of a descriptor: of the partition, and not its admin ring. -/
def Dev.ringStatus (d : Dev) (p n : Nat) : Byte :=
  if d.ringOwner n ≠ some p then stDenied else if d.isAdmin n then stBad else stOk

/-- A LOG2 of a submission ring. -/
def log2Ok (n : Nat) : Bool := decide (6 ≤ n ∧ n ≤ 16)

/-- Checks of RING_CREATE (Table 03.5). -/
def chkRingCreate (d : Dev) (p : Nat) (x : Desc) : Byte :=
  let n := fieldAt x 32 2
  let cq := fieldAt x 35 1
  let tgt := fieldAt x 36 2
  let vec := fieldAt x 38 2
  let pol := fieldAt x 42 2
  if fieldAt x 16 8 % 4096 ≠ 0 ∨ fieldAt x 24 8 % 4096 ≠ 0 ∨ (cq = 0 ∧ (fieldAt x 24 8 ≠ 0 ∨ vec ≠ 0 ∨ tgt = n)) ∨
      !log2Ok (fieldAt x 34 1) ∨ (cq ≠ 0 ∧ !log2Ok cq) ∨ fieldAt x 40 1 > 3 ∨ (pol ≥ 4096 ∧ pol ≠ 0xFFFF) then stBad
  else if d.ringStatus p n ≠ stOk then d.ringStatus p n
  else if d.ringOwner tgt ≠ some p ∨ (cq ≠ 0 ∧ d.vecOwner vec ≠ some p) ∨ (pol ≠ 0xFFFF ∧ !d.policerOwned p pol) then stDenied
  else stOk

/-- A ring becomes ACTIVE from counts of 0 (R456), with its CQ's ledger instance (15 R389). -/
def Dev.openRing (d : Dev) (n : Nat) (r : Ring) : Dev :=
  let d := d.setRing n { r with st := .active }
  if r.cqLog2 = 0 then d else (d.endLed 5 (16 + n)).cqMove n outside 0 (2 ^ r.cqLog2)

/-- RING_CREATE applied. -/
def doRingCreate (d : Dev) (k : Nat) (e : DescEntry) : Dev :=
  let x := e.d
  let n := fieldAt x 32 2
  let tgt := fieldAt x 36 2
  let t := d.ring tgt
  if (d.ring n).st ≠ .disabled ∨ (tgt ≠ n ∧ (t.st = .disabled ∨ t.cqLog2 = 0)) then d.refuse k stWrong
  else
    let r : Ring := { sqBase := BitVec.ofNat 64 (fieldAt x 16 8), cqBase := BitVec.ofNat 64 (fieldAt x 24 8), sqLog2 := fieldAt x 34 1,
                      cqLog2 := fieldAt x 35 1, cqTarget := tgt, vector := fieldAt x 38 2, priority := fieldAt x 40 1,
                      policer := fieldAt x 42 2 }
    (d.openRing n r).okOpen k

/-- RING_CREATE (R63). -/
def execRingCreate (ring : Nat) (x : Desc) (s : State) : Res :=
  guarded (.ringCreate ring x) (onDev s fun d => d.runOp 0x01 ring x chkRingCreate doRingCreate)

/-- Another ring that is not DISABLED completes into a ring's CQ. -/
def Dev.cqNamed (d : Dev) (n : Nat) : Bool :=
  d.rng.ring.any fun (e : Nat × Ring) => e.1 != n && e.2.st != .disabled && e.2.cqTarget == n

/-- A ring that is not DISABLED enters DRAINING: unfetched descriptors are discarded, its tokens returned (08 R227). -/
def Dev.drainRing (d : Dev) (n : Nat) : Dev :=
  let d := d.dropIssued n
  (d.setRing n { d.ring n with st := .draining }).returnTokens n

/-- RING_DESTROY applied: it completes once the ring is DISABLED. -/
def doRingDestroy (d : Dev) (k : Nat) (e : DescEntry) : Dev :=
  let n := fieldAt e.d 16 2
  let r := d.ring n
  if r.st = .disabled ∨ (r.cqLog2 ≠ 0 ∧ d.cqNamed n) then d.refuse k stWrong
  else
    let d := if r.st = .draining then d else d.drainRing n
    (d.wait k (.ringDown n)).settle n |>.sweep

/-- RING_DESTROY (R63). -/
def execRingDestroy (ring : Nat) (x : Desc) (s : State) : Res :=
  guarded (.ringDestroy ring x) (onDev s fun d => d.runOp 0x02 ring x (fun d p x => d.ringStatus p (fieldAt x 16 2)) doRingDestroy)

/-- RING_RESET applied: fetching goes on from FETCH_COUNT once a scan brings the tail. -/
def doRingReset (d : Dev) (k : Nat) (e : DescEntry) : Dev :=
  let n := fieldAt e.d 16 2
  let r := d.ring n
  let c := BitVec.ofNat 32 (fieldAt e.d 20 4)
  if r.st ≠ .error then d.refuse k stWrong
  else (d.setRing n { r with st := .active, fetched := c, tail := c }).okOpen k

/-- RING_RESET (R63). -/
def execRingReset (ring : Nat) (x : Desc) (s : State) : Res :=
  guarded (.ringReset ring x) (onDev s fun d => d.runOp 0x03 ring x (fun d p x => d.ringStatus p (fieldAt x 16 2)) doRingReset)

/-- Checks of IRQ_CFG (Table 03.6). -/
def chkIrqCfg (d : Dev) (p : Nat) (x : Desc) : Byte :=
  if fieldAt x 18 2 = 0 ∨ fieldAt x 18 2 > 256 ∨ fieldAt x 20 2 > 1023 then stBad
  else if d.vecOwner (fieldAt x 16 2) ≠ some p then stDenied else stOk

/-- IRQ_CFG (R63). -/
def execIrqCfg (ring : Nat) (x : Desc) (s : State) : Res :=
  guarded (.irqCfg ring x) (onDev s fun d => d.runOp 0x04 ring x chkIrqCfg fun d k e =>
    let v := fieldAt e.d 16 2
    let y := d.vec v
    (d.setVec v { y with modCnt := fieldAt e.d 18 2, modTime := fieldAt e.d 20 2,
                         timer := fieldAt e.d 20 2 != 0 && decide (0 < y.count) }).okOpen k)

/-- TELEM_CFG (R63). -/
def execTelemCfg (ring : Nat) (x : Desc) (s : State) : Res :=
  guarded (.telemCfg ring x) (onDev s fun d => d.runOp 0x05 ring x (fun _ _ x => if fieldAt x 48 2 = 0 then stBad else stOk) fun d k e =>
    (d.modPr e.part fun y => { y with typeMask := BitVec.ofNat 256 (fieldAt e.d 16 32), period := fieldAt e.d 48 2 }).okOpen k)

/-! ### Function-level reset (17 R444) -/

/-- Rings DISABLED at once: what they had fetched runs on without completions or interrupts, and RING_DESTROYs that wait for them end. -/
def Dev.resetRings (d : Dev) (p : Nat) : Dev :=
  let ns := tkeys d.rng.ring fun n _ => d.ringOwner n == some p
  let d := ns.foldl (fun (d : Dev) n => let d := d.returnTokens n; d.setRing n { d.ring n with st := .disabled }) d
  let d := ns.foldl (fun (d : Dev) n => d.disable n) d
  let quiet := fun (e : DescEntry) => if e.part = p then { e with silent := true } else e
  let d := { d with rng := { d.rng with descs := d.rng.descs.map fun (e : Nat × DescEntry) => (e.1, quiet e.2) } }
  let down := tkeys d.rng.descs fun _ e => e.part == p && (match e.st with | .waiting (.ringDown _) => true | _ => false)
  (down.foldl (fun (d : Dev) k => d.finishRaw k stOk 0 0 false) d).sweep

/-- RNG registers of a partition that a function-level reset returns to reset; RNG_PART_RINGS_p goes on showing the slice map. -/
def rngRegs (p : Nat) : List Nat :=
  [RNG_DB_BASE p, RNG_SCAN_CFG p, RNG_ADMIN_SQ p, RNG_ADMIN_CQ p, RNG_ERRLOG p, RNG_TELEM p, RNG_EVENT_VEC p, RNG_STATUS p, RNG_FETCH_COUNT p]

/-- The RNG registers and the MSI-X table of a partition at reset. Fault records still buffered stay. -/
def Dev.resetRng (d : Dev) (p : Nat) : Dev :=
  let d := (rngRegs p).foldl (fun (d : Dev) o => d.setReg o (regReset o)) d
  let d := { d with rng := { d.rng with vec := d.rng.vec.filter fun (e : Nat × Vec) => d.vecOwner e.1 != some p } }
  d.modPr p fun x => { x with scan := [], pending := false, timer := false, errlog := {}, telem := {} }

/-- FUNCTION_LEVEL_RESET (R444; 13 Table 13.6; 11 R313). On a function that is not its partition's primary one only host windows are
lost. -/
def execFunctionLevelReset (fn : HostFn) (s : State) : Res :=
  guarded (.functionLevelReset fn) (onDev s fun d =>
    match HostFnPart d fn with
    | none => d
    | some p =>
      if !d.hostUp || !HostFnExists d fn then d
      else
        let d := if d.tdi p = .locked ∨ d.tdi p = .run then d.tdiFail p else d
        let d := if HostFnPrimary d fn then (d.resetRings p).resetRng p else d
        (d.loseHost p (HostFnPort fn)).flag GLB_STATUS_FN_RESET GLB_STATUS_FN_RESET_COUNT)

end Sys2Proof.Machine
end

