-- ==== Sys2Proof/Machine/Registers.lean ====
section
/-! DEFINITION. Host accesses to BAR0 and to the MSI-X table (00_scope.md R8; 03_rings_doorbells.md R51, R55, R69, R83, R456;
07 R198, R203; 13 R347, R357; 16 R433, R438; 17_registers_connectors.md R440, R443, R444). -/

namespace Sys2Proof.Machine

/-! ### Refusals (R69, R440) -/

/-- Partition that a fault record about a function's access goes to (03 R72): none for one that has no present partition. -/
def Dev.faultPart (d : Dev) (a : Access) : Option Nat := (HostFnPart d a.fn).filter fun p => d.present p

/-- A fault record about an access: BAR0 offset, register block (13 R346), the function's master ID. -/
def Dev.regFault (d : Dev) (a : Access) (off low : Nat) : Dev :=
  let b := off / 0x10000 % 256
  d.raiseAt (d.faultPart a) (b * 256 + low) (BitVec.ofNat 64 off) 1 (HostFnMaster d a.fn) (b * 256 + 0xFF) 0xFF

/-- An access refused with ACCESS_DENIED; one with T = 0 to a TDI in RUN also takes it to ERROR (13 Table 13.6). -/
def Dev.denyAccess (d : Dev) (a : Access) (off : Nat) : Dev :=
  let d := d.regFault a off 0x01
  match d.faultPart a with
  | some p => if d.teeOnly p && !a.tee && HostFnExists d a.fn then d.tdiFail p else d
  | none => d

/-- A write ignored with REG_VALUE_INVALID (17 Table 17.2). -/
def Dev.invalidWrite (d : Dev) (a : Access) (off : Nat) : Dev :=
  (d.flag GLB_STATUS_REG_INVALID GLB_STATUS_REG_INVALID_COUNT).regFault a off 0x03

/-! ### Values (field maps) -/

/-- Ranges of RW fields, given for instance 0 of their register. -/
def fieldRanges : List (Fld × Nat × Nat) :=
  [(GLB_SYNC_CFG_MODE 0, 0, 2), (RNG_SCAN_CFG_PERIOD_US 0, 1, 64), (YOY_PARK_CFG_PEAT 0, 1, 2), (YOY_PARK_CFG_DEPTH 0, 1, 3),
   (YOY_RECOMP_CFG_TAIL_RANGES 0, 0, 64), (ARI_SHADOW_CFG_CONSEC 0, 1, 15), (ARI_SHADOW_CFG_RATE_LOG2 0, 0, 20),
   (RED_MERGE_CFG_MERGE_LOG2 0, 10, 24), (FAB_POOL_CFG_T2_BUDGET_US, 4, 65535)] ++
  [(SLU_SAMPLE_CFG_MIN_SAMPLES, 1, 255), (SLU_SAMPLE_CFG_PERIOD_US, 10, 10000), (SLU_BINSET_WIDTH_NS 0, 10, 16000000),
   (CKP_CFG_HOLDUP_WAIT_MS 0, 0, 1000), (CKP_CFG_COPY_LANES 0, 1, 12), (CKP_CFG_RETAIN 0, 1, 4), (LDG_SCRUB_CFG_RETIRE_LIMIT, 1, 255),
   (LDG_SCRUB_CFG_SCRUB_HOURS, 1, 168)] ++
  [(PWR_TH_CFG_HBM_THROTTLE, 70, 90), (PWR_TH_CFG_TJ_THROTTLE, 70, 93), (PWR_HOLDUP_CFG_RESERVE_J, 20, 200), (PWR_OP_REQ 0, 1, 3)]

/-- A value whose fields lie in their fixed ranges. -/
def fixedOk (base : Nat) (v : U64) : Bool :=
  fieldRanges.all fun x => x.1.off != base || decide (x.2.1 ≤ x.1.of v ∧ x.1.of v ≤ x.2.2)

/-- A value whose fields lie in their ranges, those that depend on the device's state among them: FEED_PORT of an L-die present, MIRROR for
at most 8 devices (04 R111), MAX_DEPTH within the resident model, CAP_W 0 or within the option's limits. -/
def Dev.valueOk (d : Dev) (base i : Nat) (v : U64) : Bool :=
  fixedOk base v &&
  (if base = GLB_SYNC_CFG 0 then decide ((GLB_SYNC_CFG_FEED_PORT 0).of v < 8 * d.getF GLB_ASSEMBLY_L_DIES)
   else if base = TUS_MIRROR_CFG 0 then (TUS_MIRROR_CFG_EN 0).of v == 0 || decide ((d.jobDevices i).length ≤ 8)
   else if base = YOY_RECOMP_CFG 0 then (d.activeJob i).isNone || decide ((YOY_RECOMP_CFG_MAX_DEPTH 0).of v ≤ d.layers i)
   else if base = PWR_CAP_CAP_W.off then
     PWR_CAP_CAP_W.of v == 0 || decide (1200 ≤ PWR_CAP_CAP_W.of v ∧ PWR_CAP_CAP_W.of v ≤ d.getF PWR_CAPS_MAX_W)
   else true)

/-- RW bits set and W1C bits cleared (00 Table 00.3). -/
def Dev.writeBits (d : Dev) (off : Nat) (r : RegInfo) (v : U64) : Dev :=
  d.setReg off (((d.reg off &&& ~~~r.rw) ||| (v &&& r.rw)) &&& ~~~(v &&& r.w1c))

/-- What a write changes beside the register: the cap in force, the guarantee, HOP_LIMIT (11 R306). -/
def Dev.afterWrite (d : Dev) (off : Nat) : Dev :=
  if off = PWR_CAP_CAP_W.off then d.showCap
  else if off = PWR_HOLDUP_CFG then d.showGuarantee
  else if off = FAB_POOL_CFG then d.setF FAB_POOL_CFG_HOP_LIMIT (min 0xFF ((d.getF FAB_POOL_CFG_T2_BUDGET_US - 3) * 100 / 29))
  else d

/-! ### Registers of the ring engine (03 R51, R55, R83, R456) -/

/-- A register of the ring engine with new RW bits. -/
def Dev.putRng (d : Dev) (off : Nat) (v : U64) : Dev := (regAt off).elim d fun r => d.writeBits off r.1 v

/-- The admin ring becomes ACTIVE once both its registers hold a LOG2 and EN is 1 (R51). -/
def Dev.startAdmin (d : Dev) (p : Nat) : Dev :=
  let n := d.adminRing p
  if d.getF (RNG_ADMIN_SQ_LOG2 p) = 0 ∨ d.getF (RNG_ADMIN_CQ_LOG2 p) = 0 ∨ d.getF (RNG_DB_BASE_EN p) = 0 ∨ (d.ring n).st ≠ .disabled then d
  else d.openRing n { sqBase := BitVec.ofNat 64 (4096 * d.getF (RNG_ADMIN_SQ_BASE p)), sqLog2 := d.getF (RNG_ADMIN_SQ_LOG2 p),
                      cqBase := BitVec.ofNat 64 (4096 * d.getF (RNG_ADMIN_CQ_BASE p)), cqLog2 := d.getF (RNG_ADMIN_CQ_LOG2 p),
                      cqTarget := n, vector := d.getF (RNG_EVENT_VEC_ADMIN_VEC p) }

/-- RNG_DB_BASE_p written; none where ADDR would change while EN is 1. -/
def Dev.writeDbBase (d : Dev) (p : Nat) (v : U64) : Option Dev :=
  let was := d.getF (RNG_DB_BASE_EN p)
  if was = 1 ∧ (RNG_DB_BASE_ADDR p).of v ≠ d.getF (RNG_DB_BASE_ADDR p) then none
  else
    let d := d.putRng (RNG_DB_BASE p) v
    if was = d.getF (RNG_DB_BASE_EN p) then some d
    else if was = 0 then some ((d.modPr p fun x => { x with timer := true }).startAdmin p)
    else some (d.modPr p fun x => { x with scan := [], pending := false, timer := false })

/-- RNG_ADMIN_SQ_p or RNG_ADMIN_CQ_p written: LOG2 0 sends the admin ring through DRAINING to DISABLED; none where the write is ignored. -/
def Dev.writeAdmin (d : Dev) (p : Nat) (cq : Bool) (v : U64) : Option Dev :=
  let off := if cq then RNG_ADMIN_CQ p else RNG_ADMIN_SQ p
  let n := d.adminRing p
  let st := (d.ring n).st
  if v.toNat % 32 = 0 then
    if cq && d.cqNamed n then none
    else
      let d := d.putRng off v
      some (if st = .disabled ∨ st = .draining then d else ((d.drainRing n).settle n).sweep)
  else if !log2Ok (v.toNat % 32) || st ≠ .disabled then none
  else some ((d.putRng off v).startAdmin p)

/-- RNG_ERRLOG_p or RNG_TELEM_p written: the log ring starts from counts of 0, or ends; none where the write is ignored. -/
def Dev.writeLogRing (d : Dev) (p : Nat) (telem : Bool) (v : U64) : Option Dev :=
  let off := if telem then RNG_TELEM p else RNG_ERRLOG p
  let log2 := v.toNat % 32
  let l := if telem then (d.pr p).telem else (d.pr p).errlog
  let used := d.getF (if telem then RNG_TELEM_LOG2 p else RNG_ERRLOG_LOG2 p) ≠ 0 ∧ !l.stopped
  if log2 ≠ 0 ∧ (!log2Ok log2 ∨ used) then none
  else some ((d.putRng off v).modPr p fun x => if telem then { x with telem := {} } else { x with errlog := {} })

/-- RNG_EVENT_VEC_p written: each vector of the partition's range is set, another is ignored; whether all were set. -/
def Dev.writeVectors (d : Dev) (p : Nat) (v : U64) : Dev × Bool :=
  let fs := [RNG_EVENT_VEC_ERRLOG_VEC p, RNG_EVENT_VEC_TELEM_VEC p, RNG_EVENT_VEC_ADMIN_VEC p]
  let ok := fun (f : Fld) => d.vecOwner (f.of v) == some p
  let d' := fs.foldl (fun (d : Dev) f => if ok f then d.setF f (f.of v) else d) d
  let n := d'.adminRing p
  let r := d'.ring n
  (if r.st = .disabled then d' else d'.setRing n { r with vector := d'.getF (RNG_EVENT_VEC_ADMIN_VEC p) }, fs.all ok)

/-- Registers whose write takes a TDI in CONFIG_LOCKED or RUN to ERROR (13 Table 13.6). -/
def tdiGuarded (base : Nat) : Bool :=
  [RNG_DB_BASE 0, RNG_ADMIN_SQ 0, RNG_ADMIN_CQ 0, RNG_ERRLOG 0, RNG_TELEM 0, RNG_EVENT_VEC 0].contains base

/-! ### Registers that act (07 R198; 16 R433) -/

/-- ARI_ESC_CLEAR_p written: on the sync root the clear goes into the next commit token; none elsewhere. -/
def Dev.writeClear (d : Dev) (p : Nat) (v : U64) : Option Dev :=
  let what := if (ARI_ESC_CLEAR_ALL p).of v = 1 then none else some ((ARI_ESC_CLEAR_LAYER p).of v)
  if d.isRoot p then some (d.modStep p fun s => { s with clears := s.clears ++ [what] }) else none

/-- PWR_CTL written; none without KEY. RESTART with SHUTDOWN is a restart. -/
def Dev.writePower (d : Dev) (v : U64) : Option Dev :=
  if PWR_CTL_KEY.of v ≠ 0x5A then none
  else if PWR_CTL_RESTART.of v = 0 ∧ PWR_CTL_SHUTDOWN.of v = 0 then some d
  else some (d.shutdownStart (PWR_CTL_RESTART.of v == 1) 1)

/-! ### One write, one read -/

/-- An admitted write of register `r`, instance `i`: none where it is ignored with REG_VALUE_INVALID. -/
def Dev.writeOne (d : Dev) (off : Nat) (r : RegInfo) (i : Nat) (v : U64) : Option Dev :=
  if r.base = RNG_WAKE 0 then some (d.wake i)
  else if r.base = RNG_DB_BASE 0 then d.writeDbBase i v
  else if r.base = RNG_ADMIN_SQ 0 then d.writeAdmin i false v
  else if r.base = RNG_ADMIN_CQ 0 then d.writeAdmin i true v
  else if r.base = RNG_ERRLOG 0 then d.writeLogRing i false v
  else if r.base = RNG_TELEM 0 then d.writeLogRing i true v
  else if r.base = ARI_ESC_CLEAR 0 then d.writeClear i v
  else if r.base = PWR_CTL then d.writePower v
  else if d.valueOk r.base i v then some ((d.writeBits off r v).afterWrite off)
  else none

/-- A host write of `size` bytes at a BAR0 offset. A write that takes its TDI to ERROR is discarded with the others that follow (log 53). -/
def Dev.hostWrite (d : Dev) (a : Access) (off size : Nat) (v : U64) : Dev :=
  if !d.hostUp then d
  else if !d.admits a off size true then d.denyAccess a off
  else match regAt off with
    | none => d.denyAccess a off
    | some (r, i) =>
      if tdiGuarded r.base && (d.tdi i == .locked || d.tdi i == .run) then d.tdiFail i
      else if r.base = RNG_EVENT_VEC 0 then
        let (d', ok) := d.writeVectors i v
        if ok then d' else d'.invalidWrite a off
      else (d.writeOne off r i v).getD (d.invalidWrite a off)

/-- A host read of a register: its value, or all ones where it is refused. -/
def Dev.hostReadReg (d : Dev) (a : Access) (off : Nat) : Dev :=
  if !d.hostUp then d
  else if !d.admits a off 8 false then (d.denyAccess a off).emit (.regData off (BitVec.allOnes 64))
  else
    let (v, d) := d.readReg off
    d.emit (.regData off v)

/-! ### The rows -/

/-- REGISTER_WRITE (R8). -/
def execRegisterWrite (a : Access) (offset size : Nat) (value : U64) (s : State) : Res :=
  guarded (.registerWrite a offset size value) (.next (s.onPower fun d => d.hostWrite a offset size value))

/-- RNG_WAKE (03 R55). -/
def execRngWake (a : Access) (p : Nat) (s : State) : Res :=
  guarded (.rngWake a p) (onDev s fun d => d.hostWrite a (RNG_WAKE p) 8 0)

/-- RNG_DB_BASE_WRITE (03 R51, R83). -/
def execRngDbBaseWrite (a : Access) (p : Nat) (value : U64) (s : State) : Res :=
  guarded (.rngDbBaseWrite a p value) (onDev s fun d => d.hostWrite a (RNG_DB_BASE p) 8 value)

/-- RNG_ADMIN_RING_WRITE (03 R51, R83). -/
def execRngAdminRingWrite (a : Access) (p : Nat) (cq : Bool) (value : U64) (s : State) : Res :=
  guarded (.rngAdminRingWrite a p cq value) (onDev s fun d => d.hostWrite a (if cq then RNG_ADMIN_CQ p else RNG_ADMIN_SQ p) 8 value)

/-- RNG_ERRLOG_WRITE (03 R456). -/
def execRngErrlogWrite (a : Access) (p : Nat) (value : U64) (s : State) : Res :=
  guarded (.rngErrlogWrite a p value) (onDev s fun d => d.hostWrite a (RNG_ERRLOG p) 8 value)

/-- RNG_TELEM_WRITE (03 R456). -/
def execRngTelemWrite (a : Access) (p : Nat) (value : U64) (s : State) : Res :=
  guarded (.rngTelemWrite a p value) (onDev s fun d => d.hostWrite a (RNG_TELEM p) 8 value)

/-- ESC_CLEAR_LAYER (07 R198). -/
def execEscClearLayer (a : Access) (p : Nat) (layer : Byte) (s : State) : Res :=
  guarded (.escClearLayer a p layer) (onDev s fun d => d.hostWrite a (ARI_ESC_CLEAR p) 8 (layer.setWidth 64))

/-- ESC_CLEAR_ALL (07 R198). -/
def execEscClearAll (a : Access) (p : Nat) (s : State) : Res :=
  guarded (.escClearAll a p) (onDev s fun d => d.hostWrite a (ARI_ESC_CLEAR p) 8 0x100)

/-- SHUTDOWN (16 R433). -/
def execShutdown (a : Access) (key : Byte) (s : State) : Res :=
  guarded (.shutdown a key) (.next (s.onPower fun d => d.hostWrite a PWR_CTL 8 (BitVec.ofNat 64 (256 * key.toNat + 1))))

/-- RESTART (16 R433). -/
def execRestart (a : Access) (key : Byte) (s : State) : Res :=
  guarded (.restart a key) (.next (s.onPower fun d => d.hostWrite a PWR_CTL 8 (BitVec.ofNat 64 (256 * key.toNat + 2))))

/-- BEAT_RATE_READ (02 R30). -/
def execBeatRateRead (a : Access) (i : Nat) (s : State) : Res :=
  guarded (.beatRateRead a i) (onDev s fun d => d.hostReadReg a (GLB_BEAT_RATE i))

/-- PWR_THERMAL_READ (16 R438). -/
def execPwrThermalRead (a : Access) (s : State) : Res :=
  guarded (.pwrThermalRead a) (onDev s fun d => d.hostReadReg a PWR_THERMAL)

/-! ### The MSI-X table (03 R73; 17 Table 17.3) -/

/-- A vector's Mask bit cleared: a pending message goes out. -/
def Dev.unmask (d : Dev) (v : Nat) : Dev :=
  let x := d.vec v
  let d := d.setVec v { x with mask := false, pend := false }
  if x.pend && !(d.vecOwner v).any d.dmaStopped then d.emit (.msi v) else d

/-- MSI_X_UNMASK (03 R73): through the primary function of the vector's partition; a write to the table takes a locked or running TDI to
ERROR (13 Table 13.6). -/
def execMsiXUnmask (a : Access) (vec : Nat) (s : State) : Res :=
  guarded (.msiXUnmask a vec) (onDev s fun d =>
    match d.vecOwner vec with
    | none => d
    | some p =>
      if !d.hostUp || !HostFnExists d a.fn || HostFnPart d a.fn != some p || !HostFnPrimary d a.fn then d
      else if d.tdi p = .locked ∨ d.tdi p = .run then d.tdiFail p
      else d.unmask vec)

end Sys2Proof.Machine
end

