-- ==== Sys2Proof/Machine/Dispatch.lean ====
section
/-! DEFINITION. The meaning of every command: one arm for each constructor of Instr. -/

namespace Sys2Proof.Machine

def exec (i : Instr) (s : State) : Host.Outcome State Fault Refusal :=
  match i with
  | .registerWrite x1 x2 x3 x4 => Sys2Proof.Machine.execRegisterWrite x1 x2 x3 x4 s
  | .rngWake x1 x2 => Sys2Proof.Machine.execRngWake x1 x2 s
  | .rngDbBaseWrite x1 x2 x3 => Sys2Proof.Machine.execRngDbBaseWrite x1 x2 x3 s
  | .rngAdminRingWrite x1 x2 x3 x4 => Sys2Proof.Machine.execRngAdminRingWrite x1 x2 x3 x4 s
  | .rngErrlogWrite x1 x2 x3 => Sys2Proof.Machine.execRngErrlogWrite x1 x2 x3 s
  | .rngTelemWrite x1 x2 x3 => Sys2Proof.Machine.execRngTelemWrite x1 x2 x3 s
  | .escClearLayer x1 x2 x3 => Sys2Proof.Machine.execEscClearLayer x1 x2 x3 s
  | .escClearAll x1 x2 => Sys2Proof.Machine.execEscClearAll x1 x2 s
  | .shutdown x1 x2 => Sys2Proof.Machine.execShutdown x1 x2 s
  | .restart x1 x2 => Sys2Proof.Machine.execRestart x1 x2 s
  | .beatRateRead x1 x2 => Sys2Proof.Machine.execBeatRateRead x1 x2 s
  | .pwrThermalRead x1 => Sys2Proof.Machine.execPwrThermalRead x1 s
  | .scanTimerExpiry x1 => Sys2Proof.Machine.execScanTimerExpiry x1 s
  | .doorbellRecordArrival x1 x2 x3 => Sys2Proof.Machine.execDoorbellRecordArrival x1 x2 x3 s
  | .descriptorArrival x1 x2 => Sys2Proof.Machine.execDescriptorArrival x1 x2 s
  | .errlogBufferDrain x1 => Sys2Proof.Machine.execErrlogBufferDrain x1 s
  | .hostReadDataArrival x1 x2 => Sys2Proof.Machine.execHostReadDataArrival x1 x2 s
  | .irqModCountReached x1 => Sys2Proof.Machine.execIrqModCountReached x1 s
  | .irqModTimerExpiry x1 => Sys2Proof.Machine.execIrqModTimerExpiry x1 s
  | .nop x1 x2 => Sys2Proof.Machine.execNop x1 x2 s
  | .ringCreate x1 x2 => Sys2Proof.Machine.execRingCreate x1 x2 s
  | .ringDestroy x1 x2 => Sys2Proof.Machine.execRingDestroy x1 x2 s
  | .ringReset x1 x2 => Sys2Proof.Machine.execRingReset x1 x2 s
  | .irqCfg x1 x2 => Sys2Proof.Machine.execIrqCfg x1 x2 s
  | .telemCfg x1 x2 => Sys2Proof.Machine.execTelemCfg x1 x2 s
  | .stateRead x1 x2 => Sys2Proof.Machine.execStateRead x1 x2 s
  | .sessionOpen x1 x2 => Sys2Proof.Machine.execSessionOpen x1 x2 s
  | .append x1 x2 => Sys2Proof.Machine.execAppend x1 x2 s
  | .stepRequest x1 x2 => Sys2Proof.Machine.execStepRequest x1 x2 s
  | .toolWait x1 x2 => Sys2Proof.Machine.execToolWait x1 x2 s
  | .park x1 x2 => Sys2Proof.Machine.execPark x1 x2 s
  | .revive x1 x2 => Sys2Proof.Machine.execRevive x1 x2 s
  | .close x1 x2 => Sys2Proof.Machine.execClose x1 x2 s
  | .regionCreate x1 x2 => Sys2Proof.Machine.execRegionCreate x1 x2 s
  | .regionDestroy x1 x2 => Sys2Proof.Machine.execRegionDestroy x1 x2 s
  | .regionAttr x1 x2 => Sys2Proof.Machine.execRegionAttr x1 x2 s
  | .regionFlush x1 x2 => Sys2Proof.Machine.execRegionFlush x1 x2 s
  | .regionMove x1 x2 => Sys2Proof.Machine.execRegionMove x1 x2 s
  | .tileWrite x1 x2 => Sys2Proof.Machine.execTileWrite x1 x2 s
  | .tileRead x1 x2 => Sys2Proof.Machine.execTileRead x1 x2 s
  | .replicaSet x1 x2 => Sys2Proof.Machine.execReplicaSet x1 x2 s
  | .replicaRebuild x1 x2 => Sys2Proof.Machine.execReplicaRebuild x1 x2 s
  | .bgCopy x1 x2 => Sys2Proof.Machine.execBgCopy x1 x2 s
  | .ptShare x1 x2 => Sys2Proof.Machine.execPtShare x1 x2 s
  | .ptTruncate x1 x2 => Sys2Proof.Machine.execPtTruncate x1 x2 s
  | .kvDrop x1 x2 => Sys2Proof.Machine.execKvDrop x1 x2 s
  | .imageLoad x1 x2 => Sys2Proof.Machine.execImageLoad x1 x2 s
  | .jobSwitch x1 x2 => Sys2Proof.Machine.execJobSwitch x1 x2 s
  | .jobUnload x1 x2 => Sys2Proof.Machine.execJobUnload x1 x2 s
  | .semGroupCreate x1 x2 => Sys2Proof.Machine.execSemGroupCreate x1 x2 s
  | .semGroupDestroy x1 x2 => Sys2Proof.Machine.execSemGroupDestroy x1 x2 s
  | .semOp x1 x2 => Sys2Proof.Machine.execSemOp x1 x2 s
  | .tokBind x1 x2 => Sys2Proof.Machine.execTokBind x1 x2 s
  | .vocabLoad x1 x2 => Sys2Proof.Machine.execVocabLoad x1 x2 s
  | .classSet x1 x2 => Sys2Proof.Machine.execClassSet x1 x2 s
  | .profileSet x1 x2 => Sys2Proof.Machine.execProfileSet x1 x2 s
  | .listLoad x1 x2 => Sys2Proof.Machine.execListLoad x1 x2 s
  | .listsetDefine x1 x2 => Sys2Proof.Machine.execListsetDefine x1 x2 s
  | .listFree x1 x2 => Sys2Proof.Machine.execListFree x1 x2 s
  | .tokSeed x1 x2 => Sys2Proof.Machine.execTokSeed x1 x2 s
  | .indexCreate x1 x2 => Sys2Proof.Machine.execIndexCreate x1 x2 s
  | .indexDestroy x1 x2 => Sys2Proof.Machine.execIndexDestroy x1 x2 s
  | .vecInsert x1 x2 => Sys2Proof.Machine.execVecInsert x1 x2 s
  | .vecDelete x1 x2 => Sys2Proof.Machine.execVecDelete x1 x2 s
  | .vecQuery x1 x2 => Sys2Proof.Machine.execVecQuery x1 x2 s
  | .indexMerge x1 x2 => Sys2Proof.Machine.execIndexMerge x1 x2 s
  | .indexStat x1 x2 => Sys2Proof.Machine.execIndexStat x1 x2 s
  | .queryReedAssign x1 => Sys2Proof.Machine.execQueryReedAssign x1 s
  | .mergeStart x1 => Sys2Proof.Machine.execMergeStart x1 s
  | .mergeCommit x1 => Sys2Proof.Machine.execMergeCommit x1 s
  | .extentRequest x1 x2 => Sys2Proof.Machine.execExtentRequest x1 x2 s
  | .extentReturn x1 x2 => Sys2Proof.Machine.execExtentReturn x1 x2 s
  | .extentRevoke x1 x2 => Sys2Proof.Machine.execExtentRevoke x1 x2 s
  | .poolFlush x1 x2 => Sys2Proof.Machine.execPoolFlush x1 x2 s
  | .poolPageWrite x1 x2 => Sys2Proof.Machine.execPoolPageWrite x1 x2 s
  | .poolPageRead x1 x2 => Sys2Proof.Machine.execPoolPageRead x1 x2 s
  | .ownOffer x1 x2 => Sys2Proof.Machine.execOwnOffer x1 x2 s
  | .ownAccept x1 x2 => Sys2Proof.Machine.execOwnAccept x1 x2 s
  | .ownResolve x1 x2 => Sys2Proof.Machine.execOwnResolve x1 x2 s
  | .shaperSet x1 x2 => Sys2Proof.Machine.execShaperSet x1 x2 s
  | .shaperClear x1 x2 => Sys2Proof.Machine.execShaperClear x1 x2 s
  | .policerSet x1 x2 => Sys2Proof.Machine.execPolicerSet x1 x2 s
  | .policerClear x1 x2 => Sys2Proof.Machine.execPolicerClear x1 x2 s
  | .shaperEligible x1 => Sys2Proof.Machine.execShaperEligible x1 s
  | .keyInstall x1 x2 => Sys2Proof.Machine.execKeyInstall x1 x2 s
  | .keyActivate x1 x2 => Sys2Proof.Machine.execKeyActivate x1 x2 s
  | .keyRetire x1 x2 => Sys2Proof.Machine.execKeyRetire x1 x2 s
  | .tenantRemove x1 x2 => Sys2Proof.Machine.execTenantRemove x1 x2 s
  | .aclRead x1 x2 => Sys2Proof.Machine.execAclRead x1 x2 s
  | .keyDrainComplete x1 x2 x3 => Sys2Proof.Machine.execKeyDrainComplete x1 x2 x3 s
  | .keyDrainTimeout x1 x2 x3 => Sys2Proof.Machine.execKeyDrainTimeout x1 x2 x3 s
  | .ckptStart x1 x2 => Sys2Proof.Machine.execCkptStart x1 x2 s
  | .ckptRelease x1 x2 => Sys2Proof.Machine.execCkptRelease x1 x2 s
  | .ckptRestore x1 x2 => Sys2Proof.Machine.execCkptRestore x1 x2 s
  | .manifestSeal x1 x2 => Sys2Proof.Machine.execManifestSeal x1 x2 s
  | .shardReport x1 x2 x3 x4 x5 x6 x7 => Sys2Proof.Machine.execShardReport x1 x2 x3 x4 x5 x6 x7 s
  | .holdupWaitExpiry x1 => Sys2Proof.Machine.execHoldupWaitExpiry x1 s
  | .manifestWriteDone x1 => Sys2Proof.Machine.execManifestWriteDone x1 s
  | .logRead x1 x2 => Sys2Proof.Machine.execLogRead x1 x2 s
  | .partReset x1 x2 => Sys2Proof.Machine.execPartReset x1 x2 s
  | .faultInject x1 x2 => Sys2Proof.Machine.execFaultInject x1 x2 s
  | .overlayRead x1 x2 => Sys2Proof.Machine.execOverlayRead x1 x2 s
  | .ledgerDelta x1 => Sys2Proof.Machine.execLedgerDelta x1 s
  | .localSafePoint x1 => Sys2Proof.Machine.execLocalSafePoint x1 s
  | .safeReport x1 x2 x3 x4 => Sys2Proof.Machine.execSafeReport x1 x2 x3 x4 s
  | .stepSyncEdge => Sys2Proof.Machine.execStepSyncEdge s
  | .stepMarkToken x1 => Sys2Proof.Machine.execStepMarkToken x1 s
  | .syncWindowExpiry x1 => Sys2Proof.Machine.execSyncWindowExpiry x1 s
  | .stepSyncStuckCount x1 => Sys2Proof.Machine.execStepSyncStuckCount x1 s
  | .idleBoundaryTimer x1 => Sys2Proof.Machine.execIdleBoundaryTimer x1 s
  | .commitToken x1 x2 => Sys2Proof.Machine.execCommitToken x1 x2 s
  | .linkCreditDrained x1 => Sys2Proof.Machine.execLinkCreditDrained x1 s
  | .drainTimeout x1 x2 => Sys2Proof.Machine.execDrainTimeout x1 x2 s
  | .retryToken x1 => Sys2Proof.Machine.execRetryToken x1 s
  | .rebuildTimeout x1 => Sys2Proof.Machine.execRebuildTimeout x1 s
  | .peerLossTimeout x1 x2 => Sys2Proof.Machine.execPeerLossTimeout x1 x2 s
  | .shrinkToken x1 x2 => Sys2Proof.Machine.execShrinkToken x1 x2 s
  | .switchProbe x1 x2 x3 => Sys2Proof.Machine.execSwitchProbe x1 x2 x3 s
  | .probeAnswer x1 x2 x3 => Sys2Proof.Machine.execProbeAnswer x1 x2 x3 s
  | .switchProbeTimeout x1 => Sys2Proof.Machine.execSwitchProbeTimeout x1 s
  | .layerFinished x1 x2 => Sys2Proof.Machine.execLayerFinished x1 x2 s
  | .windowSlotFilled x1 x2 => Sys2Proof.Machine.execWindowSlotFilled x1 x2 s
  | .coreTileJobDone x1 x2 => Sys2Proof.Machine.execCoreTileJobDone x1 x2 s
  | .shadowSampleSelect x1 x2 x3 => Sys2Proof.Machine.execShadowSampleSelect x1 x2 x3 s
  | .shadowJobDone x1 x2 x3 x4 => Sys2Proof.Machine.execShadowJobDone x1 x2 x3 x4 s
  | .consecSamplesExceeded x1 x2 => Sys2Proof.Machine.execConsecSamplesExceeded x1 x2 s
  | .recomputeJobDone x1 x2 x3 x4 x5 x6 => Sys2Proof.Machine.execRecomputeJobDone x1 x2 x3 x4 x5 x6 s
  | .logitsShardArrival x1 x2 x3 => Sys2Proof.Machine.execLogitsShardArrival x1 x2 x3 s
  | .revivalStart x1 => Sys2Proof.Machine.execRevivalStart x1 s
  | .peatDecodeDone x1 x2 => Sys2Proof.Machine.execPeatDecodeDone x1 x2 s
  | .parkWritesStart x1 => Sys2Proof.Machine.execParkWritesStart x1 s
  | .demotionTimer x1 => Sys2Proof.Machine.execDemotionTimer x1 s
  | .mirror x1 x2 => Sys2Proof.Machine.execMirror x1 x2 s
  | .mirrorAck x1 => Sys2Proof.Machine.execMirrorAck x1 s
  | .mirrorAckTimeout x1 => Sys2Proof.Machine.execMirrorAckTimeout x1 s
  | .dataFlit x1 x2 => Sys2Proof.Machine.execDataFlit x1 x2 s
  | .nak x1 x2 => Sys2Proof.Machine.execNak x1 x2 s
  | .ackTimer x1 => Sys2Proof.Machine.execAckTimer x1 s
  | .portRetrainStart x1 => Sys2Proof.Machine.execPortRetrainStart x1 s
  | .portRetrainDone x1 x2 => Sys2Proof.Machine.execPortRetrainDone x1 x2 s
  | .portTrainingDone x1 x2 => Sys2Proof.Machine.execPortTrainingDone x1 x2 s
  | .read x1 => Sys2Proof.Machine.execRead x1 s
  | .readData x1 => Sys2Proof.Machine.execReadData x1 s
  | .write x1 => Sys2Proof.Machine.execWrite x1 s
  | .nonceThreshold x1 x2 x3 => Sys2Proof.Machine.execNonceThreshold x1 x2 x3 s
  | .writeAck x1 => Sys2Proof.Machine.execWriteAck x1 s
  | .cxlMemResponse x1 x2 x3 => Sys2Proof.Machine.execCxlMemResponse x1 x2 x3 s
  | .tile x1 => Sys2Proof.Machine.execTile x1 s
  | .errorResponse x1 x2 => Sys2Proof.Machine.execErrorResponse x1 x2 s
  | .staleMapRetryLimit x1 => Sys2Proof.Machine.execStaleMapRetryLimit x1 s
  | .requestTimeout x1 => Sys2Proof.Machine.execRequestTimeout x1 s
  | .semaphoreOperation x1 => Sys2Proof.Machine.execSemaphoreOperation x1 s
  | .semaphoreReply x1 => Sys2Proof.Machine.execSemaphoreReply x1 s
  | .prepare x1 => Sys2Proof.Machine.execPrepare x1 s
  | .prepared x1 x2 => Sys2Proof.Machine.execPrepared x1 x2 s
  | .offer x1 x2 => Sys2Proof.Machine.execOffer x1 x2 s
  | .commit x1 => Sys2Proof.Machine.execCommit x1 s
  | .committed x1 x2 => Sys2Proof.Machine.execCommitted x1 x2 s
  | .abort x1 => Sys2Proof.Machine.execAbort x1 s
  | .query x1 => Sys2Proof.Machine.execQuery x1 s
  | .mapUpdate x1 x2 => Sys2Proof.Machine.execMapUpdate x1 x2 s
  | .poison x1 x2 => Sys2Proof.Machine.execPoison x1 x2 s
  | .revoke x1 x2 => Sys2Proof.Machine.execRevoke x1 x2 s
  | .revokeAck x1 x2 => Sys2Proof.Machine.execRevokeAck x1 x2 s
  | .revokeAckTimeout x1 => Sys2Proof.Machine.execRevokeAckTimeout x1 s
  | .ownOfferTimeout x1 => Sys2Proof.Machine.execOwnOfferTimeout x1 s
  | .offerHoldTimeout x1 x2 => Sys2Proof.Machine.execOfferHoldTimeout x1 x2 s
  | .ownAcceptTimeout x1 x2 => Sys2Proof.Machine.execOwnAcceptTimeout x1 x2 s
  | .pendingPageDeadline x1 => Sys2Proof.Machine.execPendingPageDeadline x1 s
  | .hostLineAccess x1 x2 x3 x4 => Sys2Proof.Machine.execHostLineAccess x1 x2 x3 x4 s
  | .hostLinkLost x1 x2 => Sys2Proof.Machine.execHostLinkLost x1 x2 s
  | .functionLevelReset x1 => Sys2Proof.Machine.execFunctionLevelReset x1 s
  | .dcdCapacityAdd x1 x2 x3 => Sys2Proof.Machine.execDcdCapacityAdd x1 x2 x3 s
  | .dcdCapacityRelease x1 x2 x3 => Sys2Proof.Machine.execDcdCapacityRelease x1 x2 x3 s
  | .sluiceWindowClose => Sys2Proof.Machine.execSluiceWindowClose s
  | .depthSample => Sys2Proof.Machine.execDepthSample s
  | .beatSensorWindow x1 x2 => Sys2Proof.Machine.execBeatSensorWindow x1 x2 s
  | .patrolScrubTick x1 x2 => Sys2Proof.Machine.execPatrolScrubTick x1 x2 s
  | .frameRetire x1 => Sys2Proof.Machine.execFrameRetire x1 s
  | .getVersion x1 => Sys2Proof.Machine.execGetVersion x1 s
  | .getCapabilities x1 => Sys2Proof.Machine.execGetCapabilities x1 s
  | .negotiateAlgorithms x1 => Sys2Proof.Machine.execNegotiateAlgorithms x1 s
  | .getDigests x1 => Sys2Proof.Machine.execGetDigests x1 s
  | .getCertificate x1 x2 x3 x4 => Sys2Proof.Machine.execGetCertificate x1 x2 x3 x4 s
  | .challenge x1 x2 x3 => Sys2Proof.Machine.execChallenge x1 x2 x3 s
  | .getMeasurements x1 x2 x3 => Sys2Proof.Machine.execGetMeasurements x1 x2 x3 s
  | .keyExchange x1 x2 x3 => Sys2Proof.Machine.execKeyExchange x1 x2 x3 s
  | .finish x1 x2 => Sys2Proof.Machine.execFinish x1 x2 s
  | .heartbeat x1 x2 => Sys2Proof.Machine.execHeartbeat x1 x2 s
  | .keyUpdate x1 x2 => Sys2Proof.Machine.execKeyUpdate x1 x2 s
  | .endSession x1 x2 => Sys2Proof.Machine.execEndSession x1 x2 s
  | .kekSet x1 x2 x3 => Sys2Proof.Machine.execKekSet x1 x2 x3 s
  | .ideKm x1 x2 x3 x4 x5 => Sys2Proof.Machine.execIdeKm x1 x2 x3 x4 x5 s
  | .lockInterfaceRequest x1 => Sys2Proof.Machine.execLockInterfaceRequest x1 s
  | .startInterfaceRequest x1 => Sys2Proof.Machine.execStartInterfaceRequest x1 s
  | .stopInterfaceRequest x1 => Sys2Proof.Machine.execStopInterfaceRequest x1 s
  | .scrubComplete x1 => Sys2Proof.Machine.execScrubComplete x1 s
  | .tdiErrorTrigger x1 x2 => Sys2Proof.Machine.execTdiErrorTrigger x1 x2 s
  | .setEndpointId x1 => Sys2Proof.Machine.execSetEndpointId x1 s
  | .pldmGetSensorReading x1 => Sys2Proof.Machine.execPldmGetSensorReading x1 s
  | .pldmSetPowerCap x1 => Sys2Proof.Machine.execPldmSetPowerCap x1 s
  | .pldmFruRead => Sys2Proof.Machine.execPldmFruRead s
  | .pldmShutdown x1 => Sys2Proof.Machine.execPldmShutdown x1 s
  | .overlayOverride x1 x2 x3 x4 => Sys2Proof.Machine.execOverlayOverride x1 x2 x3 x4 s
  | .pldmLogRead x1 x2 => Sys2Proof.Machine.execPldmLogRead x1 x2 s
  | .glbRead x1 => Sys2Proof.Machine.execGlbRead x1 s
  | .fwUpdateComponent x1 => Sys2Proof.Machine.execFwUpdateComponent x1 s
  | .sensorRefreshTick => Sys2Proof.Machine.execSensorRefreshTick s
  | .smbusTimeout => Sys2Proof.Machine.execSmbusTimeout s
  | .powerConnect x1 x2 => Sys2Proof.Machine.execPowerConnect x1 x2 s
  | .standbyRailsUp => Sys2Proof.Machine.execStandbyRailsUp s
  | .coolantCheckTick x1 => Sys2Proof.Machine.execCoolantCheckTick x1 s
  | .resetRelease x1 x2 x3 => Sys2Proof.Machine.execResetRelease x1 x2 x3 s
  | .startPhasesDone x1 => Sys2Proof.Machine.execStartPhasesDone x1 s
  | .powerLoopPeriod x1 => Sys2Proof.Machine.execPowerLoopPeriod x1 s
  | .thermalSample x1 x2 => Sys2Proof.Machine.execThermalSample x1 x2 s
  | .thermalTripTimeout x1 x2 => Sys2Proof.Machine.execThermalTripTimeout x1 x2 s
  | .coolantSample x1 => Sys2Proof.Machine.execCoolantSample x1 s
  | .coolantConditionTimeout x1 => Sys2Proof.Machine.execCoolantConditionTimeout x1 s
  | .coolantReversedTimeout => Sys2Proof.Machine.execCoolantReversedTimeout s
  | .sensorDisagreeTimeout x1 => Sys2Proof.Machine.execSensorDisagreeTimeout x1 s
  | .leakDetect => Sys2Proof.Machine.execLeakDetect s
  | .holdupMeasure x1 x2 => Sys2Proof.Machine.execHoldupMeasure x1 x2 s
  | .inputVoltageEvent x1 => Sys2Proof.Machine.execInputVoltageEvent x1 s
  | .railFault x1 => Sys2Proof.Machine.execRailFault x1 s
  | .pwrBrakeAssert => Sys2Proof.Machine.execPwrBrakeAssert s
  | .pwrBrakeDeassert => Sys2Proof.Machine.execPwrBrakeDeassert s
  | .modResetRelease x1 => Sys2Proof.Machine.execModResetRelease x1 s
  | .modResetHeld5s => Sys2Proof.Machine.execModResetHeld5s s
  | .watchdogTimeout => Sys2Proof.Machine.execWatchdogTimeout s
  | .shutdownStepTimeout => Sys2Proof.Machine.execShutdownStepTimeout s
  | .snapshotChargeTimeout => Sys2Proof.Machine.execSnapshotChargeTimeout s
  | .durableCommitDone x1 => Sys2Proof.Machine.execDurableCommitDone x1 s
  | .snapshotWriteDone => Sys2Proof.Machine.execSnapshotWriteDone s
  | .selftestPhaseDone x1 => Sys2Proof.Machine.execSelftestPhaseDone x1 s
  | .idleFlit x1 x2 => Sys2Proof.Machine.execIdleFlit x1 x2 s
  | .msiXUnmask x1 x2 => Sys2Proof.Machine.execMsiXUnmask x1 x2 s
  | .getDeviceInterfaceReport x1 => Sys2Proof.Machine.execGetDeviceInterfaceReport x1 s
  | .overvoltageRestart x1 => Sys2Proof.Machine.execOvervoltageRestart x1 s
  | .pcieLinkUp x1 x2 x3 => Sys2Proof.Machine.execPcieLinkUp x1 x2 x3 s

end Sys2Proof.Machine
end

