-- ==== Sys2Proof/Safety.lean ====
section
/-! DEFINITION. What counts as a safe run, and the terms in which the statements speak of commands. -/

namespace Sys2Proof

/-- Every command that waits in the queue is well formed. -/
def Safe (s : Machine.State) : Prop := ∀ i ∈ s.pending, i.wf = true

namespace Machine

/-- The device less registers, the ring engine, the ledger, the flash log, what is sent and the counter of free values: what
ending a descriptor and raising faults may touch. -/
def Dev.rest (d : Dev) : Dev := { d with regs := [], rng := {}, ldg := {}, flash := {}, out := [], free := 0 }

/-- Nothing but those differs. -/
def Quiet (d t : Dev) : Prop := t.rest = d.rest

/-- The descriptor that an opcode row runs on (03 R57, R60–R62, R75, R76, 15 R392): entry `k` of the descriptor table is the earliest
started one of ring `n` with that opcode and those fields, its header and reserved bits are in order, and its partition is not halted
for it. -/
abbrev Dev.Ready (d : Dev) (op : Byte) (n : Nat) (x : Desc) (k : Nat) (e : DescEntry) : Prop :=
  (d.rng.descs.find? fun y => y.2.ring == n && y.2.op == op && y.2.d == x && y.2.st == .started) = some (k, e) ∧
  tget d.rng.descs k = some e ∧ d.headerStatus e = stOk ∧ bodyBad e = false ∧
  (d.halted e.part && !(d.stepP e.part).noRung && haltRefuses op x) = false

/-- Entry `k` of the descriptor table is the started one that an opcode row names. -/
abbrev Dev.Named (d : Dev) (op : Byte) (n : Nat) (x : Desc) (k : Nat) (e : DescEntry) : Prop :=
  (d.rng.descs.find? fun y => y.2.ring == n && y.2.op == op && y.2.d == x && y.2.st == .started) = some (k, e) ∧ tget d.rng.descs k = some e

/-- Between `d` and `t` fault record `r` was raised (03 R72): it is in the error-log ring of its partition, whose host is reached, or in the
buffer, or was lost, and counted, because that was full. -/
def Dev.Logged (t d : Dev) (r : FaultRec) : Prop :=
  (∃ a b, Out.faultRec a b r ∈ t.out) ∨ d.dmaStopped r.part = true ∨ r ∈ (t.pr r.part).buffer ∨
  (1024 ≤ (d.pr r.part).buffer.length ∧ t.getF (RNG_STATUS_ERRLOG_OVF r.part) = 1)

/-- The host of a descriptor's partition is reached, and its completion is not discarded (13 R357, 17 R444). -/
abbrev Dev.Hears (d : Dev) (e : DescEntry) : Prop := d.dmaStopped e.part = false ∧ e.silent = false

/-- Between `d` and `t` the final completion of descriptor `e` is sent, with this status, RESULT and DETAIL (03 Table 03.7). -/
def Dev.Completes (d t : Dev) (e : DescEntry) (st : Byte) (r : U64) (x : U32) : Prop :=
  ∃ new a c, t.out = new ++ d.out ∧ Out.completion a c ∈ new ∧ c.final = true ∧ c.ring = e.ring ∧ c.tag = e.d.tag ∧ c.opcode = e.op ∧
    c.status = st ∧ c.result = r ∧ c.detail = x

/-- The device takes a host write of the register at `off` (17 R440, 13 R347, R357): the host ports are up, the access is admitted, `r` and
`i` are the register's entry and instance, and the write does not take a TDI to ERROR. -/
abbrev Dev.Takes (d : Dev) (a : Access) (off : Nat) (r : RegInfo) (i : Nat) : Prop :=
  d.hostUp = true ∧ d.admits a off 8 true = true ∧ regAt off = some (r, i) ∧
  (tdiGuarded r.base && (d.tdi i == .locked || d.tdi i == .run)) = false

/-- Registers whose write does more than to set their bits. -/
def actingRegs : List Nat :=
  [RNG_WAKE 0, RNG_DB_BASE 0, RNG_ADMIN_SQ 0, RNG_ADMIN_CQ 0, RNG_ERRLOG 0, RNG_TELEM 0, RNG_EVENT_VEC 0, ARI_ESC_CLEAR 0, PWR_CTL]

/-- RW bits of the register at an offset. -/
def regRw (off : Nat) : U64 := (regAt off).elim 0 fun x => x.1.rw

/-- Command `i` answers a next state from `s`, and `P` holds of it. -/
def Answers (i : Instr) (s : State) (P : State → Prop) : Prop := ∃ t, exec i s = .next t ∧ P t

/-- Command `i` answers a next state from `s`: the device is then `t`, and nothing else differs. -/
abbrev Becomes (i : Instr) (s : State) (t : Dev) : Prop := exec i s = .next { s with dev := t }

/-- The state with an effect on the device alone. -/
abbrev State.dev' (s : State) (f : Dev → Dev) : State := { s with dev := f s.dev }

/-- Entry `k` of the descriptor table waits for `w`. -/
def Dev.Waits (t : Dev) (k : Nat) (w : Wait) : Prop := (tget t.rng.descs k).map DescEntry.st = some (.waiting w)

end Machine

end Sys2Proof
end

