-- ==== Sys2Proof/Certificates/Slice0/Obligations.lean ====
section
/-! DEFINITION. The statements about the model, for the provers. -/

open Sys2Proof Sys2Proof.Machine

/-! ### The step, the queue, the memory lent to the pool -/

/-- The step takes the command at the front of the queue and runs exec on it with the queue's rest. -/
def Obligations.StepRunsTheFrontCommand : Prop :=
  ∀ (c : Instr) (s : State), step { s with pending := c :: s.pending } = exec c s

/-- On an empty queue the clock goes on by one tick of the 100 MHz reference (02 Table 02.3), at half rate while a negative correction
is absorbed (02 R45). That time passes there is the model's choice (log 1). -/
def Obligations.IdleStepTicksTheClock : Prop :=
  ∀ s : State, s.pending = [] → ∃ t, step s = .next t ∧
    (s.dev.clock.slew = 0 → t = { s with dev := { s.dev with clock := { now := s.dev.clock.now + 10, slew := 0 } } }) ∧
    (s.dev.clock.slew ≠ 0 →
      t = { s with dev := { s.dev with clock := { now := s.dev.clock.now + 5, slew := s.dev.clock.slew - 5 } } })

/-- Every command whose operands lie in their rows' ranges answers a next state, and leaves the option and the queue alone; any other
is refused by name. -/
def Obligations.WellFormedCommandsAnswer : Prop :=
  ∀ (i : Instr) (s : State),
    (i.wf = true → ∃ t, exec i s = .next t ∧ t.hw = s.hw ∧ t.pending = s.pending) ∧
    (i.wf = false → exec i s = .refused .operandRange)

/-- The memory lent to the pool keeps its canonical form: addresses rising, no byte 0 listed. -/
def Obligations.StepKeepsMemoryCanonical : Prop :=
  ∀ s t : State, Memory.wf s.mem = true → step s = .next t → Memory.wf t.mem = true

/-- The module right after reset: nothing waits, nothing is lent, nothing is sent, no free value drawn, and the memory is canonical. -/
def Obligations.ResetHoldsNothing : Prop :=
  State.reset.pending = [] ∧ State.reset.mem = [] ∧ Memory.wf State.reset.mem = true ∧ State.reset.dev.out = [] ∧
  State.reset.dev.free = 0 ∧ State.reset.dev.rng.descs = [] ∧ State.reset.dev.pwr.seq = .u5

/-- No command but WRITE and DATA_FLIT puts data into the memory lent to the pool: a byte that any other command changes becomes 0. -/
def Obligations.OnlyWritesStoreData : Prop :=
  ∀ (i : Instr) (s t : State), (∀ f, i ≠ .write f) → (∀ n b, i ≠ .dataFlit n b) → exec i s = .next t →
    ∀ a, memRead t.mem a = memRead s.mem a ∨ memRead t.mem a = 0

/-- A WRITE that its home admits to HBM stores its payload at the offset its ADDRESS names and changes no other byte; one that it
refuses, or that goes to an appliance, changes none (11 R297, R308). -/
def Obligations.WriteStoresItsPayload : Prop :=
  ∀ (s : State) (f g : Frame) (d : Dev), f.wf = true → f.chan < 36 → f.dst = s.dev.id → Memory.wf s.mem = true →
    s.dev.openFrame { f with type := 0x03 } = (d, some g) → g.type = 0x03 → ∃ t, exec (.write f) s = .next t ∧
      (d.homeStatus g true g.payload.length = stOk → poolSpace g.addr = 0 →
        (∀ i, i < g.payload.length → some (memRead t.mem (poolOffset g.addr + i)) = g.payload[i]?) ∧
        (∀ a, a < poolOffset g.addr ∨ poolOffset g.addr + g.payload.length ≤ a → memRead t.mem a = memRead s.mem a)) ∧
      ((d.homeStatus g true g.payload.length ≠ stOk ∨ poolSpace g.addr ≠ 0) → ∀ a, memRead t.mem a = memRead s.mem a)

/-- The 64 bytes of a descriptor and its fields say the same: each of the two readings undoes the other (03 Table 03.3). -/
def Obligations.DescriptorEncodingRoundTrips : Prop :=
  (∀ (op : Byte) (x : Desc), decodeDesc (encodeDesc op x) = (op, x)) ∧
  (∀ w : BitVec 512, encodeDesc (decodeDesc w).1 (decodeDesc w).2 = w)

/-- A handle gives back the device, partition, generation and number it was made from (04 R84, 05 R128). -/
def Obligations.HandlesRoundTrip : Prop :=
  ∀ dev part gen num : Nat, dev < 4096 → part < 8 →
    (gen < 2 ^ 27 → num < 2 ^ 22 → hDevice (mkHandle dev part gen num) = dev ∧ hPart (mkHandle dev part gen num) = part ∧
      hGen (mkHandle dev part gen num) = gen ∧ hLocal (mkHandle dev part gen num) = num) ∧
    (gen < 2 ^ 33 → num < 2 ^ 16 → hDevice (mkRegionHandle dev part gen num) = dev ∧ hPart (mkRegionHandle dev part gen num) = part ∧
      hRegionGen (mkRegionHandle dev part gen num) = gen ∧ hRegion (mkRegionHandle dev part gen num) = num)

/-! ### The ring engine (03) -/

/-- NOP, RING_CREATE, RING_DESTROY, RING_RESET, IRQ_CFG and TELEM_CFG take effect and complete (03 R63, Tables 03.5, 03.6): a ring that is
created is ACTIVE from counts of 0, one that is destroyed drains first, one in ERROR that is reset goes on from FETCH_COUNT, a vector gets its
moderation, a partition its telemetry mask and period. -/
def Obligations.RingOpcodesTakeEffect : Prop :=
  ∀ (s : State) (n : Nat) (x : Desc) (k : Nat) (e : DescEntry), n < 4096 → s.dev.Hears e →
    (s.dev.Ready 0x00 n x k e → Answers (.nop n x) s fun t => t = s.dev' (·.okOpen k) ∧ ∃ r y, s.dev.Completes t.dev e stOk r y) ∧
    (s.dev.Ready 0x01 n x k e → chkRingCreate s.dev e.part x = stOk → (s.dev.ring (fieldAt x 32 2)).st = .disabled →
      (fieldAt x 36 2 = fieldAt x 32 2 ∨
        ((s.dev.ring (fieldAt x 36 2)).st ≠ .disabled ∧ (s.dev.ring (fieldAt x 36 2)).cqLog2 ≠ 0)) →
      Answers (.ringCreate n x) s fun t => t = s.dev' (fun d => (d.openRing (fieldAt x 32 2)
        { sqBase := BitVec.ofNat 64 (fieldAt x 16 8), cqBase := BitVec.ofNat 64 (fieldAt x 24 8), sqLog2 := fieldAt x 34 1,
          cqLog2 := fieldAt x 35 1, cqTarget := fieldAt x 36 2, vector := fieldAt x 38 2, priority := fieldAt x 40 1,
          policer := fieldAt x 42 2 }).okOpen k) ∧ ∃ r y, s.dev.Completes t.dev e stOk r y) ∧
    (s.dev.Ready 0x02 n x k e → s.dev.ringStatus e.part (fieldAt x 16 2) = stOk →
      ((s.dev.ring (fieldAt x 16 2)).st = .active ∨ (s.dev.ring (fieldAt x 16 2)).st = .error) →
      ((s.dev.ring (fieldAt x 16 2)).cqLog2 = 0 ∨ s.dev.cqNamed (fieldAt x 16 2) = false) →
      exec (.ringDestroy n x) s = .next (s.dev' fun d =>
        (((d.drainRing (fieldAt x 16 2)).wait k (.ringDown (fieldAt x 16 2))).settle (fieldAt x 16 2)).sweep)) ∧
    (s.dev.Ready 0x03 n x k e → s.dev.ringStatus e.part (fieldAt x 16 2) = stOk → (s.dev.ring (fieldAt x 16 2)).st = .error →
      Answers (.ringReset n x) s fun t => t = s.dev' (fun d => (d.setRing (fieldAt x 16 2) { d.ring (fieldAt x 16 2) with
        st := .active, fetched := BitVec.ofNat 32 (fieldAt x 20 4), tail := BitVec.ofNat 32 (fieldAt x 20 4) }).okOpen k) ∧
        ∃ r y, s.dev.Completes t.dev e stOk r y) ∧
    (s.dev.Ready 0x04 n x k e → chkIrqCfg s.dev e.part x = stOk →
      Answers (.irqCfg n x) s fun t => t = s.dev' (fun d => (d.setVec (fieldAt x 16 2) { d.vec (fieldAt x 16 2) with
        modCnt := fieldAt x 18 2, modTime := fieldAt x 20 2,
        timer := fieldAt x 20 2 != 0 && decide (0 < (d.vec (fieldAt x 16 2)).count) }).okOpen k) ∧
        ∃ r y, s.dev.Completes t.dev e stOk r y) ∧
    (s.dev.Ready 0x05 n x k e → fieldAt x 48 2 ≠ 0 →
      Answers (.telemCfg n x) s fun t => t = s.dev' (fun d => (d.modPr e.part fun y =>
        { y with typeMask := BitVec.ofNat 256 (fieldAt x 16 32), period := fieldAt x 48 2 }).okOpen k) ∧
        ∃ r y, s.dev.Completes t.dev e stOk r y)

/-- An admitted write of a register that only holds bits: each RW bit takes the value's, each W1C bit written 1 is cleared, every other
bit and every other register keeps its value, and nothing but registers differs (00 R8, 17 R440). -/
def Obligations.RegisterWriteSetsItsBits : Prop :=
  ∀ (s : State) (a : Access) (off : Nat) (v : U64) (r : RegInfo) (i : Nat), a.wf = true → s.dev.Takes a off r i →
    ¬ (r.base ∈ actingRegs) → s.dev.valueOk r.base i v = true → off ≠ PWR_CAP_CAP_W.off → off ≠ PWR_HOLDUP_CFG → off ≠ FAB_POOL_CFG →
    Answers (.registerWrite a off 8 v) s fun t =>
      (∀ n, n < 64 → (t.dev.reg off).getLsbD n =
        if r.rw.getLsbD n then v.getLsbD n else (s.dev.reg off).getLsbD n && !(r.w1c.getLsbD n && v.getLsbD n)) ∧
      (∀ o, o ≠ off → t.dev.reg o = s.dev.reg o) ∧ { t.dev with regs := s.dev.regs } = s.dev

/-- A field put into a register reads back as itself, every other bit of the register and every other register keeps its value. -/
def Obligations.FieldReadsBack : Prop :=
  ∀ (d : Dev) (f : Fld) (v : Nat), f.lo + f.w ≤ 64 →
    (d.setF f v).getF f = v % 2 ^ f.w ∧
    (∀ g : Fld, g.off = f.off → (g.lo + g.w ≤ f.lo ∨ f.lo + f.w ≤ g.lo) → g.lo + g.w ≤ 64 → (d.setF f v).getF g = d.getF g) ∧
    (∀ o, o ≠ f.off → (d.setF f v).reg o = d.reg o)

/-- While EN is 1, a write of any value to RNG_WAKE_p and the expiry of the scan timer start a scan: its records are those of R56, and
their reads go out in order. A WAKE while one runs makes the next one pending (03 R55). -/
def Obligations.WakeAndTimerStartAScan : Prop :=
  ∀ (s : State) (a : Access) (p : Nat), p < 8 → a.wf = true → s.dev.scans p = true →
    let reads := (s.dev.scanList p).map fun r => Out.hostRead p (s.dev.dbAddr p r 0) 64
    let scanning := fun (t : State) => (t.dev.pr p).scan = s.dev.scanList p ∧ (t.dev.pr p).pending = false ∧
      (t.dev.pr p).timer = false ∧ t.dev.out = reads.reverse ++ s.dev.out
    (s.dev.hostUp = true → s.dev.admits a (RNG_WAKE p) 8 true = true → (s.dev.pr p).scan = [] →
      Answers (.rngWake a p) s scanning) ∧
    (s.dev.hostUp = true → s.dev.admits a (RNG_WAKE p) 8 true = true → (s.dev.pr p).scan ≠ [] →
      exec (.rngWake a p) s = .next (s.dev' fun d => d.modPr p fun x => { x with pending := true })) ∧
    ((s.dev.pr p).timer = true → (s.dev.pr p).scan = [] → Answers (.scanTimerExpiry p) s scanning)

/-- The registers that set up a partition's rings, written while its TDI is neither locked nor running: the doorbell area, the admin
ring, the error log and telemetry rings (03 R51, R83, R456). -/
def Obligations.RingRegistersSetUpRings : Prop :=
  ∀ (s : State) (a : Access) (p : Nat) (v : U64), p < 8 → a.wf = true → s.dev.hostUp = true → s.dev.tdi p ≠ .locked → s.dev.tdi p ≠ .run →
    (s.dev.admits a (RNG_DB_BASE p) 8 true = true → s.dev.getF (RNG_DB_BASE_EN p) = 0 →
      Answers (.rngDbBaseWrite a p v) s fun t => t.dev.reg (RNG_DB_BASE p) = (v &&& (regRw (RNG_DB_BASE p))) |||
        (s.dev.reg (RNG_DB_BASE p) &&& ~~~(regRw (RNG_DB_BASE p))) ∧
        ((RNG_DB_BASE_EN p).of v = 1 → (t.dev.pr p).timer = true)) ∧
    (∀ cq, s.dev.admits a (if cq then RNG_ADMIN_CQ p else RNG_ADMIN_SQ p) 8 true = true → log2Ok (v.toNat % 32) = true →
      (s.dev.ring (s.dev.adminRing p)).st = .disabled →
      exec (.rngAdminRingWrite a p cq v) s =
        .next (s.dev' fun d => (d.putRng (if cq then RNG_ADMIN_CQ p else RNG_ADMIN_SQ p) v).startAdmin p)) ∧
    (s.dev.admits a (RNG_ERRLOG p) 8 true = true → log2Ok (v.toNat % 32) = true → s.dev.getF (RNG_ERRLOG_LOG2 p) = 0 →
      Answers (.rngErrlogWrite a p v) s fun t => (t.dev.pr p).errlog = {} ∧ t.dev.getF (RNG_ERRLOG_LOG2 p) = v.toNat % 32) ∧
    (s.dev.admits a (RNG_TELEM p) 8 true = true → log2Ok (v.toNat % 32) = true → s.dev.getF (RNG_TELEM_LOG2 p) = 0 →
      Answers (.rngTelemWrite a p v) s fun t => (t.dev.pr p).telem = {} ∧ t.dev.getF (RNG_TELEM_LOG2 p) = v.toNat % 32)

/-- Registers that act: a level clear joins the next commit token on the sync root (07 R198); SHUTDOWN and RESTART with the key start an
orderly shut-down (16 R433); a read of a beat rate or of the temperatures brings their register (02 R30, 16 R438). -/
def Obligations.ActingRegistersAct : Prop :=
  ∀ (s : State) (a : Access) (p : Nat), p < 8 → a.wf = true → s.dev.hostUp = true →
    (∀ layer : Byte, s.dev.admits a (ARI_ESC_CLEAR p) 8 true = true → s.dev.isRoot p = true →
      Answers (.escClearLayer a p layer) s fun t => (t.dev.stepP p).clears = (s.dev.stepP p).clears ++ [some layer.toNat]) ∧
    (s.dev.admits a (ARI_ESC_CLEAR p) 8 true = true → s.dev.isRoot p = true →
      Answers (.escClearAll a p) s fun t => (t.dev.stepP p).clears = (s.dev.stepP p).clears ++ [none]) ∧
    (s.dev.admits a PWR_CTL 8 true = true →
      exec (.shutdown a 0x5A) s = .next (s.onPower fun d => d.shutdownStart false 1)) ∧
    (s.dev.admits a PWR_CTL 8 true = true →
      exec (.restart a 0x5A) s = .next (s.onPower fun d => d.shutdownStart true 1)) ∧
    (∀ i, i < 9 → s.dev.admits a (GLB_BEAT_RATE i) 8 false = true →
      Answers (.beatRateRead a i) s fun t => t.dev.out = .regData (GLB_BEAT_RATE i)
        (if s.dev.deadBeat (GLB_BEAT_RATE i) then 0 else s.dev.reg (GLB_BEAT_RATE i)) :: s.dev.out) ∧
    (s.dev.admits a PWR_THERMAL 8 false = true →
      Answers (.pwrThermalRead a) s fun t => t.dev.out = .regData PWR_THERMAL (s.dev.reg PWR_THERMAL) :: s.dev.out)

/-- What the host's answers, the ring engine's own events and the functions' resets do: a record that a scan reads is dealt with and taken
off the scan (03 R56); a descriptor is copied, counted and started (R57); a vector's interrupt goes out, or stays pending while it is masked
(R73); buffered fault records are written while the error log takes them (R72); data goes to the opcode that read it (R457); a function-level
reset of a primary function disables its partition's rings (17 R444). -/
def Obligations.HostEventsTakeEffect : Prop :=
  ∀ s : State,
    (∀ p j w, p < 8 → (s.dev.pr p).scan.contains j = true →
      Becomes (.doorbellRecordArrival p j (some w)) s ((s.dev.recordData p j w).recordDone p j) ∧
      Becomes (.doorbellRecordArrival p j none) s
        (((s.dev.flag (RNG_STATUS_DB_READ_ERR p) (dbErrs p)).raise (some p) 0x0106 (s.dev.dbAddr p j 0) 0 ringMaster).recordDone p j)) ∧
    (∀ n w, n < 4096 → (s.dev.ring n).issued ≠ 0 →
      Becomes (.descriptorArrival n (some w)) s (s.dev.arrive n (decodeDesc w).1 (decodeDesc w).2).1 ∧
      Becomes (.descriptorArrival n none) s (s.dev.ringError n 0x0112 (s.dev.tailAddr n))) ∧
    (∀ p r rs, p < 8 → (s.dev.pr p).buffer = r :: rs → (s.dev.pr p).errlog.room (s.dev.getF (RNG_ERRLOG_LOG2 p)) = true →
      Becomes (.errlogBufferDrain p) s (((s.dev.modPr p fun y => { y with buffer := rs }).writeFault p r).drainLog p 1023)) ∧
    (∀ v, v < 2048 → ((s.dev.vecOwner v).any s.dev.dmaStopped) = false →
      let sent := fun (mask : Bool) => ({ s.dev with
        rng := { s.dev.rng with vec := tput s.dev.rng.vec v { s.dev.vec v with count := 0, timer := false, pend := (s.dev.vec v).pend || mask } },
        out := if mask then s.dev.out else .msi v :: s.dev.out } : Dev)
      (0 < (s.dev.vec v).count → (s.dev.vec v).modCnt ≤ (s.dev.vec v).count →
        Becomes (.irqModCountReached v) s (sent (s.dev.vec v).mask)) ∧
      ((s.dev.vec v).timer = true → Becomes (.irqModTimerExpiry v) s (sent (s.dev.vec v).mask))) ∧
    (∀ a v p, a.wf = true → v < 2048 → s.dev.vecOwner v = some p → s.dev.hostUp = true → HostFnExists s.dev a.fn = true →
      HostFnPart s.dev a.fn = some p → HostFnPrimary s.dev a.fn = true → (s.dev.tdi p = .unlocked ∨ s.dev.tdi p = .error) →
      Becomes (.msiXUnmask a v) s { s.dev with
        rng := { s.dev.rng with vec := tput s.dev.rng.vec v { s.dev.vec v with mask := false, pend := false } },
        out := if (s.dev.vec v).pend = true ∧ s.dev.tdi p = .unlocked then .msi v :: s.dev.out else s.dev.out }) ∧
    (∀ k x e, tget s.dev.rng.descs k = some e → e.reads = true →
      Becomes (.hostReadDataArrival k x) s
        (if 0x62 ≤ e.op.toNat ∧ e.op.toNat ≤ 0x64 then s.dev.reedArrived k e x.bytes x.fail
         else match x.fail with
          | none => (s.dev.modDesc k fun y => { y with data := x.bytes, failAt := none }).dataArrived k e x
          | some a => (s.dev.modDesc k fun y => { y with data := x.bytes, failAt := some a }).dataFailed k e x a)) ∧
    (∀ fn p, fn.wf = true → HostFnPart s.dev fn = some p → s.dev.hostUp = true → HostFnExists s.dev fn = true →
      s.dev.tdi p ≠ .locked → s.dev.tdi p ≠ .run →
      Becomes (.functionLevelReset fn) s (((if HostFnPrimary s.dev fn then (s.dev.resetRings p).resetRng p else s.dev).loseHost p
        (HostFnPort fn)).flag GLB_STATUS_FN_RESET GLB_STATUS_FN_RESET_COUNT))

/-- STATE_READ returns records at once, or waits for the next boundary (03 R63, R64). A descriptor that has been fetched and goes against
no rule of its ring starts; the ring counts it (R57). -/
def Obligations.DescriptorsStartAndReadState : Prop :=
  ∀ s : State,
    (∀ n x k e, n < 4096 → s.dev.Ready 0x06 n x k e → chkStateRead s.dev e.part x = stOk →
      (fieldAt x 25 1 % 2 = 1 → Becomes (.stateRead n x) s (s.dev.wait k .boundaryRead)) ∧
      (fieldAt x 25 1 % 2 = 0 → Becomes (.stateRead n x) s ((s.dev.emitFor e.part (.hostWrite e.part (BitVec.ofNat 64 (fieldAt x 16 8))
        (s.dev.stateRecords e.part x).flatten)).okOpen k))) ∧
    (∀ n p (w : BitVec 512), n < 4096 → s.dev.ringOwner n = some p → (s.dev.ring n).issued ≠ 0 → s.dev.rng.descs = [] →
      (s.dev.ring n).policer = 0xFFFF → (opRow (decodeDesc w).1).isSome = true →
      Answers (.descriptorArrival n (some w)) s fun t =>
        t.dev.rng.descs = [(s.dev.rng.next,
          { ring := n, part := p, addr := (s.dev.ring n).slotAddr (s.dev.ring n).fetched.toNat, op := (decodeDesc w).1,
            d := (decodeDesc w).2, st := .started })] ∧
        (t.dev.ring n).fetched = (s.dev.ring n).fetched + 1 ∧ (t.dev.ring n).issued = (s.dev.ring n).issued - 1 ∧
        t.dev.reg (RNG_FETCH_COUNT p) = s.dev.reg (RNG_FETCH_COUNT p) + 1)

/-! ### Sessions (04) -/

/-- The session opcodes take effect: SESSION_OPEN takes a slot, raises its generation and answers its handle (04 R95); APPEND, STEP_REQUEST
and TOOL_WAIT bring work to the session and wait for it (R97, R98); PARK, REVIVE and CLOSE start what their names say (R93, R101, R461). Each
looks its session's descriptor up once (R87). -/
def Obligations.SessionOpcodesTakeEffect : Prop :=
  ∀ (s : State) (n : Nat) (x : Desc) (k : Nat) (e : DescEntry), n < 4096 →
    let d := s.dev.tussockAccess
    let loc := hLocal x.target
    let y := s.dev.ses loc
    (∀ l nums r, s.dev.Ready 0x10 n x k e → chkSessionOpen s.dev e.part x = stOk → (s.dev.storeKey e.part (fieldAt x 20 2)).isSome = true →
      (tgetD s.dev.tus.numbers e.part {}).take (s.dev.getF (TUS_PART_FIRST e.part)) (s.dev.getF (TUS_PART_COUNT e.part)) = some (l, nums) →
      s.dev.region (hRegion (BitVec.ofNat 64 (fieldAt x 24 8))) = some r →
      let g := nextGen (s.dev.ses l).gen 0x7FFFFFF
      let t := d.setSes l
        { gen := g, st := .idle, pin := (fieldAt x 18 1).testBit 0, cls := fieldAt x 16 1, prio := fieldAt x 17 1 % 4,
          keyId := BitVec.ofNat 16 (fieldAt x 20 2), histAddr := s.dev.tileAddr r 0, stateTime := s.dev.clock.now,
          memIndex := BitVec.ofNat 32 (fieldAt x 32 4), histReg := hRegion (BitVec.ofNat 64 (fieldAt x 24 8)) }
      let t := { t with tus := { t.tus with numbers := tput t.tus.numbers e.part nums } }
      let t := if fieldAt x 32 4 = 0xFFFFFFFF then t else t.nameIndex (fieldAt x 32 4) true
      Becomes (.sessionOpen n x) s ((t.modTok e.part fun z => { z with gens := tput z.gens l {} }).ok k (mkHandle s.dev.id e.part g l) 0)) ∧
    (s.dev.Ready 0x11 n x k e → chkAppend s.dev e.part x = stOk → d.tenantGone e.part y.keyId.toNat = false → y.admitsAppend = true →
      (d.key e.part y.keyId.toNat).isSome = true → (d.tokp e.part).bound.isSome = true → d.classMax e.part y.cls ≠ 0 →
      (d.vocabOf e.part y.cls).isSome = true →
      Becomes (.append n x) s (if d.appending loc then (d.workArrives loc).wait k (.tokenise loc) else (d.workArrives loc).readAppend k)) ∧
    (s.dev.Ready 0x12 n x k e → chkGen s.dev e.part x false = stOk → d.tenantGone e.part y.keyId.toNat = false →
      (d.window e.part).failed = false → y.genArmed = false → y.waitArmed = false → y.positions + y.staged ≠ 0 →
      (d.key e.part y.keyId.toNat).isSome = true → (d.tokp e.part).bound.isSome = true →
      (y.st = .idle ∨ y.st = .parked ∨ y.st = .parking ∨ y.st = .resident) →
      Becomes (.stepRequest n x) s (((d.armGen loc (genOf k e)).workArrives loc).wait k (.generation loc))) ∧
    (s.dev.Ready 0x13 n x k e → chkGen s.dev e.part x true = stOk → d.tenantGone e.part y.keyId.toNat = false →
      (d.window e.part).failed = false → y.genArmed = false → y.waitArmed = false → (d.tokp e.part).bound.isSome = true →
      (y.st = .idle ∨ y.st = .resident) →
      Becomes (.toolWait n x) s (((d.enter loc .waiting).modSes loc fun z =>
        { z with waitArmed := true, armed := some (genOf k e), linger := false, ended := false, fromIdle := !z.inBatch }).wait k
          (.generation loc))) ∧
    (s.dev.Ready 0x14 n x k e → s.dev.sessionStatus e.part x.target = stOk → fieldAt x 16 1 ≤ 3 → fieldAt x 17 1 ≤ 2 →
      d.tenantGone e.part y.keyId.toNat = false → y.pin = false → (y.st = .idle ∨ (y.st = .waiting ∧ y.inBatch = false)) →
      Becomes (.park n x) s ((d.toParking loc (if fieldAt x 16 1 = 0 then s.dev.defaultDepth e.part else fieldAt x 16 1)
        (fieldAt x 17 1)).wait k (.park loc))) ∧
    (s.dev.Ready 0x15 n x k e → s.dev.sessionStatus e.part x.target = stOk → d.tenantGone e.part y.keyId.toNat = false →
      (d.key e.part y.keyId.toNat).isSome = true → y.st = .parked →
      Becomes (.revive n x) s (((if (fieldAt x 16 1).testBit 0 then (d.dropAll loc).1 else d).workArrives loc).wait k (.revive loc))) ∧
    (s.dev.Ready 0x16 n x k e → s.dev.sessionStatus e.part x.target = stOk → y.st ≠ .closing → y.genArmed = false → y.waitArmed = false →
      (d.sesDescs loc).filter (fun j => j != k) = [] →
      Becomes (.close n x) s (if y.inBatch then (d.enter loc .closing).wait k (.close loc)
        else (((d.enter loc .closing).closePages loc).1.modDesc k fun z =>
          { z with detail := BitVec.ofNat 32 ((d.enter loc .closing).closePages loc).2 }).wait k (.close loc)))

/-! ### Regions and tiles (05) -/

/-- The region opcodes take effect (05 R126–R136, R148): a region is created in the lowest free number with a new generation, its frames taken;
it is destroyed when nothing names it; an attribute is set; tiles are written, read, flushed, moved or rebuilt one by one; replicas of a sealed
region are named; a background copy is admitted and waits for its boundary. -/
def Obligations.RegionOpcodesTakeEffect : Prop :=
  ∀ (s : State) (n : Nat) (x : Desc) (k : Nat) (e : DescEntry), n < 4096 →
    let d := s.dev
    let i := targetRegion x
    (∀ m nums, d.Ready 0x20 n x k e → chkRegionCreate d e.part x = stOk → (d.storeKey e.part (fieldAt x 24 2)).isSome = true →
      let tiles := fieldAt x 16 4
      let tier := fieldAt x 20 1
      let h := BitVec.ofNat 64 (fieldAt x 32 8)
      let pages := if tier = 1 then [] else List.range tiles
      (tier ≠ 1 → ∃ y, d.extentInfo h = some y ∧ tiles ≤ y.pages ∧ ∀ j, j ∈ pages → (d.takenPages h).contains j = false) →
      regionFrames tiles tier ≤ d.freeFrames e.part → (tgetD d.tier.numbers 0 {}).take 0 regionLimit = some (m, nums) →
      let g := nextGen (tgetD d.tier.gens m 0) 0x1FFFFFFFF
      let r : Region :=
        { gen := g, part := e.part, tiles := tiles, homeTier := tier, wback := fieldAt x 21 1 = 1, kind := fieldAt x 22 1,
          peat := fieldAt x 23 1, keyId := BitVec.ofNat 16 (fieldAt x 24 2), weight := (fieldAt x 26 1).testBit 0,
          pin := (fieldAt x 26 1).testBit 1, extent := h }
      let t := { d with
        tier := { d.tier with region := tput d.tier.region m r, numbers := tput d.tier.numbers 0 nums, gens := tput d.tier.gens m g } }
      let t := (if tier = 1 then t else t.takePages h pages).moveFrames e.part 0 2 (regionFrames tiles tier)
      Becomes (.regionCreate n x) s (t.ok k (mkRegionHandle t.id e.part g m) 0)) ∧
    (∀ r, d.Ready 0x21 n x k e → d.regionStatus e.part x.target = stOk → d.region i = some r → d.imageNames e.part x.target = false →
      d.historyOf i = false → r.bound = false → (d.tier.copy.any fun c => c.src == i || c.dest == i) = false →
      Becomes (.regionDestroy n x) s (((d.dropRegion i).modDesc k fun y => { y with detail := BitVec.ofNat 32 r.tiles }).wait k (.destroyed i))) ∧
    (∀ r, d.Ready 0x22 n x k e → d.regionStatus e.part x.target = stOk → d.region i = some r → d.tenantGone e.part r.keyId.toNat = false →
      (fieldAt x 16 1 = 1 → fieldAt x 17 1 = 0 → (∀ t, t < r.tiles → (r.at t).gen ≠ 0) →
        Becomes (.regionAttr n x) s ((d.modRegion i fun r => { r with isSealed := true }).ok k 0 0)) ∧
      (∀ b : Bool, fieldAt x 16 1 = (if b then 2 else 3) → fieldAt x 17 1 = 0 → r.wback = true →
        Becomes (.regionAttr n x) s ((d.modRegion i fun r => { r with pin := b }).ok k 0 0)) ∧
      (fieldAt x 16 1 = 4 → fieldAt x 17 1 ≤ 2 →
        Becomes (.regionAttr n x) s ((d.modRegion i fun r => { r with peat := fieldAt x 17 1 }).ok k 0 0))) ∧
    (∀ r, d.region i = some r → d.tenantGone e.part r.keyId.toNat = false →
      (d.Ready 0x23 n x k e → d.regionStatus e.part x.target = stOk → rangeOk r (fieldAt x 16 4) (fieldAt x 20 4) = true →
        Becomes (.regionFlush n x) s (if (fieldAt x 24 1).testBit 1 then d.wait k .boundaryFlush else d.flushRun (r.tiles + 1) k)) ∧
      (d.Ready 0x24 n x k e → chkRegionMove d e.part x = stOk → r.wback = false → r.bound = false →
        Becomes (.regionMove n x) s (d.moveRun (r.tiles + 1) k)) ∧
      (d.Ready 0x25 n x k e → chkTileIo d e.part x = stOk → r.isSealed = false → r.bound = false →
        Becomes (.tileWrite n x) s
          (((d.emitFor e.part (.hostRead e.part (BitVec.ofNat 64 (fieldAt x 16 8)) (fieldAt x 28 4 * tileSize))).emitFor e.part
            (.hostRead e.part (BitVec.ofNat 64 (fieldAt x 32 8)) (fieldAt x 28 4 * 64))).wait k .hostRead)) ∧
      (d.Ready 0x26 n x k e → chkTileIo d e.part x = stOk → Becomes (.tileRead n x) s (d.tileReadRun (fieldAt x 28 4 + 1) k)) ∧
      (d.Ready 0x27 n x k e → chkReplicaSet d e.part x = stOk → (∀ h, h ∈ replicaList x → hDevice h = d.id ∧ d.replicaDiffers r h = none) →
        Becomes (.replicaSet n x) s
          ((d.modRegion i fun r => { r with replicas := replicaList x }).ok k (BitVec.ofNat 64 (replicaList x).length) 0)) ∧
      (d.Ready 0x28 n x k e → chkReplicaRebuild d e.part x = stOk →
        Becomes (.replicaRebuild n x) s (if fieldAt x 32 1 = 0 then
          (d.emitFor e.part (.hostRead e.part (BitVec.ofNat 64 (fieldAt x 16 8)) (fieldAt x 28 4 * tileSize))).wait k .hostRead
        else d.rebuildRun (fieldAt x 28 4 + 1) k)) ∧
      (∀ q, d.Ready 0x29 n x k e → d.regionStatus e.part x.target = stOk → rangeOk r (fieldAt x 24 4) (fieldAt x 28 4) = true →
        let h := BitVec.ofNat 64 (fieldAt x 16 8)
        d.regionStatus e.part h = stOk → d.region (hRegion h) = some q → q.isSealed = false → q.tiles = r.tiles → q.bound = false →
        d.copyLimit = false →
        let ts := (List.range (rangeCount r (fieldAt x 24 4) (fieldAt x 28 4))).map fun j => fieldAt x 24 4 + j
        let t := { d with tier := { d.tier with copy := d.tier.copy ++ [({ desc := k, src := i, dest := hRegion h, left := ts } : Copy)] } }
        Becomes (.bgCopy n x) s (t.showCopies.wait k (.copy (fieldAt x 24 4) ts.length))))

/-- Tile by tile to the end: a TILE_READ of tiles that lie readable in T1, or were never written, completes with OK and COUNT; a REGION_FLUSH
of a range without a dirty copy completes with OK and 0; a REGION_MOVE to T1 of a range that lies there completes with OK and its length
(05 R130, R133, R134). -/
def Obligations.TileRunsReachTheirEnd : Prop :=
  ∀ (s : State) (n : Nat) (x : Desc) (k : Nat) (e : DescEntry) (r : Region), n < 4096 → s.dev.Hears e → e.result = 0 → e.detail = 0 →
    let d := s.dev
    d.region (targetRegion x) = some r → r.tiles ≤ 2 ^ 28 → d.tenantGone e.part r.keyId.toNat = false →
    (d.Ready 0x26 n x k e → chkTileIo d e.part x = stOk →
      (∀ t, fieldAt x 24 4 ≤ t → t < fieldAt x 24 4 + fieldAt x 28 4 → (r.at t).gen = 0 ∨
        ((r.at t).bad = 0 ∧ ∃ raw, r.rawHere t = some raw ∧ (r.weight || crc64 raw == (r.at t).digest || (r.at t).cache.isSome) = true)) →
      Answers (.tileRead n x) s fun t => d.Completes t.dev e stOk (BitVec.ofNat 64 (fieldAt x 28 4)) 0 ∧ Quiet d t.dev) ∧
    (d.Ready 0x23 n x k e → d.regionStatus e.part x.target = stOk → rangeOk r (fieldAt x 16 4) (fieldAt x 20 4) = true →
      fieldAt x 24 1 = 0 →
      (∀ t, fieldAt x 16 4 ≤ t → t < fieldAt x 16 4 + rangeCount r (fieldAt x 16 4) (fieldAt x 20 4) →
        d.tileInFlight (targetRegion x) t = false ∧ ((r.at t).cache.all fun c => !c.2) = true) →
      Answers (.regionFlush n x) s fun t => d.Completes t.dev e stOk 0 0 ∧ Quiet d t.dev) ∧
    (d.Ready 0x24 n x k e → chkRegionMove d e.part x = stOk → r.wback = false → r.bound = false → fieldAt x 24 1 = 1 →
      (∀ t, fieldAt x 16 4 ≤ t → t < fieldAt x 16 4 + rangeCount r (fieldAt x 16 4) (fieldAt x 20 4) → r.tierOf t = 1) →
      rangeCount r (fieldAt x 16 4) (fieldAt x 20 4) ≠ r.tiles →
      Answers (.regionMove n x) s fun t =>
        d.Completes t.dev e stOk (BitVec.ofNat 64 (rangeCount r (fieldAt x 16 4) (fieldAt x 20 4))) 0 ∧ Quiet d t.dev)

/-! ### KV pages and Yo-yo (06, 04) -/

/-- PT_SHARE reads the source's history; PT_TRUNCATE releases the pages of the ranges beyond N and publishes a new version; KV_DROP drops the
pages it names, keeps those another table holds, and publishes (06 R165, R174, R175). -/
def Obligations.KvOpcodesTakeEffect : Prop :=
  ∀ (s : State) (n : Nat) (x : Desc) (k : Nat) (e : DescEntry), n < 4096 →
    let d := s.dev.tussockAccess
    let loc := hLocal x.target
    let y := s.dev.ses loc
    let h := s.dev.sesHdr e.part loc
    (s.dev.Ready 0x30 n x k e → chkPtShare s.dev e.part x = stOk →
      let src := hLocal (BitVec.ofNat 64 (fieldAt x 16 8))
      d.shareStatus e.part loc src (fieldAt x 24 4) = stOk →
      Becomes (.ptShare n x) s ((d.readHistory src (fieldAt x 24 4) (some k)).1.wait k
        (.requests (d.readHistory src (fieldAt x 24 4) (some k)).2))) ∧
    (s.dev.Ready 0x31 n x k e → s.dev.sessionStatus e.part x.target = stOk → d.tenantGone e.part y.keyId.toNat = false →
      (y.st = .idle ∨ y.st = .parked) → y.staged = 0 → y.genArmed = false → fieldAt x 16 4 < y.positions →
      let cut := d.releasePages loc fun i _ => decide (rangesOf (fieldAt x 16 4) ≤ h.rangeOf i)
      let t := ((cut.1.modSes loc fun z => { z with positions := fieldAt x 16 4, hist := z.hist.take (fieldAt x 16 4) }).recountDropped
        loc).publish loc
      Becomes (.ptTruncate n x) s
        ((t.modSes loc fun z => { z with depth := if z.st = .parked ∧ depthOf z.pages ≠ 0 then depthOf z.pages else z.depth }).ok k
          (BitVec.ofNat 64 (fieldAt x 16 4)) (BitVec.ofNat 32 cut.2))) ∧
    (s.dev.Ready 0x32 n x k e → chkKvDrop s.dev e.part x = stOk → d.tenantGone e.part y.keyId.toNat = false → y.st = .parked →
      (fieldAt x 16 1 = 1 → Becomes (.kvDrop n x) s (((d.dropAll loc).1.publish loc).ok k (BitVec.ofNat 64 (d.dropAll loc).2.1)
        (BitVec.ofNat 32 (d.dropAll loc).2.2))) ∧
      (fieldAt x 16 1 = 0 → fieldAt x 18 1 ≤ rangesOf y.positions → fieldAt x 17 1 ≤ h.layers →
        let gone := d.dropPages loc fun i =>
          decide (rangesOf y.positions - fieldAt x 18 1 ≤ h.rangeOf i) && decide (h.layerOf i < fieldAt x 17 1)
        Becomes (.kvDrop n x) s (((gone.1.recountDropped loc).publish loc).ok k (BitVec.ofNat 64 gone.2.1) (BitVec.ofNat 32 gone.2.2))))

/-- Yo-yo's own events: a parking session's writes start while fewer than 64 parks run, or it goes back to work that came (04 R92, R114); a
session parked at T2 starts on its way to T3 (R117); the oldest READY session below T1 of the active job starts its revival (R105); a page
whose sectors are in is decoded (R106); a recomputation's pages are taken, or the session is FAULTED without its history (R94, R109). -/
def Obligations.YoyoEventsTakeEffect : Prop :=
  ∀ (s : State) (loc : Nat), loc < 4194304 →
    let d := s.dev
    let y := d.ses loc
    (y.st = .parking → y.writing = [] → d.parksBusy < 64 →
      Becomes (.parkWritesStart loc) s (if y.wake then d.parkEnd loc else d.parkStart loc)) ∧
    (y.st = .parked → y.depth = 2 → d.getB (YOY_PARK_CFG_DEMOTE_S (d.sesPart loc)) ≠ 0 → y.writing = [] →
      Becomes (.demotionTimer loc) s
        ((d.modSes loc fun z => { z with parkTier := 3, parkPeat := d.defaultPeat (d.sesPart loc) }).parkStart loc)) ∧
    (d.nextRevival loc = true → d.revivalsBusy < 64 → Becomes (.revivalStart loc) s (d.reviveStart loc)) ∧
    (∀ page z, y.st = .reviving → y.fetching.contains page = true → tget y.pages page = some z → z.data ≠ [] →
      Becomes (.peatDecodeDone loc page) s (d.decodePage loc page)) ∧
    (∀ range depth pages ns ok, (Instr.recomputeJobDone loc range depth pages ns ok).wf = true →
      (y.st = .reviving ∨ (y.st = .resident ∧ y.heldStep = true)) →
      Becomes (.recomputeJobDone loc range depth pages ns ok) s
        (if ok then d.recomputed loc range depth pages ns else d.loseHistory loc stPoison))

/-! ### Token engine and arithmetic (09, 07) -/

/-- The token-engine opcodes take effect (09 R238, R250, R262): the token region is bound, its token state cleared, or let go; a job gets its
vocabulary; classes and profiles wait for their boundary; a list is read from the host; a set is defined; a list or a set is freed; a seed is
set and the old one answered. -/
def Obligations.TokenOpcodesTakeEffect : Prop :=
  ∀ (s : State) (n : Nat) (x : Desc) (k : Nat) (e : DescEntry), n < 4096 →
    let d := s.dev
    let p := e.part
    let h := BitVec.ofNat 64 (fieldAt x 16 8)
    (∀ r, d.Ready 0x50 n x k e → h ≠ 0 → d.regionStatus p h = stOk → d.region (hRegion h) = some r →
      r.fitsTok (d.getF (TUS_PART_COUNT p)) = true → (d.tokp p).bound = none → r.bound = false → r.isSealed = false →
      let z := List.replicate tileSize (0 : Byte)
      let t := (((d.modRegion (hRegion h) fun r => { r with bound := true }).moveFrames p 2 3 r.tiles).modTok p fun _ =>
        { bound := some (hRegion h) }).setReg (TOK_BIND p) h
      let t := (List.range (min 6 r.tiles)).foldl (fun t i => t.syncTok p i) t
      Becomes (.tokBind n x) s (((List.range (r.tiles - 6)).foldl (fun (t : Dev) i =>
        t.engineTileWith (hRegion h) (i + 6) z (crc64 z) (crc32c z)) t).ok k 0 0)) ∧
    (d.Ready 0x50 n x k e → h = 0 → (d.sesWhere p fun y => y.st != .free) = [] →
      let t := match (d.tokp p).bound with
        | some m => (((d.tokp p).lists.foldl (fun (t : Dev) (l : Nat × TokList) => t.modRegion l.2.region fun r => { r with bound := false })
            d).modRegion m fun r => { r with bound := false })
        | none => d
      let t := match (d.tokp p).bound with
        | some m => t.moveFrames p 3 2 (((d.tokp p).lists.foldl (fun (t : Dev) (l : Nat × TokList) => t.modRegion l.2.region fun r =>
            { r with bound := false }) d).region m |>.elim 0 fun r => r.tiles)
        | none => t
      Becomes (.tokBind n x) s (((t.modTok p fun _ => {}).setReg (TOK_BIND p) 0).ok k 0 0)) ∧
    (∀ r, d.Ready 0x51 n x k e → d.jobStatus p x.target = stOk → d.regionStatus p h = stOk → d.region (hRegion h) = some r →
      r.isSealed = true → r.homeTier = 1 → r.wback = false → (∀ t, t < r.tiles → (r.at t).bad = 0) → fieldAt x 24 8 ≤ tileSize * r.tiles →
      let j := d.job p (hSlot x.target)
      let bs := r.bytes.take (fieldAt x 24 8)
      let v := parseVocab bs
      j.st = .loaded → j.vocab = none → vocabFaults bs = [] → v.shards ≤ (j.sect.elim 0 fun c => c.shards) →
      (∀ c, c < 64 → j.hdr.classes.getLsbD c = true → ∀ q, tget (d.tokp p).cls c = some q → q.contextMax = 0 ∨ q.elision < v.tokens.length) →
      v.frames ≤ d.freeFrames p →
      Becomes (.vocabLoad n x) s (((d.moveFrames p 0 3 v.frames).modJob p (hSlot x.target) fun j => { j with vocab := some v }).ok k
        (BitVec.ofNat 64 v.tokens.length) 0)) ∧
    (d.Ready 0x52 n x k e → chkClassSet d p x = stOk → (d.tokp p).bound.isSome = true →
      Becomes (.classSet n x) s ((d.modTok p fun t => { t with newCls := t.newCls ++ [(fieldAt x 16 1,
        { contextMax := fieldAt x 20 4, appendMax := fieldAt x 24 4, headKeep := fieldAt x 28 4, tailKeep := fieldAt x 32 4,
          elision := fieldAt x 36 4 }, k)] }).wait k .boundary)) ∧
    (d.Ready 0x53 n x k e → chkProfileSet x = stOk → (d.tokp p).bound.isSome = true →
      Becomes (.profileSet n x) s ((d.modTok p fun t => { t with newProf := t.newProf ++ [(fieldAt x 16 2,
        { temp := BitVec.ofNat 32 (fieldAt x 20 4), topP := BitVec.ofNat 32 (fieldAt x 24 4), topK := fieldAt x 28 4,
          skip := (fieldAt x 32 1).testBit 0 }, k)] }).wait k .boundary)) ∧
    (d.Ready 0x54 n x k e → chkListLoad d p x = stOk → d.listStatus e = stOk →
      Becomes (.listLoad n x) s
        ((d.emitFor p (.hostRead p (BitVec.ofNat 64 (fieldAt x 24 8)) (fieldAt x 32 4))).wait k .hostRead)) ∧
    (d.Ready 0x55 n x k e → fieldAt x 16 2 ≤ 4095 → (∀ i, i < 3 → fieldAt x (18 + 2 * i) 2 ≤ 4095 ∨ fieldAt x (18 + 2 * i) 2 = 0xFFFF) →
      (d.tokp p).bound.isSome = true → tget (d.tokp p).sets (fieldAt x 16 2) = none →
      (∀ i, i < 3 → (d.tokp p).listOk (fieldAt x (18 + 2 * i) 2) i = true) →
      Becomes (.listsetDefine n x) s (((d.modTok p fun t =>
        { t with sets := tput t.sets (fieldAt x 16 2) (fieldAt x 18 2, fieldAt x 20 2, fieldAt x 22 2) }).syncTok p 0).ok k 0 0)) ∧
    (d.Ready 0x56 n x k e → fieldAt x 18 2 ≤ 4095 →
      (fieldAt x 16 1 = 0 → ((d.tokp p).sets.any fun y => y.2.1 == fieldAt x 18 2 || y.2.2.1 == fieldAt x 18 2 || y.2.2.2 == fieldAt x 18 2) = false →
        Becomes (.listFree n x) s ((((match tget (d.tokp p).lists (fieldAt x 18 2) with
          | some l => d.modRegion l.region fun r => { r with bound := false }
          | none => d).modTok p fun t => { t with lists := tdel t.lists (fieldAt x 18 2) }).syncTok p 1).ok k 0 0)) ∧
      (fieldAt x 16 1 = 1 → d.setArmed p (fieldAt x 18 2) = false →
        Becomes (.listFree n x) s (((d.modTok p fun t => { t with sets := tdel t.sets (fieldAt x 18 2) }).syncTok p 0).ok k 0 0))) ∧
    (d.Ready 0x57 n x k e → d.sessionStatus p x.target = stOk → (d.ses (hLocal x.target)).genArmed = false →
      (d.tokp p).bound.isSome = true →
      Becomes (.tokSeed n x) s (((d.modGen (hLocal x.target) fun r => { r with seed := h }).syncTok p (d.genTile (hLocal x.target))).ok k
        (d.genRec (hLocal x.target)).seed 0))

/-- Logits and shadow samples: a shard of an entry that samples is kept, and the last one chooses the token (09 R252); one job in
2^RATE_LOG2 becomes a shadow sample, its error is held against the threshold, and CONSEC errors over it in a row ask for the layer to rise
(07 R195, R197). -/
def Obligations.LogitsAndShadowSamplesAct : Prop :=
  ∀ (s : State),
    let d := s.dev
    (∀ loc shard z e v, loc < 4194304 → d.lenOf (d.sesPart loc) loc = some e → d.vocabOf (d.sesPart loc) (d.ses loc).cls = some v →
      d.phase (d.sesPart loc) = 0 → e.sample = true → e.held = false → e.tokens = [] → shard < v.shards →
      let e' : LenEntry := { e with shards := tput e.shards shard z }
      let t := d.modLen (d.sesPart loc) loc fun _ => e'
      Becomes (.logitsShardArrival loc shard z) s
        (if (List.range v.shards).all fun i => (tget e'.shards i).isSome then
          (t.vocabAccess.chooseToken loc v e').2.modLen (d.sesPart loc) loc fun y =>
            { y with tokens := [BitVec.ofNat 32 (t.vocabAccess.chooseToken loc v e').1] }
        else t)) ∧
    (∀ p layer core, p < 8 → core < 256 → d.getB (ARI_SHADOW_CFG_RATE_LOG2 p) ≠ 0 → (d.layer p layer).sampled = true →
      2 ^ d.getB (ARI_SHADOW_CFG_RATE_LOG2 p) ≤ (d.layer p layer).jobs →
      Becomes (.shadowSampleSelect p layer core) s (d.modLayer p layer fun y =>
        { y with jobs := y.jobs - 2 ^ d.getB (ARI_SHADOW_CFG_RATE_LOG2 p), shadow := y.shadow + 1 })) ∧
    (∀ p layer y ref, p < 8 → (d.layer p layer).shadow ≠ 0 →
      let worse := decide (shadowError y ref > d.threshold p (d.layer p layer))
      Answers (.shadowJobDone p layer y ref) s fun t =>
        t.dev.layer p layer = { d.layer p layer with
          shadow := (d.layer p layer).shadow - 1, samples := (d.layer p layer).samples + 1, err := shadowError y ref,
          run := if worse then (d.layer p layer).run + 1 else 0 } ∧
        (d.getL (ARI_SHADOW_MAX_ERROR p) < shadowError y ref → shadowError y ref < 2 ^ (ARI_SHADOW_MAX_ERROR p).w →
          t.dev.getL (ARI_SHADOW_MAX_ERROR p) = shadowError y ref) ∧
        { t.dev with ari := d.ari, live := d.live } = d) ∧
    (∀ p layer, p < 8 → d.getB (ARI_SHADOW_CFG_CONSEC p) ≤ (d.layer p layer).run → (d.layer p layer).level < (d.layer p layer).top →
      Becomes (.consecSamplesExceeded p layer) s ((d.modLayer p layer fun y => { y with run := 0 }).escalate p layer))

/-! ### Semaphores, jobs and placement (08) -/

/-- Semaphore groups and operations (08 R226–R229, R234): a group is created where it is asked for, or in the lowest free run; a quiet one is
destroyed; SEM_OP acts here or asks the group's home; another device's operation acts on a DOMAIN group homed here; its answer completes the
SEM_OP that asked. -/
def Obligations.SemaphoreCommandsTakeEffect : Prop :=
  ∀ (s : State) (n : Nat) (x : Desc) (k : Nat) (e : DescEntry), n < 4096 →
    let d := s.dev
    let sem := fieldAt x 16 2
    (∀ f, d.Ready 0x43 n x k e → chkSemCreate d e.part x = stOk →
      ((sem = 0xFFFF ∧ d.freeSems e.part (fieldAt x 18 1) = some f) ∨ (sem = f ∧ f ≠ 0xFFFF ∧ d.runFree e.part f (fieldAt x 18 1) = true)) →
      let g : SemGroup := { part := e.part, first := f, count := fieldAt x 18 1, total := fieldAt x 18 1 * fieldAt x 20 4, home := d.id }
      Becomes (.semGroupCreate n x) s
        ((d.newGroup f g (List.replicate (fieldAt x 18 1) (fieldAt x 20 4))).ok k (BitVec.ofNat 64 f) 0)) ∧
    (∀ g, d.Ready 0x44 n x k e → d.semOwned e.part sem = true → tget d.plc.group sem = some g → g.job = none →
      (∀ i, i < g.count → (d.sem (sem + i)).held = [] ∧ (d.sem (sem + i)).queue = []) →
      Becomes (.semGroupDestroy n x) s ((d.endGroup sem g).ok k 0 0)) ∧
    (d.Ready 0x45 n x k e → chkSemOp d e.part x = stOk →
      Becomes (.semOp n x) s (match semHome d x with
        | none => d.semApply sem (fieldAt x 20 1) { who := .ring n, id := k, n := fieldAt x 24 4 } ((fieldAt x 21 1).testBit 0)
        | some h => (d.emit (.ctrl h (.semOp
            { dev := d.id, part := e.part, sem := sem, op := fieldAt x 20 1, n := fieldAt x 24 4, try_ := (fieldAt x 21 1).testBit 0,
              tag := BitVec.ofNat 32 k, value := 0, applied := false, lost := false }))).wait k (.semaphore sem))) ∧
    (∀ (m : SemMsg) f g, d.groupOf m.sem = some (f, g) → g.domain = true → g.home = d.id → g.part = m.part →
      Becomes (.semaphoreOperation m) s
        (d.semApply m.sem m.op { who := .remote m.dev m.part, id := m.tag.toNat, n := m.n } m.try_)) ∧
    (∀ (m : SemMsg) y w, tget d.rng.descs m.tag.toNat = some y → y.op = 0x45 → y.st = .waiting (.semaphore w) → semHome d y.d = some m.dev →
      m.lost = false → (m.op ≠ 2 ∨ m.applied = true) →
      Becomes (.semaphoreReply m) s
        ((if m.applied && m.op != 3 then d.noteRemote y.ring m.dev m.sem (fieldAt y.d 24 4) (m.op == 1) else d).ok m.tag.toNat
          (BitVec.ofNat 64 m.value) (if m.applied then 1 else 0)))

/-- An ACQUIRE that finds its tokens and no queue takes them for its holder; one that does not, and may wait, joins the end of the queue and
moves no token; a RELEASE of tokens that the holder holds of the semaphore, with nobody waiting, gives them back (08 R227, R228). -/
def Obligations.SemaphoreTokensMove : Prop :=
  ∀ (d : Dev) (sem : Nat) (w : SemWait) (t : Bool),
    let x := d.sem sem
    (x.queue = [] → w.n ≤ x.value →
      ((d.semApply sem 1 w t).sem sem).value = x.value - w.n ∧
      ((d.semApply sem 1 w t).sem sem).heldBy w.who = x.heldBy w.who + w.n ∧
      ∀ o, o ≠ sem → (d.semApply sem 1 w t).sem o = d.sem o) ∧
    (x.queue ≠ [] ∨ x.value < w.n → (d.semApply sem 1 w false).sem sem = { x with queue := x.queue ++ [w] } ∧
      ∀ o, o ≠ sem → (d.semApply sem 1 w false).sem o = d.sem o) ∧
    (∀ f g, d.groupOf sem = some (f, g) → f ≤ sem → sem < f + g.count → x.queue = [] → w.n ≤ x.heldBy w.who →
      ((d.semApply sem 2 w t).sem sem).value = x.value + w.n ∧
      ((d.semApply sem 2 w t).sem sem).heldBy w.who = x.heldBy w.who - w.n)

/-- Images, switches, the layer window and the cores (08 R208, R212, R218, R234; 05 R140): an image is read; a switch to a loaded job asks the
job's other devices, or waits for its boundary; a job without sessions leaves its slot empty; a finished layer's slot asks for the next one,
and holds it once its tiles are in; a finished tile job counts and does its work. -/
def Obligations.PlacementCommandsTakeEffect : Prop :=
  ∀ (s : State) (n : Nat) (x : Desc) (k : Nat) (e : DescEntry), n < 4096 →
    let d := s.dev
    let p := e.part
    let i := hSlot x.target
    let j := d.job p i
    (d.Ready 0x40 n x k e → fieldAt x 16 8 % 4096 = 0 → 256 ≤ fieldAt x 24 8 → fieldAt x 24 8 ≤ 268435456 →
      Becomes (.imageLoad n x) s
        ((d.emitFor p (.hostRead p (BitVec.ofNat 64 (fieldAt x 16 8)) (fieldAt x 24 8))).wait k .hostRead)) ∧
    (d.Ready 0x41 n x k e → d.jobStatus p x.target = stOk → tget d.plc.switch p = none → j.ended = false →
      (∀ a, d.activeJob p = some a → d.rootOf a = true) → (d.activeJob p = none → d.rootOf j = true) →
      ((fieldAt x 16 1).testBit 0 = true → j.st = .active →
        Becomes (.jobSwitch n x) s (((d.setSwitch p { desc := some k, job := none }).acceptSwitch p none).wait k .switch)) ∧
      ((fieldAt x 16 1).testBit 0 = false → j.st = .loaded → j.vocab.isSome = true →
        let t := ((d.others j).foldl (fun (t : Dev) y => t.emit (.ctrl y.2 (.probe p (.job j.full)))) d).setSwitch p
          { desc := some k, job := some i, asked := (d.others j).map fun y => y.1 }
        Becomes (.jobSwitch n x) s
          (if (d.others j).isEmpty then (t.wait k .switch).acceptSwitch p (some i) else t.wait k .switch))) ∧
    (d.Ready 0x42 n x k e → d.jobStatus p x.target = stOk → j.st = .loaded → j.waiters = [] →
      (∀ l y, (l, y) ∈ d.tus.slot → d.locOwner l = some p → y.st = .free ∨ j.hdr.classes.getLsbD y.cls = false) →
      let t := d.dropParked p i
      let g := fun (f : Frames) => { f with freeMeta := f.freeMeta + j.vocab.elim 0 fun v => v.frames }
      let t := { t with tier := { t.tier with frames := tmod t.tier.frames p {} g } }
      Becomes (.jobUnload n x) s ((t.setJob p i { gen := j.gen }).ok k 0 0)) ∧
    (∀ q l a c, q < 8 → d.activeJob q = some a → a.sect = some c → d.phase q = 0 → l < a.hdr.layers →
      (a.hdr.w < a.hdr.layers → ((d.stallAt q (l + 1)).window q).holds.any (fun y => y.1 == l % a.hdr.w && y.2 == l) = true →
        let next := (l + a.hdr.w) % a.hdr.layers
        let t := ((d.stallAt q (l + 1)).dropLayer c l).modWindow q fun w => { w with holds := tdel w.holds (l % a.hdr.w) }
        Becomes (.layerFinished q l) s (if (t.deepWeights c next).isEmpty
          then t.modWindow q fun w => { w with holds := tput w.holds (l % a.hdr.w) next }
          else (t.modWindow q fun w => { w with wanted := w.wanted ++ [(l % a.hdr.w, next)] }).windowAsk q)) ∧
      (a.hdr.w = a.hdr.layers → Becomes (.layerFinished q l) s (d.stallAt q (l + 1)))) ∧
    (∀ q slot c y, q < 8 → ((d.activeJob q).bind fun j => j.sect) = some c → (d.window q).asked.find? (fun y => y.1 == slot) = some y →
      d.layerPresent c y.2 = true →
      Becomes (.windowSlotFilled q slot) s ((d.modWindow q fun w =>
        { w with holds := tput w.holds slot y.2, wanted := w.wanted.filter (· != y), asked := w.asked.filter (· != y) }).switchDone q)) ∧
    (∀ c q, c < 256 → d.corePart c = some q →
      let t := d.modCore c fun y => { y with jobs := y.jobs + 1 }
      Becomes (.coreTileJobDone c .background) s (t.satL (PLC_CORE_BG_JOBS q) 1) ∧
      (∀ sem op m f g, t.groupOf sem = some (f, g) → g.part = q →
        Becomes (.coreTileJobDone c (.semOp sem op m)) s (t.semApply sem op { who := .core c, id := c, n := m } false)) ∧
      (∀ loc, d.locOwner loc = some q →
        (∀ page, Becomes (.coreTileJobDone c (.damaged loc page)) s (t.pageDamaged c loc page)) ∧
        (∀ l, Becomes (.coreTileJobDone c (.nonfinite loc l)) s (t.nonfinite c loc l)) ∧
        (∀ l g f r, Becomes (.coreTileJobDone c (.scatter loc l g f r)) s (t.scatter loc l g f r)) ∧
        (∀ l h ch qs own, Becomes (.coreTileJobDone c (.attention loc l h ch qs own)) s (t.attention c loc l h ch qs own))) ∧
      (∀ l loads wf af w a o r ac m es en mode, modeOf wf af = some mode →
        Becomes (.coreTileJobDone c (.product l loads wf af w a o r ac m es en)) s
          ((loads.foldl (fun (t : Dev) y => t.loadSlot q c y.1 y.2.1 y.2.2) t).runProduct q c l mode w a o wf af r ac m es en)))

/-! ### Reed (10) -/

/-- The index opcodes and Reed's events (10 R271–R288): an index takes the lowest free number and binds its regions, a catalogue reading its
codebook; it is destroyed once nothing uses it; mutations read their records and IDs; a query waits for a reed and pages and is read at the
index's epoch; a merge starts, renews the catalogue and commits at a new epoch; INDEX_STAT answers epoch, live and waiting entries. -/
def Obligations.ReedCommandsTakeEffect : Prop :=
  ∀ (s : State) (n : Nat) (x : Desc) (k : Nat) (e : DescEntry), n < 4096 →
    let d := s.dev
    let p := e.part
    let i := hLocal x.target
    (∀ j nums, d.Ready 0x60 n x k e → chkIndexCreate d p x = stOk →
      (tgetD d.red.numbers p {}).take (d.getF (RED_PART_FIRST p)) (d.getF (RED_PART_COUNT p)) = some (j, nums) →
      let g := nextGen (tgetD d.red.gens j 0) 0x7FFFFFF
      let y := indexOf g p x
      let t := ({ d with
        red := { d.red with index := tput d.red.index j y, numbers := tput d.red.numbers p nums, gens := tput d.red.gens j g } } : Dev)
      let t := t.bindReed y true
      Becomes (.indexCreate n x) s
        (if y.memory then (t.reedSync j [0] []).ok k (mkHandle t.id p g j) 0
         else
          let u := t.emitFor p (.hostRead p (BitVec.ofNat 64 (fieldAt x 32 8)) (512 * y.dim))
          (u.modDesc k fun z => { z with result := mkHandle u.id p g j }).wait k .hostRead)) ∧
    (∀ y, d.Ready 0x61 n x k e → d.indexStatus p x.target = stOk → d.index i = some y → y.names = 0 →
      Becomes (.indexDestroy n x) s (((d.modIndex i fun z => { z with dying := true }).wait k (.indexDown i)).reedSettle i)) ∧
    (∀ y, d.index i = some y →
      (d.Ready 0x62 n x k e → chkMutation d p x 32 4096 = stOk → Becomes (.vecInsert n x) s
        ((d.emitFor p (.hostRead p (BitVec.ofNat 64 (fieldAt x 16 8)) (fieldAt x 32 4 * y.insertBytes))).wait k (.mutation i))) ∧
      (d.Ready 0x63 n x k e → chkMutation d p x 24 65536 = stOk → Becomes (.vecDelete n x) s
        ((d.emitFor p (.hostRead p (BitVec.ofNat 64 (fieldAt x 16 8)) (4 * fieldAt x 24 4))).wait k (.mutation i))) ∧
      (d.Ready 0x65 n x k e → d.indexStatus p x.target = stOk →
        let last := (y.side.map fun z => z.2.1).foldl max 0
        Becomes (.indexMerge n x) s (((if y.mergeAt.any (fun z => decide (last ≤ z)) then d
          else d.modIndex i fun z => { z with requested := true }).setResult k last).wait k (.merge i))) ∧
      (d.Ready 0x66 n x k e → d.indexStatus p x.target = stOk →
        Becomes (.indexStat n x) s (d.ok k
          (BitVec.ofNat 64 (y.epoch + (y.entries.filter fun z => z.2.dead == noEpoch).length * 2 ^ 32))
          (BitVec.ofNat 32 y.waitingSide.length)))) ∧
    (∀ y, d.Ready 0x64 n x k e → chkVecQuery d p x = stOk → d.index (d.queryIndex x) = some y →
      y.pages (fieldAt x 34 2) (fieldAt x 36 2) (fieldAt x 38 2) ≤ d.getF (RED_QUOTA_PAGES p) →
      Becomes (.vecQuery n x) s ((d.wait k (.query (d.queryIndex x))).showReed p)) ∧
    (∀ q m ms z y, q < 8 → d.queryWaits q = m :: ms → tget d.rng.descs m = some z → d.index (d.queryIndex z.d) = some y →
      let pages := y.pages (fieldAt z.d 34 2) (fieldAt z.d 36 2) (fieldAt z.d 38 2)
      let qs := d.red.query.filter fun w => w.part == q
      qs.length < d.getF (RED_QUOTA_REEDS q) → (qs.map fun w => w.pages).sum + pages ≤ d.getF (RED_QUOTA_PAGES q) →
      d.mutationBefore (d.queryIndex z.d) m = false →
      let t := ({ d with red := { d.red with
        query := d.red.query ++ [{ desc := m, part := q, index := d.queryIndex z.d, snap := y.epoch, pages := pages }] } } : Dev)
      let t := (t.move 5 (1 + q) 0 1 pages (some q)).emitFor q (.hostRead q (BitVec.ofNat 64 (fieldAt z.d 16 8))
        (2 * y.dim + (if y.memory then y.bits / 8 else 0)))
      Becomes (.queryReedAssign q) s (((t.wait m .hostRead).showReed q).reedGo (d.queryIndex z.d))) ∧
    (∀ j y, j < 4194304 → d.index j = some y →
      (y.requested = true → y.mergeAt = none → d.mergesBusy < 8 →
        (d.red.query.any fun q => q.index == j && decide (q.snap < y.lastCommit)) = false →
        Becomes (.mergeStart j) s ((d.modIndex j fun z =>
          { z with requested := false, mergeAt := some z.epoch, entries := z.listed.foldl (fun t i => tdel t i) z.entries,
                   free := (z.free ++ z.listed).mergeSort (· ≤ ·), side := z.side.filter (fun w => !z.listedSide.contains w),
                   listed := [], listedSide := [] }).showReed y.part)) ∧
      (∀ at_, y.mergeAt = some at_ → d.reedBad y.region (List.range y.tileCount) = stOk → y.epoch + 1 < noEpoch →
        let new := (y.merged at_).1
        let touched := new.entries.filter fun (z : Nat × Entry) => y.entryOf z.1 != z.2
        let t := ((d.modIndex j fun _ => new).reedSync j (([0] ++ touched.map fun (z : Nat × Entry) => y.nodeTile z.1).eraseDups)
          []).incF RED_STATS_MERGES
        Becomes (.mergeCommit j) s ((((d.mergeWaits j at_).foldl (fun t m => t.ok m (BitVec.ofNat 64 new.epoch)
          (BitVec.ofNat 32 (y.merged at_).2)) t).showReed y.part).reedSettle j)))

/-! ### Sluice (12) -/

/-- Sluice's commands (12 R324, R330, R332–R334, R337, R339, R340): a shaper is set with its bucket full or empty, answering the tokens it
held; it is cleared, releasing what it held; a policer is set or cleared; a shaper's head is judged again; depths are sampled; windows close and
new settings apply. -/
def Obligations.SluiceCommandsTakeEffect : Prop :=
  ∀ (s : State) (n : Nat) (x : Desc) (k : Nat) (e : DescEntry), n < 4096 →
    let d := s.dev
    let j := fieldAt x 16 2
    (d.Ready 0x80 n x k e → chkShaperSet d e.part x = stOk → d.overlaps e.part j (fieldAt x 18 1) (BitVec.ofNat 8 (fieldAt x 19 1)) = false →
      let egress := fieldAt x 18 1
      let classes := BitVec.ofNat 8 (fieldAt x 19 1)
      let t := if (tget d.slu.shaper j).any (fun y => y.egress != egress || y.classes != classes) then (d.clearShaper j).1 else d
      let old := (tget t.slu.shaper j).map fun y => y.refill t.clock.now
      let new : Shaper :=
        { part := e.part, egress := egress, classes := classes, rate := fieldAt x 20 4, burst := fieldAt x 24 4,
          tokens := if fieldAt x 28 1 = 0 then (fieldAt x 24 4 * 65536 : Nat) else 0, at_ := t.clock.now, held := old.elim [] fun y => y.held }
      Becomes (.shaperSet n x) s (((t.setShaper j new).judge j).ok k (BitVec.ofInt 64 (old.elim 0 fun y => y.tokens / 65536)) 0)) ∧
    (∀ y, d.Ready 0x81 n x k e → j < 16384 → d.shaperOwned e.part j = true → tget d.slu.shaper j = some y →
      Becomes (.shaperClear n x) s ((y.held.foldl (fun (t : Dev) h => t.shape h.tag)
        { d with slu := { d.slu with shaper := tdel d.slu.shaper j } }).ok k 0 (BitVec.ofNat 32 y.held.length))) ∧
    (d.Ready 0x81 n x k e → j < 16384 → d.shaperOwned e.part j = true → tget d.slu.shaper j = none →
      Becomes (.shaperClear n x) s (d.ok k 0 0)) ∧
    (d.Ready 0x82 n x k e → chkPolicerSet d e.part x = stOk →
      let full := fieldAt x 36 1 = 0
      let new : Policer :=
        { descRate := fieldAt x 20 4, descBurst := fieldAt x 24 4, byteRate := fieldAt x 28 4, byteBurst := fieldAt x 32 4,
          descTok := if full then fieldAt x 24 4 * descToken else 0, byteTok := if full then fieldAt x 32 4 * byteToken else 0,
          at_ := d.clock.now }
      let held := ((tget d.slu.policer j).map fun q => q.refill d.clock.now).elim 0 fun q =>
        if q.byteRate = 0 then q.descTok / descToken else q.byteTok / byteToken
      Becomes (.policerSet n x) s
        (Dev.ok { d with slu := { d.slu with policer := tput d.slu.policer j new } } k (BitVec.ofNat 64 held) 0)) ∧
    (d.Ready 0x83 n x k e → j < 4096 → d.policerOwned e.part j = true →
      Becomes (.policerClear n x) s (Dev.ok { d with slu := { d.slu with policer := tdel d.slu.policer j } } k 0 0)) ∧
    (∀ m y, m < 16384 → tget d.slu.shaper m = some y →
      Becomes (.shaperEligible m) s ((d.setShaper m (y.refill d.clock.now)).drainShaper (y.held.length + 1) m)) ∧
    Becomes .depthSample s (d.queues.foldl (fun t q => t.sampleDepth q (t.queued q)) d) ∧
    (let t := d.queues.foldl (fun (t : Dev) q => t.closeWindow q) d
     Becomes .sluiceWindowClose s
       { t with slu := { t.slu with sample := t.reg SLU_SAMPLE_CFG, binset := (List.range 8).map fun m => (m, t.reg (SLU_BINSET m)) } })

/-- A policer decides by its refilled buckets: a descriptor conforms where a whole descriptor token is there, and its bytes' tokens where
bytes are policed, and takes them; another takes none (12 R325, R326). -/
def Obligations.PolicersTakeTokensOrNone : Prop :=
  ∀ (q : Policer) (now : U64) (bytes : Nat),
    let r := q.refill now
    let t := q.decide now bytes
    (t.1 = true ↔ descToken ≤ r.descTok ∧ (q.byteRate = 0 ∨ bytes * byteToken ≤ r.byteTok)) ∧
    (t.1 = true → t.2.descTok + descToken = r.descTok ∧
      (q.byteRate ≠ 0 → t.2.byteTok + bytes * byteToken = r.byteTok)) ∧
    (t.1 = false → t.2 = r) ∧
    r.descTok ≤ q.descBurst * descToken ∧ r.byteTok ≤ q.byteBurst * byteToken ∧ t.2.at_ = now

/-! ### Frames and ports of the fabric (11, 13) -/

/-- What frames of each type do at their destination once they are opened (11 R297, R298, R308): a READ that its home admits is answered
with the bytes of the memory lent, a WRITE is stored and acknowledged, data and acknowledgements reach the request that they answer, a TILE
goes into the core slot that it names; an ERROR refuses the request, or ends the offer, that its TAG names. A frame for another device goes on. -/
def Obligations.FramesAreServed : Prop :=
  ∀ (s : State) (f : Frame), f.wf = true → f.chan < 36 →
    let here := fun (type : Byte) (d : Dev) (g : Frame) => f.dst = s.dev.id ∧ s.dev.openFrame { f with type := type } = (d, some g)
    let pages := fun (g : Frame) (n : Nat) => pagesOf (poolOffset g.addr) n
    (∀ d g, here 0x01 d g → d.homeStatus g false (leAt g.payload 0 8) = stOk →
      ((pages g (leAt g.payload 0 8)).any fun a => (d.dirOf (poolSpace g.addr) a).st == .frozen) = false →
      Becomes (.read f) s (if poolSpace g.addr = 0
        then d.sendFrame (Frame.part g) (d.answerTo g 0x02 0 (memReadL s.mem (poolOffset g.addr) (leAt g.payload 0 8)))
        else d.request ((Frame.part g).getD 0) (.peer g) g.addr (leAt g.payload 0 8) none)) ∧
    (∀ d g, here 0x03 d g → d.homeStatus g true g.payload.length = stOk →
      exec (.write f) s = .next (if poolSpace g.addr = 0
        then { s with dev := (d.rewritten g).sendFrame (Frame.part g) (d.answerTo g 0x04 0 []),
                      mem := memWriteL s.mem (poolOffset g.addr) g.payload }
        else { s with dev := d.request ((Frame.part g).getD 0) (.peer g) g.addr g.payload.length (some g.payload) })) ∧
    (∀ d g, here 0x02 d g → d.answers g false = true → Becomes (.readData f) s (d.respond g.tag.toNat (.ok g.payload))) ∧
    (∀ d g, here 0x04 d g → d.answers g true = true → Becomes (.writeAck f) s (d.respond g.tag.toNat (.ok []))) ∧
    (∀ d g p, here 0x05 d g → Frame.part g = some p →
      let at_ := Config.tileSlot g.addr
      Becomes (.tile f) s (if at_.1 < 256 ∧ at_.2 < 48 ∧ d.corePart at_.1 = some p
        then d.modCore at_.1 fun c => { c with slots := tput c.slots at_.2 g.payload }
        else d.refuseFrame g stDenied none)) ∧
    (∀ d g e, here 0x0F d g → s.dev.offerTag f.tag = none → ((d.req g.tag.toNat).any fun r => r.home == g.src) = true →
      Becomes (.errorResponse f e) s (d.refusal g.tag.toNat g.status e)) ∧
    (∀ t e, f.dst = s.dev.id → s.dev.offerTag f.tag = some t → t.msg.dst = f.src → Becomes (.errorResponse f e) s (s.dev.sendAbort t.msg)) ∧
    (f.dst ≠ s.dev.id →
      Becomes (.read f) s (s.dev.forward { f with type := 0x01 } 0) ∧ Becomes (.readData f) s (s.dev.forward { f with type := 0x02 } 0) ∧
      Becomes (.write f) s (s.dev.forward { f with type := 0x03 } 0) ∧ Becomes (.writeAck f) s (s.dev.forward { f with type := 0x04 } 0) ∧
      Becomes (.tile f) s (s.dev.forward { f with type := 0x05 } 0) ∧
      ∀ e, Becomes (.errorResponse f e) s (s.dev.forward { f with type := 0x0F } 0))

/-- Requests that the appliance answers, that wait too long, or whose maps are stale for the third time reach what they serve (11 R298, R309,
R310); numbers that run out raise NONCE_LOW once, and NONCE_EXHAUSTED with an end to what could not be sent (13 R352). -/
def Obligations.RequestsEnd : Prop :=
  ∀ (s : State),
    let d := s.dev
    (∀ (tag : U32) (r : Req) (f : Frame) poison data, d.req tag.toNat = some r → r.purpose = .peer f →
      Becomes (.cxlMemResponse tag poison data) s (d.respond tag.toNat (if poison then .error stPoison else .ok data))) ∧
    (∀ (tag : U32) (r : Req), d.req tag.toNat = some r → 3 ≤ r.refusals →
      Becomes (.staleMapRetryLimit tag) s (d.respond tag.toNat (.error stStale))) ∧
    (∀ (tag : U32) (r : Req), d.req tag.toNat = some r → (∀ f, r.purpose ≠ .peer f) →
      Becomes (.requestTimeout tag) s ((d.raise (some r.part) 0x0A16 r.addr 2 r.purpose.master).respond tag.toNat (.error stPeer))) ∧
    (∀ p (keyId gen : U16), p < 8 →
      let part := if keyId = 0 then none else some p
      let n := tgetD d.fab.nonce (nonceIndex (chanSet part) keyId.toNat gen.toNat) 0
      (nonceLimit ≤ n →
        let t := (d.flag SEC_STATUS_NONCE_EXHAUSTED SEC_EVENTS_NONCE_EX_COUNT).raiseOpen part 0x0C14 0x106
        Becomes (.nonceThreshold p keyId gen) s ((tkeys t.fab.req fun _ r => r.stuck && (part.isNone || part == some r.part)).foldl
          (fun t i => t.respond i (.error stTenant)) t)) ∧
      (2 ^ 38 ≤ n → n < nonceLimit → d.fab.nonceLow.contains (nonceIndex (chanSet part) keyId.toNat gen.toNat) = false →
        Becomes (.nonceThreshold p keyId gen) s (({ d with fab := { d.fab with
          nonceLow := nonceIndex (chanSet part) keyId.toNat gen.toNat :: d.fab.nonceLow } } : Dev).raiseOpen part 0x0C13 0x106)))

/-- DXL ports (11 R294, R295, R300, R303): a good flit in order moves the number received on, its ACK and credits are taken and its frame goes on
to its channel; a flit with a wrong CRC asks for a repeat; a NAK repeats from the SEQ it names; eight of one SEQ retrain the port, which then
repeats what it holds; a port that finds a peer of its family comes UP with the width that its pairs give. -/
def Obligations.PortsTakeFlits : Prop :=
  ∀ (s : State) (n : Nat), n < 32 →
    let d := s.dev
    let x := d.port n
    (∀ bits : BitVec 2048,
      let b := leBytes 256 bits.toNat
      d.portUp n = true →
      (d.flitGood n b = true → flitType b = 1 → BitVec.ofNat 12 (leAt b 0 2) = x.rxSeq + 1 →
        let t := (d.setPort n { x with rxSeq := x.rxSeq + 1, unacked := x.unacked + 1 }).flitLink n b
        let r := (if (t.port n).unacked ≥ 64 then t.sendIdle n 0 0 0 else t).assemble s.mem n b
        exec (.dataFlit n bits) s = .next { s with dev := r.1, mem := applyWrites s.mem r.2 }) ∧
      (d.flitGood n b = true → flitType b = 0 → Becomes (.idleFlit n bits) s (d.flitLink n b)) ∧
      (d.flitGood n b = false → Becomes (.dataFlit n bits) s (d.badFlit n) ∧ Becomes (.idleFlit n bits) s (d.badFlit n))) ∧
    (∀ seq : BitVec 12, d.portUp n = true →
      let rest := if x.replay.any (fun f => f.1 == seq) then x.replay.dropWhile (fun f => f.1 != seq) else x.replay
      Becomes (.nak n seq) s (((d.setPort n { x with
        replay := rest, nakSeq := seq, nakRun := if x.nakSeq = seq ∧ x.nakRun > 0 then x.nakRun + 1 else 1 }).replayFrom n rest).pump n)) ∧
    (d.portUp n = true → 0 < x.unacked → Becomes (.ackTimer n) s ((d.setPort n { x with unacked := 0 }).emit
      (.flit n (mkFlit 0 0 x.rxSeq 0 0 false 0 0 0 [])))) ∧
    (d.portUp n = true → 8 ≤ x.nakRun → Becomes (.portRetrainStart n) s
      (((d.setPort n { x with nakRun := 0 }).setF (FAB_PORT_STATE n) 4).incF (FAB_PORT_CNT_RETRAINS n))) ∧
    (d.getF (FAB_PORT_STATE n) = 4 →
      Becomes (.portRetrainDone n true) s (((d.setF (FAB_PORT_STATE n) 3).replayFrom n x.replay).pump n) ∧
      Becomes (.portRetrainDone n false) s (d.retrainFailed n)) ∧
    (∀ r : Training, n / 8 < d.getF GLB_ASSEMBLY_L_DIES → d.portUp n = false → r.family = 0x07 →
      let pairs := r.pairs &&& ~~~(d.markedPairs n)
      trainedWidth pairs ≠ 0 →
      Answers (.portTrainingDone n r) s fun t => t.dev.portUp n = true ∧ t.dev.getF (FAB_PORT_WIDTH n) = trainedWidth pairs ∧
        t.dev.getF (FAB_PORT_PAIRS n) = pairs.toNat ∧ t.dev.getF (FAB_PORT_PEER_DEVICE n) = r.peerDev % 4096 ∧
        t.dev.getF (FAB_PORT_PEER_PORT n) = r.peerPort % 32 ∧ t.mem = s.mem)

/-! ### The memory pool (11) -/

/-- Extents are granted, returned and revoked, and maps follow (11 R308, R309, R314, R321): a home grants the lowest free run under the next
epoch, frees an extent whose pages are all the grantee's, fences one that it revokes until every device has answered or 10 ms are over; a device
told of a revocation fails its requests and answers; an entry of a home goes into the map, one without pages goes out of it. -/
def Obligations.ExtentCommandsTakeEffect : Prop :=
  ∀ (s : State) (n : Nat) (x : Desc) (k : Nat) (e : DescEntry), n < 4096 →
    let d := s.dev
    (d.Ready 0x70 n x k e → chkExtentRequest d e.part x = stOk →
      let fl := fieldAt x 19 1
      let w := if fl.testBit 1 then some (fieldAt x 25 1) else none
      (w.any fun w => (tget d.fab.window (16 * e.part + w)).isSome) = false →
      (∀ t h cls, fieldAt x 16 2 % 4096 = d.id →
        d.grant d.id e.part (fieldAt x 18 1) (fieldAt x 20 4) (fieldAt x 24 1) (fl.testBit 0) (fl.testBit 2) w = .ok (t, h, cls) →
        exec (.extentRequest n x) s = .next (s.onHome fun _ => (w.elim t fun w => t.mapWindow e.part w h).ok k h (BitVec.ofNat 32 cls))) ∧
      (fieldAt x 16 2 % 4096 ≠ d.id →
        exec (.extentRequest n x) s = .next (s.onHome fun d =>
          d.askHome k e.part (poolAddr (fieldAt x 16 2 % 4096) (fieldAt x 18 1) 0) (.extent 0) fun tag =>
            .extentRequest e.part (fieldAt x 18 1) (fieldAt x 20 4) (fieldAt x 24 1) (fl.testBit 0) (fl.testBit 2) w tag))) ∧
    (d.Ready 0x71 n x k e → d.extentStatus e.part x.target = stOk → (d.takenPages x.target).isEmpty = true →
      (∀ y, hExtHome x.target = d.id → tget d.fab.extent (hExtNum x.target) = some y →
        (∀ z ∈ d.dirIn y, z.2.st = .owned ∧ z.2.dev = y.dev ∧ z.2.part = y.owner) →
        exec (.extentReturn n x) s = .next (s.onHome fun d =>
          (d.raiseEpoch.freeExtent (hExtNum x.target) y).ok k 0 (BitVec.ofNat 32 y.pages))) ∧
      (hExtHome x.target ≠ d.id →
        exec (.extentReturn n x) s = .next (s.onHome fun d =>
          d.askHome k e.part x.target (.extent x.target) fun tag => .extentReturn x.target tag))) ∧
    (∀ y, d.Ready 0x72 n x k e → hExtHome x.target = d.id → tget d.fab.extent (hExtNum x.target) = some y → y.gen = hExtGen x.target →
      exec (.extentRevoke n x) s = .next (s.onHome fun d =>
        (d.wait k (.extent x.target)).revoke (hExtNum x.target) y (some k))) ∧
    (∀ home h, home < 4096 → hExtHome h = home →
      Becomes (.revoke home h) s ((d.failExtent h).emit (.ctrl home (.revokeAck h)))) ∧
    (∀ dev h r, dev < 4096 → tget d.fab.revoke h.toNat = some r → dev ∈ r.waiting →
      let y := { r with waiting := r.waiting.filter (· != dev), acked := r.acked + 1 }
      let t := { d with fab := { d.fab with revoke := tput d.fab.revoke h.toNat y } }
      exec (.revokeAck dev h) s = .next (s.onHome fun _ => if y.waiting.isEmpty then t.endRevoke h else t)) ∧
    (∀ h r y, tget d.fab.revoke h.toNat = some r → tget d.fab.extent (hExtNum h) = some y →
      exec (.revokeAckTimeout h) s = .next (s.onHome fun d =>
        r.descs.foldl (fun t k => t.ok k (BitVec.ofNat 64 r.acked) (BitVec.ofNat 32 r.waiting.length))
          (({ d with fab := { d.fab with revoke := tdel d.fab.revoke h.toNat } } : Dev).freeExtent (hExtNum h) y))) ∧
    (∀ home i, home < 4096 → hExtHome i.handle = home →
      (i.pages = 0 → (tkeys d.rng.descs fun _ z => z.op == 0x71 && z.st == .waiting (.extent i.handle)) = [] →
        Becomes (.mapUpdate home i) s { d with fab := { d.fab with map := tdel d.fab.map i.handle.toNat,
                                                                   taken := tdel d.fab.taken i.handle.toNat,
                                                                   window := d.fab.window.filter fun z => z.2.extent != i.handle } }) ∧
      (i.pages ≠ 0 → d.grantedTo home i = none → Becomes (.mapUpdate home i) s (d.noteExtent i)) ∧
      (∀ k e, i.pages ≠ 0 → d.grantedTo home i = some k → tget d.rng.descs k = some e → (fieldAt e.d 19 1).testBit 1 = false →
        Becomes (.mapUpdate home i) s (((d.noteExtent i).endAsk k).ok k i.handle (BitVec.ofNat 32 i.cls))))

/-- The pool's pages, host windows and appliances (11 R310, R312, R313, R321): pages are written from the host and read to it; a window is
flushed; a line access goes to its page's home and a write is noted in the window's bitmap; a lost host's pages are reported to their homes, which
poison them; capacity of an appliance joins its space, and leaves it with its extents revoked. -/
def Obligations.PoolCommandsTakeEffect : Prop :=
  ∀ (s : State) (n : Nat) (x : Desc) (k : Nat) (e : DescEntry), n < 4096 →
    let d := s.dev
    (d.Ready 0x74 n x k e → chkPoolPage d e.part x = stOk →
      Becomes (.poolPageWrite n x) s ((d.emitFor e.part (.hostRead e.part (BitVec.ofNat 64 (fieldAt x 16 8))
        (pageBytes * fieldAt x 32 4))).wait k .hostRead)) ∧
    (d.Ready 0x75 n x k e → chkPoolPage d e.part x = stOk → Becomes (.poolPageRead n x) s (d.poolPages k e none)) ∧
    (d.Ready 0x73 n x k e → fieldAt x 16 1 ≤ 15 →
      let w := fieldAt x 16 1
      (tget d.fab.window (16 * e.part + w) = none → Becomes (.poolFlush n x) s (d.ok k 0 0)) ∧
      (∀ v, tget d.fab.window (16 * e.part + w) = some v → (d.extentInfo v.extent).any (fun z => z.live) = true →
        let ts := tkeys d.fab.req fun _ r => r.isWrite && r.part == e.part && (match r.purpose with
          | .hostLine _ off _ => off / 2 ^ 40 == w
          | _ => false)
        Becomes (.poolFlush n x) s ((d.wait k (.lines w ts v.written)).flushLines k))) ∧
    (∀ (a : Access) w off p v i, a.wf = true → w < 16 → d.fnReaches a = some p → tget d.fab.window (16 * p + w) = some v →
      d.extentInfo v.extent = some i → i.live = true → off < i.pages * pageBytes → off < 2 ^ 40 →
      let at_ := poolAddr (hExtHome i.handle) i.space (i.base + off)
      Becomes (.hostLineAccess a w off none) s (d.request p (.hostLine a.fn (w * 2 ^ 40 + off) false) at_ 64 none) ∧
      ∀ bs, (d.rng.descs.any fun z => z.2.part == p && (match z.2.st with | .waiting (.lines w' _ _) => w' == w | _ => false)) = false →
        let y := { v with written := if v.written.contains (off / pageBytes) then v.written else v.written ++ [off / pageBytes] }
        Becomes (.hostLineAccess a w off (some bs)) s (({ d with fab := { d.fab with window := tput d.fab.window (16 * p + w) y } } : Dev).request p
          (.hostLine a.fn (w * 2 ^ 40 + off) true) at_ 64 (some bs))) ∧
    (∀ port why, port < 4 → (d.getF GLB_ASSEMBLY_HOST_ROLE).testBit port = true →
      Becomes (.hostLinkLost port why) s
        (((List.range 8).filter fun p => d.present p && (d.getF (SEC_PART_HOST_PORTS p)).testBit port).foldl (fun t p => t.loseHost p port) d)) ∧
    (∀ src (pages : List U64), src < 4096 →
      Becomes (.poison src pages) s (pages.foldl (fun t a =>
        if poolHome a = t.id ∧ (t.extentOf (poolSpace a) (poolOffset a / pageBytes)).isSome ∧
          (t.dirOf (poolSpace a) (poolOffset a / pageBytes)).dev = src
        then t.pageTo (poolSpace a) (poolOffset a / pageBytes) fun y => { y with poison := true } else t) d)) ∧
    (∀ space base pages, d.poolPort space = true → pages ≠ 0 → (∀ r ∈ d.spaceRanges space, overlap r (base, pages) = 0) →
      Becomes (.dcdCapacityAdd space base pages) s
        (({ d with fab := { d.fab with added := d.fab.added ++ [(space, base, pages)] } } : Dev).move 4 space outside 0 pages none)) ∧
    (∀ space base pages, d.poolPort space = true →
      let left := d.fab.added.flatMap fun (z : Nat × Nat × Nat) => if z.1 = space then cutRange z base pages else [z]
      let t : Dev := { d with fab := { d.fab with added := left } }
      (∀ z ∈ d.fab.extent, z.2.space = space → z.2.base / pageBytes + z.2.pages ≤ base ∨ base + pages ≤ z.2.base / pageBytes) →
      exec (.dcdCapacityRelease space base pages) s =
        .next (s.onHome fun _ => t.move 4 space 0 outside (d.spacePages space - t.spacePages space) none))

/-! ### Handing over ownership (11) -/

/-- A hand-over at its source and destination (11 R315–R317): OWN_OFFER fences its object and sends PREPARE to every home, waiting
while 64 are in flight; OFFER follows when every home has answered; an OFFER is held or meets its OWN_ACCEPT; COMMITTED makes the object at the
destination and lets it go at the source; timeouts abort. -/
def Obligations.OffersTakeEffect : Prop :=
  ∀ (s : State) (n : Nat) (x : Desc) (k : Nat) (e : DescEntry) (m : DirMsg), n < 4096 → m.wf = true →
    let d := s.dev
    let txn := BitVec.ofNat 32 (fieldAt x 20 4)
    let key := acceptKey m.src m.txn
    (d.Ready 0x76 n x k e → chkOwnOffer d e.part x = stOk →
      (offerLimit ≤ d.fab.offer.length → Becomes (.ownOffer n x) s (d.wait k (.offer txn))) ∧
      (∀ isSes obj anchor rest, d.fab.offer.length < offerLimit → d.offerObject e.part x.target = some (isSes, obj, anchor :: rest) →
        tget d.fab.offer txn.toNat = none →
        let pages := anchor :: rest
        let msg : DirMsg := { txn := txn, src := d.id, srcPart := e.part, dst := fieldAt x 16 2 % 4096, dstPart := fieldAt x 18 1,
                              anchor := anchor, pages := pages, deadline := fieldAt x 24 2, outcome := 0, handle := 0 }
        let homes := (pages.map poolHome).eraseDups
        let t := if isSes then d.enter obj .closing else d.modRegion obj fun r => { r with offered := true }
        let o : OfferTxn := { desc := k, isSession := isSes, obj := obj, msg := msg, homes := homes }
        let u : Dev := { t with fab := { t.fab with offer := tput t.fab.offer txn.toNat o } }
        Becomes (.ownOffer n x) s (homes.foldl (fun v h => v.emit (.ctrl h (.prepare { msg with pages := atHome pages h })))
          (u.wait k (.offer txn))))) ∧
    (∀ t, tget d.fab.offer m.txn.toNat = some t → m.src = d.id → t.offered = false →
      let home := (m.pages.head?.map poolHome).getD (poolHome m.anchor)
      let y := { t with prepared := if t.prepared.contains home then t.prepared else home :: t.prepared }
      let all := y.homes.all fun h => y.prepared.contains h
      let u : Dev := { d with fab := { d.fab with offer := tput d.fab.offer m.txn.toNat { y with offered := all } } }
      (all = false → Becomes (.prepared m true) s u) ∧
      (all = true → Becomes (.prepared m true) s (u.emit (.ctrl t.msg.dst (.offer t.msg (u.offerBody y))))) ∧
      Becomes (.prepared m false) s (d.sendAbort t.msg)) ∧
    (∀ (i : U32) t, tget d.fab.offer i.toNat = some t → Becomes (.ownOfferTimeout i) s (d.sendAbort t.msg)) ∧
    (∀ o, tget d.fab.accept key = none → d.fab.hold.length < 64 →
      Becomes (.offer m o) s { d with fab := { d.fab with hold := d.fab.hold ++ [(m, o)] } }) ∧
    (∀ o a, tget d.fab.accept key = some a → a.part = m.dstPart → a.offer = none →
      (d.storeKey a.part (OfferObj.keyId o)).isSome = true → (OfferObj.frames o).1 ≤ d.freeFrames a.part →
      ∀ num g t, d.setAside a.part o = some (num, g, t) →
      let h := match o with
        | .session _ _ _ _ => mkHandle t.id a.part g num
        | .region _ _ _ _ _ _ _ => mkRegionHandle t.id a.part g num
      let u := t.moveFrames a.part 0 (OfferObj.frames o).2 (OfferObj.frames o).1
      Becomes (.offer m o) s
        (({ u with fab := { u.fab with accept := tput u.fab.accept key { a with offer := some (m, o, num, g) } } } : Dev).emit
          (.ctrl (poolHome m.anchor) (.commit { m with handle := h })))) ∧
    (∀ src (i : U32), src < 4096 → Becomes (.offerHoldTimeout src i) s
      { d with fab := { d.fab with hold := d.fab.hold.filter fun z => !(z.1.src == src && z.1.txn == i) } }) ∧
    (let src := fieldAt x 16 2 % 4096
     let key := acceptKey src txn
     d.Ready 0x77 n x k e → 1 ≤ fieldAt x 24 2 → fieldAt x 24 2 ≤ 60000 → d.memIndexOk e.part (fieldAt x 28 4) = true →
      tget d.fab.accept key = none →
      let a : AcceptTxn := { desc := k, part := e.part, memIdx := BitVec.ofNat 32 (fieldAt x 28 4) }
      let t := ({ d with fab := { d.fab with accept := tput d.fab.accept key a } } : Dev).wait k (.accept src txn)
      let mine := fun (z : DirMsg × OfferObj) => z.1.src == src && z.1.txn == txn
      ((d.fab.hold.find? fun z => mine z && z.1.dstPart == e.part) = none → Becomes (.ownAccept n x) s t) ∧
      (∀ m o, (d.fab.hold.find? fun z => mine z && z.1.dstPart == e.part) = some (m, o) →
        Becomes (.ownAccept n x) s (({ t with fab := { t.fab with hold := t.fab.hold.filter fun z => !mine z } } : Dev).matchOffer key a m o))) ∧
    (∀ src (i : U32) a, src < 4096 → tget d.fab.accept (acceptKey src i) = some a → a.offer = none →
      Becomes (.ownAcceptTimeout src i) s ((d.failOpen a.desc stWrong none).dropAccept (acceptKey src i))) ∧
    (∀ h a m' o num g, m.dst = d.id → m.src ≠ d.id → tget d.fab.accept key = some a → a.offer = some (m', o, num, g) →
      Becomes (.committed m h) s
        (((d.createObject a.part a.memIdx o num g).ok a.desc h (BitVec.ofNat 32 m'.pages.length)).dropAccept key)) ∧
    (∀ h t, m.src = d.id → m.dst ≠ d.id → tget d.fab.offer m.txn.toNat = some t → t.isSession = true →
      Becomes (.committed m h) s
        ((((d.modSes t.obj fun z => { z with pages := [], blocks := [], dropped := 0 }).retable t.obj).ok t.desc h
          (BitVec.ofNat 32 t.msg.pages.length)).endOffer m.txn.toNat))

/-- A hand-over at its homes (11 R316–R318): PREPARE makes the source's pages PENDING; at the anchor home the first of COMMIT and ABORT decides,
and everyone is told; at another home the pages change owner or return; a page that is PENDING past its deadline freezes and the anchor home is
asked, which answers with its record; OWN_RESOLVE decides pages whose anchor is out of reach. -/
def Obligations.HomesTakeEffect : Prop :=
  ∀ (s : State) (n : Nat) (x : Desc) (k : Nat) (e : DescEntry) (m : DirMsg), n < 4096 → m.wf = true →
    let d := s.dev
    ((∀ a ∈ m.pages, d.handable m a = true) →
      Becomes (.prepare m) s ((m.pages.foldl (fun (t : Dev) a => t.pageTo (poolSpace a) (poolOffset a / pageBytes) fun y =>
        { y with st := .pending, hand := some (DirMsg.hand m) }) d).emit (.ctrl m.src (.prepared m true)))) ∧
    ((∃ a ∈ m.pages, d.handable m a = false) → Becomes (.prepare m) s (d.emit (.ctrl m.src (.prepared m false)))) ∧
    (poolHome m.anchor ≠ d.id → exec (.commit m) s = .next (s.onHome fun d => d.decidePages m true)) ∧
    (poolHome m.anchor = d.id → d.verdict m = none → (d.heldBy m).isEmpty = false →
      exec (.commit m) s = .next (s.onHome fun d =>
        let t : Dev := { d with fab := { d.fab with decided := (m.src, m.txn, 1) :: d.fab.decided } }
        let u := (t.emit (.ctrl m.dst (.committed m m.handle))).emit (.ctrl m.src (.committed m m.handle))
        ((u.otherHomes m).foldl (fun v h => v.emit (.ctrl h (.commit m))) u).decidePages m true)) ∧
    (poolHome m.anchor = d.id → d.verdict m = some 2 → exec (.commit m) s = .next (s.onHome fun d => d.emit (.ctrl m.dst (.abort m)))) ∧
    (poolHome m.anchor = d.id → d.verdict m = some 1 → exec (.abort m) s = .next (s.onHome fun d => d)) ∧
    (poolHome m.anchor = d.id → d.verdict m = none → m.src ≠ d.id → m.dst ≠ d.id →
      exec (.abort m) s = .next (s.onHome fun d => d.abortHere m)) ∧
    (poolHome m.anchor ≠ d.id → m.src = d.id → m.dst ≠ d.id → m.outcome = 0 →
      exec (.abort m) s = .next (s.onHome fun d => (d.decidePages m false).offerAborted m.txn.toNat stWrong)) ∧
    (poolHome m.anchor ≠ d.id → m.src ≠ d.id → m.dst = d.id →
      exec (.abort m) s = .next (s.onHome fun d =>
        (d.decidePages m false).acceptAborted m (if m.outcome = 0 then stWrong else BitVec.ofNat 8 m.outcome))) ∧
    (∀ page h, poolHome page = d.id → (d.dirOf (poolSpace page) (poolOffset page / pageBytes)).st = .pending →
      (d.dirOf (poolSpace page) (poolOffset page / pageBytes)).hand = some h →
      Becomes (.pendingPageDeadline page) s
        ((((d.pageTo (poolSpace page) (poolOffset page / pageBytes) fun y => { y with st := .frozen }).flag
          FAB_STATUS_PAGE_FROZEN FAB_EVENTS_FROZEN_COUNT).raiseAt none 0x0A15 page 2 0x203 (0x0A00 + poolSpace page) 0xFF).emit
          (.ctrl (poolHome h.anchor) (.query (h.msg [pageStart page] 0))))) ∧
    (∀ a rest, poolHome m.anchor = d.id → m.pages = a :: rest → poolHome a ≠ d.id →
      (d.verdict m = some 1 → exec (.query m) s = .next (s.onHome fun d => d.emit (.ctrl (poolHome a) (.commit m)))) ∧
      (d.verdict m = some 2 → exec (.query m) s = .next (s.onHome fun d => d.emit (.ctrl (poolHome a) (.abort m)))) ∧
      (d.verdict m = none → exec (.query m) s = .next (s.onHome fun d =>
        let t := d.abortHere m
        t.emit (.ctrl (poolHome a) (if t.verdict m = some 1 then .commit m else .abort m))))) ∧
    (d.Ready 0x78 n x k e → chkOwnResolve d e.part x = stOk →
      (∀ a ∈ resolvePages x, (d.dirOf (poolSpace a) (poolOffset a / pageBytes)).st = .frozen ∧
        ∃ h, (d.dirOf (poolSpace a) (poolOffset a / pageBytes)).hand = some h ∧ d.reaches (poolHome h.anchor) = false) →
      exec (.ownResolve n x) s = .next (s.onHome fun d =>
        ((resolvePages x).foldl (fun (t : Dev) a =>
          let y := t.dirOf (poolSpace a) (poolOffset a / pageBytes)
          let told := y.hand.elim t fun h =>
            let c := if fieldAt x 28 1 = 1 then Ctrl.committed (h.msg [a] 0) 0 else Ctrl.abort (h.msg [a] 0)
            (t.emit (.ctrl h.src c)).emit (.ctrl h.dst c)
          told.pageTo (poolSpace a) (poolOffset a / pageBytes) fun y => y.decide (fieldAt x 28 1 == 1)) d).ok k
            (BitVec.ofNat 64 (resolvePages x).length) 0))

/-! ### Partitions, keys and TDI states (13) -/

/-- Keys come, change and go (13 R350, R351, R354, R355, R361): a key unwrapped under the KEK is CURRENT or NEXT, KEY_ACTIVATE makes NEXT
CURRENT and what it replaces PRIOR, KEY_RETIRE starts a drain, TENANT_REMOVE drains every key of a tenant, a drain ends when nothing holds its
generation, or what holds it is aborted when its time is over; ACL_READ returns the entries of a target. -/
def Obligations.KeyCommandsTakeEffect : Prop :=
  ∀ (s : State) (n : Nat) (x : Desc) (k : Nat) (e : DescEntry), n < 4096 →
    let d := s.dev
    let id := fieldAt x 16 2
    let gen := fieldAt x 18 2
    let ix := keyIndex e.part id
    (∀ kek, d.Ready 0x90 n x k e → id ≠ 0 → gen ≠ 0 → (fieldAt x 20 1 = 1 ∨ fieldAt x 20 1 = 2) → tget d.sec.kek e.part = some kek →
      let store := fieldAt x 20 1 == 2
      ((d.key e.part id).any fun y => y.store != store || decide (gen ≤ y.highest) || decide (2 ≤ y.gens.length) ||
        (y.genIn .retiring).isSome || (store && !y.gens.isEmpty)) = false →
      d.keysLive e.part < d.getF (SEC_PART_KEY_QUOTA e.part) →
      let old := (d.key e.part id).getD { store := store, tenant := 0 }
      let st := if (old.genIn .current).isSome then KeyState.next else KeyState.current
      let new := fun (key : BitVec 256) => ({ old with store := store, tenant := fieldAt x 22 2, removed := false, highest := gen,
                                                       gens := old.gens ++ [{ gen := gen, st := st, key := key }] } : Key)
      Becomes (.keyInstall n x) s (match Config.aesUnwrap kek (BitVec.ofNat 320 (fieldAt x 24 40)) with
        | some key => (d.setKey ix (new key)).ok k (Config.keyStateCode st.row) 0
        | none => d.refuse k stBad)) ∧
    (∀ y c, d.Ready 0x91 n x k e → id ≠ 0 → gen ≠ 0 → tget d.sec.key ix = some y → y.genIn .retiring = none →
      (y.gens.any fun g => g.gen == gen && g.st == .next) = true → y.genIn .current = some c →
      Becomes (.keyActivate n x) s ((d.setKey ix ((y.setGen c.gen .prior).setGen gen .current)).ok k 0 0)) ∧
    (∀ y, d.Ready 0x92 n x k e → id ≠ 0 → gen ≠ 0 → 1 ≤ fieldAt x 20 2 → fieldAt x 20 2 ≤ 50 → tget d.sec.key ix = some y →
      y.retirable gen = true → Becomes (.keyRetire n x) s ((d.wait k .drain).startDrain [k] ix gen)) ∧
    (d.Ready 0x93 n x k e → 1 ≤ fieldAt x 18 2 → fieldAt x 18 2 ≤ 50 → d.removingTenant e.part id = false →
      let r := (d.wait k .drain).removeKeys e.part (some id) [k]
      Becomes (.tenantRemove n x) s (if r.2 = 0 then r.1.ok k 0 0 else r.1.setResult k r.2)) ∧
    (∀ p (id gen : U16) y, p < 8 → d.drainOf p id gen = some y → (d.keyBusy p id.toNat gen.toNat = false ∨ y.expired = true) →
      Becomes (.keyDrainComplete p id gen) s (d.endDrain y)) ∧
    (∀ p (id gen : U16) y, p < 8 → d.drainOf p id gen = some y → d.keyBusy p id.toNat gen.toNat = true →
      let hs := if (d.key p id.toNat).any (fun z => z.store) then d.holders p id.toNat else []
      let ops := ((hs.filterMap fun t => (d.req t).map fun r => r.purpose.operation).eraseDups).length
      let t := (d.flag SEC_STATUS_DRAIN_ABORT SEC_EVENTS_DRAIN_ABORT_COUNT).raiseOpen (some p) 0x0C15 0x106
      let u := y.descs.foldl (fun v n => v.modDesc n fun z => { z with detail := z.detail + BitVec.ofNat 32 ops }) t
      let late := u.sec.drain.map fun z => if z.key = y.key ∧ z.gen = y.gen then { z with expired := true } else z
      Becomes (.keyDrainTimeout p id gen) s
        (hs.foldl (fun v t => v.respond t (.error stTenant)) { u with sec := { u.sec with drain := late } })) ∧
    (d.Ready 0x94 n x k e → fieldAt x 16 8 % 8 = 0 → targetOk d (fieldAt x 24 2) = true → 1 ≤ fieldAt x 28 2 →
      fieldAt x 26 2 + fieldAt x 28 2 ≤ 4096 →
      Becomes (.aclRead n x) s ((d.emitFor e.part (.hostWrite e.part (BitVec.ofNat 64 (fieldAt x 16 8))
        ((List.range (fieldAt x 28 2)).flatMap fun i => leBytes 2 (d.aclShown e.part (fieldAt x 24 2) (fieldAt x 26 2 + i))))).ok k
          (BitVec.ofNat 64 (fieldAt x 28 2)) 0))

/-- A TDI goes from CONFIG_UNLOCKED to CONFIG_LOCKED to RUN, to ERROR at what Table 13.6 names, and through the scrub of its partition back to
CONFIG_UNLOCKED; a request in another state is answered with an error (13 R357, R358). -/
def Obligations.TdiStatesMove : Prop :=
  ∀ (s : State) (p : Nat), p < 8 →
    let d := s.dev
    (d.funcUp p = true →
      (d.tdi p = .unlocked → Becomes (.lockInterfaceRequest p) s
        ((d.setTdi p .locked).emit (.answer (.tdisp p "LOCK_INTERFACE_RESPONSE" [])))) ∧
      (d.tdi p ≠ .unlocked → Becomes (.lockInterfaceRequest p) s (d.emit (.answer (.tdispError p "LOCK_INTERFACE_REQUEST")))) ∧
      (d.tdi p = .locked → Becomes (.startInterfaceRequest p) s
        ((d.setTdi p .run).emit (.answer (.tdisp p "START_INTERFACE_RESPONSE" [])))) ∧
      (d.tdi p ≠ .locked → Becomes (.startInterfaceRequest p) s (d.emit (.answer (.tdispError p "START_INTERFACE_REQUEST")))) ∧
      ((d.tdi p = .locked ∨ d.tdi p = .run ∨ d.tdi p = .error) →
        let t := (d.removeKeys p none []).1.modPr p fun y => { y with scan := [], pending := false, timer := false }
        Becomes (.stopInterfaceRequest p) s
          ((({ t with sec := { t.sec with kek := tdel t.sec.kek p } } : Dev).setF (SEC_TDI_KEK_SET p) 0).setTdi p .scrubbing))) ∧
    (∀ g, d.tdi p = .run ∨ (d.tdi p = .locked ∧ g ≠ .access) → Becomes (.tdiErrorTrigger p g) s (d.tdiFail p)) ∧
    (d.tdi p = .locked → Becomes (.tdiErrorTrigger p .access) s d) ∧
    (d.tdi p = .scrubbing → exec (.scrubComplete p) s = .next (s.onHome fun d =>
      let t := (d.sec.drain.filter fun y => y.key / 65536 == p).foldl (fun v y => v.endDrain y) d
      ((((t.endWaiting p stTenant).wipe p).returnExtents p).setTdi p .unlocked).emit
        (.answer (.tdisp p "STOP_INTERFACE_RESPONSE" []))))

/-! ### Checkpoints (14) -/

/-- A checkpoint's commands (14 R364, R367, R369, R372–R374, R381, R383; 08 R218): CKPT_START, CKPT_RESTORE and MANIFEST_SEAL read what they
name from the host; a device answers a probe with whether it holds the image, or is fit for the cut; answers, timeouts and reports move a
checkpoint on or end it; CKPT_RELEASE gives the copies of a checkpoint back; CONTINUE alone ends a hold. -/
def Obligations.CheckpointCommandsTakeEffect : Prop :=
  ∀ (s : State) (n : Nat) (x : Desc) (k : Nat) (e : DescEntry), n < 4096 →
    let d := s.dev
    let slot := hSlot x.target
    let host := fun (t : Dev) off len => t.emitFor e.part (.hostRead e.part (BitVec.ofNat 64 (fieldAt x off 8)) len)
    (d.Ready 0xA0 n x k e → chkCkptStart d e.part x = stOk → d.ckptStatus e.part slot (fieldAt x 16 4) = stOk →
      let m := (((d.job e.part slot).sect.map fun c => c.devices.length)).getD 1
      let t := host d 24 (8 * m)
      Becomes (.ckptStart n x) s ((if fieldAt x 48 1 = 0 then t else host t 40 (8 * fieldAt x 48 1)).wait k .hostRead)) ∧
    (d.Ready 0xA1 n x k e → d.jobStatus e.part x.target = stOk → fieldAt x 20 1 % 2 = 0 →
      let l := (d.job e.part slot).hdr.ladder
      (d.ckp.now.any fun z => (d.job z.1 z.2.job).hdr.ladder == l && fieldAt x 16 4 == z.2.id) = false →
      (d.ckp.kept.any fun z => z.part == e.part && z.ladder == l && z.id == fieldAt x 16 4) = true →
      let r := d.releaseKept fun z => z.part == e.part && z.ladder == l && z.id == fieldAt x 16 4
      Becomes (.ckptRelease n x) s (r.1.ok k (BitVec.ofNat 64 r.2) 0)) ∧
    (d.Ready 0xA2 n x k e → chkCkptRestore d e.part x = stOk →
      (fieldAt x 30 1 = 8 → fieldAt x 48 4 = 0 → (d.job e.part slot).st = .active → (d.stepP e.part).lossHeld = true →
        Becomes (.ckptRestore n x) s ((d.endLossHold e.part).ok k 0 0)) ∧
      ((fieldAt x 30 1 ≠ 8 ∨ fieldAt x 48 4 ≠ 0) → d.restorable e.part slot = true →
        let t := host d 16 (fieldAt x 24 4)
        Becomes (.ckptRestore n x) s ((if fieldAt x 48 4 = 0 then t else host t 40 (8 * fieldAt x 48 4)).wait k .hostRead))) ∧
    (d.Ready 0xA3 n x k e → 256 ≤ fieldAt x 24 4 → fieldAt x 24 4 ≤ 20656 →
      Becomes (.manifestSeal n x) s ((host d 16 (fieldAt x 24 4)).wait k .hostRead)) ∧
    (∀ p src image i, p < 8 → src < 4096 →
      ((List.range 4).find? fun i => (d.job p i).st == .loaded && (d.job p i).full == image) = some i →
      Becomes (.switchProbe p src (.job image)) s (d.emit (.ctrl src (.probeAnswer p (d.posIn p i) true)))) ∧
    (∀ p src region id mode peat extra i, p < 8 → src < 4096 → d.activeSlot p = some i → d.ckpt p = none →
      let c : Ckpt := { desc := none, job := i, id := id, mode := mode, peat := peat, extra := extra, pos := d.posIn p i, region := hRegion region }
      d.shardFit p c region = true →
      Becomes (.switchProbe p src (.ckpt region id mode peat extra)) s ((d.setCkpt p c).emit (.ctrl src (.probeAnswer p c.pos true)))) ∧
    (∀ p pos c k, p < 8 → pos < 256 → d.probing p = none → d.ckpt p = some c → c.desc = some k → c.asked.contains pos = true →
      let y := { c with asked := c.asked.filter fun q => q != pos }
      Becomes (.probeAnswer p pos true) s (if y.asked.isEmpty then (d.setCkpt p y).listCut p else d.setCkpt p y) ∧
      Becomes (.probeAnswer p pos false) s ((d.dropCkpt p).failOpen k stBad (some (BitVec.ofNat 32 pos)))) ∧
    (∀ p c k, p < 8 → d.probing p = none → d.ckpt p = some c → c.desc = some k → c.asked ≠ [] →
      Becomes (.switchProbeTimeout p) s ((d.dropCkpt p).failOpen k stPeer none)) ∧
    (∀ p pos ses len addr key digest, p < 8 → pos < 256 →
      Becomes (.shardReport p pos ses len addr key digest) s (d.gotShard p pos ses len addr key.toNat digest)) ∧
    (∀ p c, p < 8 → d.ckpt p = some c → c.phase = 3 →
      Becomes (.holdupWaitExpiry p) s ((d.flag CKP_STATUS_HOLDUP_DEFER CKP_STATUS_DEFER_COUNT).abandon p stHoldup))

/-! ### Power, heat and the hold-up bank (16) -/

/-- The power loop, heat and the brake (16 R422–R424): each period shows the average, steps the rails against the cap and heat, counts the hold
and lets a held E12 go on; a sample notes the hottest die and stack and what is hot; the brake pin is noted and the rails follow it. -/
def Obligations.PowerCommandsTakeEffect : Prop :=
  ∀ (s : State),
    let d := s.dev
    (∀ w : U16, d.running = true →
      Becomes (.powerLoopPeriod w) s
        (((((((d.setF PWR_INPUT_AVG_W w.toNat).showCap).capStep w.toNat).heatStep).countHold).showRails).resumeHeld)) ∧
    (∀ dies hbms, dies.length ≤ 9 → hbms.length ≤ 12 → d.running = true → d.pwr.hotDie ≠ [] → d.pwr.veryHot ≠ [] →
      let t := ((d.setF PWR_THERMAL_TJ_MAX (hottest dies).1).setF PWR_THERMAL_TJ_DIE (hottest dies).2).setF PWR_THERMAL_HBM_MAX (hottest hbms).1
      let u := t.setF PWR_THERMAL_HBM_STACK (hottest hbms).2
      let tj := u.getF PWR_TH_CFG_TJ_THROTTLE
      let th := u.getF PWR_TH_CFG_HBM_THROTTLE
      let p := { d.pwr with hotDie := episode dies d.pwr.hotDie tj (tj - 3) 0, hotStack := episode hbms d.pwr.hotStack th (th - 3) 0,
                            veryHot := episode dies d.pwr.veryHot 95 93 0 ++ episode hbms d.pwr.veryHot 95 93 16,
                            trip := episode dies [] 100 100 0 ++ episode hbms [] 100 100 16 }
      let v : Dev := { u with pwr := p }
      let w : Dev := { v with pwr := { v.pwr with thLimit := limitsAt v.pwr.thLimit v.pinnedRails fun _ _ => 650 } }
      Becomes (.thermalSample dies hbms) s w.showRails.resumeHeld) ∧
    Becomes .pwrBrakeAssert s (({ d with pins := { d.pins with pwrBrake := false } } : Dev).showRails) ∧
    Becomes .pwrBrakeDeassert s (({ d with pins := { d.pins with pwrBrake := true } } : Dev).showRails)

/-! ### Stops: orderly, by power loss, by emergency (15, 16) -/

/-- An orderly shut-down moves on (16 R433, R436; 14 R372; 15 R402–R405): a step that takes too long is discarded, a snapshot without charge is
skipped, the manifest, the snapshot and the overlay are written to keeping flash and what waited goes on; each phase of the self-test leads
to the next, Z2 zeroing what the device holds. -/
def Obligations.ShutdownMovesOn : Prop :=
  ∀ (s : State),
    let d := s.dev
    (d.pwr.seq = .x1 → exec .shutdownStepTimeout s = .next (s.onPower fun d =>
      (((List.range 8).filter fun p => !d.quiet p).foldl (fun (t : Dev) p => (t.discardStep p).modStep p fun y => { y with stage := .power }) d).shutdownOn)) ∧
    (d.pwr.seq = .x5 → d.pwr.waitCharge = true → exec .snapshotChargeTimeout s = .next (s.onPower fun d => d.skipSnapshot.selftestStart)) ∧
    (d.pwr.seq = .x5 → d.pwr.waitCharge = false →
      exec .snapshotWriteDone s = .next (s.onPower fun d => ((d.endDurable d.snapshotCost).storeSnapshot).selftestStart) ∧
      exec (.durableCommitDone 2) s = exec .snapshotWriteDone s) ∧
    (d.pwr.seq = .y5 → exec .snapshotWriteDone s = .next (s.onPower fun d => ((d.endDurable d.snapshotCost).storeSnapshot).pathEnd)) ∧
    (∀ p c k, p < 8 → d.ckpt p = some c → c.desc = some k → c.phase = 4 →
      exec (.manifestWriteDone p) s = .next (s.onPower fun d => (d.commitManifest p c k).afterCommit)) ∧
    (d.pwr.seq = .z7 → exec (.durableCommitDone 1) s = .next (s.onPower fun d => d.overlayDone)) ∧
    (∀ r : PhaseResult,
      let more := d.addF LDG_SELFTEST_DURATION_MS r.ms
      (d.pwr.seq = .z2 → r.readbackZero = true → exec (.selftestPhaseDone r) s = .next (s.onPower fun _ => more.zeroise.toPhase .z3 3)) ∧
      (d.pwr.seq = .z2 → r.readbackZero = false → exec (.selftestPhaseDone r) s = .next (s.onPower fun _ =>
        ((more.zeroise.flag LDG_STATUS_SELFTEST_FAIL LDG_EVENTS_SELFTEST_COUNT).raise none 0x0E13 0 2 puppeteer).toPhase .z6 6)) ∧
      (d.pwr.seq = .z3 → exec (.selftestPhaseDone r) s = .next (s.onPower fun _ => more.toPhase .z4 4)) ∧
      (d.pwr.seq = .z4 → exec (.selftestPhaseDone r) s = .next (s.onPower fun _ => (more.testResults r).toPhase .z5 5)) ∧
      (d.pwr.seq = .z5 → exec (.selftestPhaseDone r) s = .next (s.onPower fun _ => (more.testResults r).toPhase .z6 6)) ∧
      (d.pwr.seq = .z6 → exec (.selftestPhaseDone r) s = .next (s.onPower fun _ => (more.testResults r).overlayWrite)) ∧
      (d.pwr.seq = .z7 → exec (.selftestPhaseDone r) s = .next (s.onPower fun _ => more.overlayDone))) ∧
    (∀ v u : U16, (d.pwr.seq ≠ .x5 ∨ d.pwr.waitCharge = false) → d.ckp.now = [] →
      exec (.holdupMeasure v u) s = .next (s.onPower fun d => (d.setF PWR_HOLDUP_BANK_V v.toNat).setF PWR_HOLDUP_USABLE u.toNat))

/-- What stops the module at once (16 R417, R424, R426, R427, R434, R435): a reset held for 5 s, the watchdog, a rail's fault, a unit still at 100 °C, a
leak, lost input and a flow too low for a second take the power-loss path, each with its own LAST_REASON; too hot or reversed coolant shuts
down in order; an excursion is recorded; a disagreeing sensor is ignored and marked. -/
def Obligations.TriggersStopTheModule : Prop :=
  ∀ (s : State),
    let d := s.dev
    exec .modResetHeld5s s = .next (s.onPower fun d => ({ d with pins := { d.pins with modReset := false } } : Dev).emergency 8 Dev.openRecord) ∧
    exec .watchdogTimeout s = .next (s.onPower fun d => d.emergency 7 Dev.openRecord) ∧
    (∀ die, die < 9 → d.running = true → exec (.railFault die) s = .next (s.onPower fun d =>
      (if die < 4 then ({ d with pwr := { d.pwr with failed := die :: d.pwr.failed.filter (· != die) } } : Dev) else d).emergency 6
        fun d => d.powerFault 0x0F11)) ∧
    (∀ st u, u < (if st then 12 else 9) → d.pwr.trip.contains (if st then 16 + u else u) = true →
      exec (.thermalTripTimeout st u) s = .next (s.onPower fun d => d.emergency 4 fun d => d.powerFault 0x0F14)) ∧
    (d.pwr.seq ≠ .off → exec .leakDetect s = .next (s.onPower fun d => (d.setF PWR_COOLANT_LEAK_NOW 1).leak)) ∧
    (∀ mv, mv < 44000 ∨ 58000 < mv → exec (.inputVoltageEvent (.voltage mv)) s = .next (s.onPower fun d =>
      (d.setF PWR_INPUT_VOLTAGE (min mv 0xFFFF)).loseInput 2 false)) ∧
    (∀ mv, 44000 ≤ mv → mv < 48000 → d.pwr.excursion = false → d.running = true →
      exec (.inputVoltageEvent (.voltage mv)) s = .next (s.onPower fun d =>
        (({ d.setF PWR_INPUT_VOLTAGE (min mv 0xFFFF) with pwr := { d.pwr with excursion := true } } : Dev).inputEvent))) ∧
    exec (.inputVoltageEvent .currentTrip) s = .next (s.onPower fun d => d.loseInput 6 true) ∧
    (d.pwr.lowFlow = true → exec (.coolantConditionTimeout .flowLow) s = .next (s.onPower fun d => d.emergency 5 fun d => d.powerFault 0x0F15)) ∧
    (d.pwr.hotInlet = true → exec (.coolantConditionTimeout .inletHigh) s = .next (s.onPower fun d => d.shutdownStart false 5)) ∧
    (d.pwr.reversed = true → exec .coolantReversedTimeout s = .next (s.onPower fun d => d.shutdownStart false 5)) ∧
    (∀ c, d.running = true → exec (.coolantSample c) s = .next (s.onPower fun d => d.coolantSample c)) ∧
    (∀ n, n < 5 → d.pwr.ignored.contains n = false → Answers (.sensorDisagreeTimeout n) s fun t =>
      t.dev.pwr.ignored = n :: d.pwr.ignored ∧ (t.dev.flash.overlay.any fun y => y.kind == 7 && y.unit == n) = true ∧ t.mem = s.mem)

/-! ### Power-up and the sideband (15, 16, 17) -/

/-- Power-up moves on (16 R416, R432, R435; 15 R409): input above the start threshold, the standby rails, a coolant check that passes, the release
of reset, and the start phases that bring READY; a pulse on MOD_RESET# acts by its length. -/
def Obligations.PowerUpMovesOn : Prop :=
  ∀ (s : State),
    let d := s.dev
    (∀ mv, d.pwr.seq = .off → 46000 < mv → mv ≤ 58000 →
      exec (.powerConnect mv false) s = .next (s.onPower fun d => d.inputOn mv) ∧
      exec (.powerConnect mv true) s = .next (s.onPower fun d => d)) ∧
    (∀ mv, d.pwr.seq = .off → 46000 < mv → mv < 56000 → exec (.overvoltageRestart mv) s = .next (s.onPower fun d => d.inputOn mv)) ∧
    (d.pwr.seq = .u1 → exec .standbyRailsUp s = .next (s.onPower fun d => ({ d with pwr := { d.pwr with seq := .u2 } } : Dev).setState 0)) ∧
    (∀ c, d.pwr.seq = .u2 → (d.showCoolant c).coolantOk s.hw c = true →
      exec (.coolantCheckTick c) s = .next (s.onPower fun d =>
        ({ d.showCoolant c with pwr := { d.pwr with seq := .u4 } } : Dev).showRails)) ∧
    (∀ v e c, v < 65536 → e < 65536 → c < 65536 → d.pwr.seq = .u4 →
      exec (.resetRelease v e c) s = .next (s.onPower fun d =>
        ((((({ d with pwr := { d.pwr with seq := .u5, eid := 0 } } : Dev).setState 1).setF PWR_CAPS_MAX_W s.hw.maxW).setF
          PWR_HOLDUP_BANK_V v).measureBank c e).showCap.showRails)) ∧
    (∀ r, d.pwr.seq = .u5 → exec (.startPhasesDone r) s = .next { s with dev := d.startUp s.hw r, mem := [] }) ∧
    (∀ us, 10000 ≤ us → us ≤ 5000000 → exec (.modResetRelease us) s = .next (s.onPower fun d =>
      ({ d with pins := { d.pins with modReset := true } } : Dev).restartRequest)) ∧
    (∀ us, us < 1 → exec (.modResetRelease us) s = .next (s.onPower fun d => { d with pins := { d.pins with modReset := true } }))

/-- What the sideband serves once the standby rails are up (17 R449–R454; 15 R411): an endpoint ID, sensor readings as refreshed, a power
cap of 0 or 1,200 W to the option's maximum, the FRU record, a stop, overrides within an owner's session, log records, registers of GLB and
PWR, updates; stuck lines and bad lanes are recorded. -/
def Obligations.SidebandServes : Prop :=
  ∀ (s : State), s.dev.sideband = true →
    let d := s.dev
    (∀ eid, Becomes (.setEndpointId eid) s (({ d with pwr := { d.pwr with eid := eid } } : Dev).emit (.answer (.mctp eid)))) ∧
    Becomes .sensorRefreshTick s { d with pwr := { d.pwr with pldm := d.sensors } } ∧
    (∀ id, (tget d.sensors id).isSome = true →
      Becomes (.pldmGetSensorReading id) s (d.emit (.answer (.pldm pldmOk (tgetD d.pwr.pldm id 0))))) ∧
    (∀ w : U16, w = 0 ∨ (1200 ≤ w.toNat ∧ w.toNat ≤ s.hw.maxW) →
      Becomes (.pldmSetPowerCap w) s ((d.setF PWR_CAP_SIDEBAND_W w.toNat).showCap.pldmCode pldmOk)) ∧
    (∀ w : U16, w ≠ 0 → w.toNat < 1200 ∨ s.hw.maxW < w.toNat → Becomes (.pldmSetPowerCap w) s (d.pldmCode pldmInvalid)) ∧
    Becomes .pldmFruRead s (d.emit (.answer (.pldmData pldmOk Config.fru))) ∧
    (d.pwr.seq = .u6 →
      exec (.pldmShutdown 0) s = .next (s.onPower fun d => (d.shutdownStart false 1).pldmCode pldmOk) ∧
      exec (.pldmShutdown 1) s = .next (s.onPower fun d => (d.shutdownStart true 1).pldmCode pldmOk)) ∧
    (∀ sid kind unit (a : Byte) y, tget d.sec.spdm sid = some y → y.done = true → y.owner = true → a.toNat ≤ 1 →
      let o := d.flash.overrides ++ [(kind.toNat, unit.toNat, a.toNat)]
      Becomes (.overlayOverride sid kind unit a) s (({ d with flash := { d.flash with overrides := o } } : Dev).pldmCode pldmOk)) ∧
    (∀ (first : U32) (n : Byte), 1 ≤ n.toNat → n.toNat ≤ 7 → Becomes (.pldmLogRead first n) s
      (d.emit (.answer (.pldmLog ((List.range n.toNat).filterMap fun i => d.logAt (first.toNat + i)))))) ∧
    (∀ off, (regAt off).isSome = true → off / 0x10000 = 0 ∨ off / 0x10000 = 0xF →
      Becomes (.glbRead off) s ((d.readReg off).2.emit (.answer (.pldm pldmOk ((d.readReg off).1.toNat : Int))))) ∧
    (d.getF PWR_STATE_STATE = 2 ∨ d.getF PWR_STATE_STATE = 3 →
      (∀ m, d.mapSigned m = true → mapOk m s.hw = true →
        Becomes (.fwUpdateComponent (.sliceMap m)) s (({ d with flash := { d.flash with staged := some m } } : Dev).pldmCode pldmOk)) ∧
      (∀ f : FwImage, d.flash.running = false → f.sigOk = true → d.flash.fuseSec.toNat ≤ f.sec.toNat →
        let y : FwSlot := { version := f.version, sec := f.sec, prod := f.prod, ok := f.sigOk, digest := f.digest }
        Becomes (.fwUpdateComponent (.firmware f)) s (({ d with flash := { d.flash with slotB := some y } } : Dev).pldmCode pldmOk))) ∧
    Becomes .smbusTimeout s d.sidebandStuck ∧
    (∀ port w bad, port < 4 → d.running = true → port < d.getF GLB_ASSEMBLY_L_DIES → bad ≠ [] →
      Becomes (.pcieLinkUp port w bad) s d.openRecord)

/-! ### Boundaries (02, 04, 05, 08, 14) -/

/-- The way to a boundary (02 R36–R42; 05 R138): a device at its safe point reports, or is counted when it is the root; the root counts reports and
reaches the ESP with the last; edges send the commit token inside the window, are held before the ESP, and counted when one is held; the window
ends by itself; the token commits at the other devices. -/
def Obligations.BoundariesAreReached : Prop :=
  ∀ (s : State) (p : Nat), p < 8 → s.dev.present p = true →
    let d := s.dev
    (d.phase p = 0 → tget d.sec.tdi p ≠ some .error → (d.stepP p).failed = true ∨ d.stepDone p = true →
      (d.isRoot p = true → exec (.localSafePoint p) s = .next (s.onStep fun d =>
        let t := d.abandonShadows p
        (t.setPhase p 1).gotReport p (t.myPos p) false [])) ∧
      (d.isRoot p = false → exec (.localSafePoint p) s = .next (s.onStep fun d =>
        let t := d.abandonShadows p
        let y := t.stepP p
        ((t.emit (.ctrl (t.getF (GLB_SYNC_CFG_ROOT_DEVICE p)) (.safeReport p (t.myPos p) y.failed y.escReq))).modStep p
          fun z => { z with escReq := [] }).setPhase p 7))) ∧
    (∀ pos failed esc, pos < 256 → d.isRoot p = true → pos < (d.jobDevices p).length → d.phase p ≠ 5 → d.phase p ≠ 2 →
      exec (.safeReport p pos failed esc) s = .next (s.onStep fun d => d.gotReport p pos failed esc)) ∧
    (d.isRoot p = true → d.phase p = 6 → exec (.idleBoundaryTimer p) s = .next (s.onStep fun d => d.gotReport p (d.myPos p) false [])) ∧
    (d.synced 1 = [p] →
      (d.phase p = 2 → exec .stepSyncEdge s = .next (s.onStep fun d => d.sendToken p false)) ∧
      (d.phase p = 0 → (d.stepP p).early = false →
        exec .stepSyncEdge s = .next (s.onStep fun d => d.modStep p fun y => { y with early := true })) ∧
      (d.phase p = 0 → (d.stepP p).early = true →
        exec .stepSyncEdge s = .next (s.onStep fun d => d.flag (GLB_STEP_STATUS_SYNC_EXTRA p) (GLB_STEP_STATUS_EXTRA_COUNT p)))) ∧
    (∀ port, port < 32 → exec (.stepMarkToken port) s = .next (s.onStep fun d =>
      ((d.synced 2).filter fun q => d.getB (GLB_SYNC_CFG_FEED_PORT q) == port).foldl (fun t q => t.syncEdge q) d)) ∧
    (d.isRoot p = true → d.phase p = 2 → exec (.syncWindowExpiry p) s = .next (s.onStep fun d =>
      ((d.flag (GLB_STEP_STATUS_SYNC_LATE p) (GLB_STEP_STATUS_LATE_COUNT p)).raiseOpen (some p) 0x0010 0x101).sendToken p true)) ∧
    (16 ≤ (d.stepP p).late → Becomes (.stepSyncStuckCount p) s ((d.modStep p fun y => { y with late := 0 }).sidebandStuck)) ∧
    (∀ t, d.isRoot p = false → d.phase p = 7 → exec (.commitToken p t) s = .next (s.onStep fun d =>
      let a := d.draw
      let b := a.2.draw
      ((b.2.setL (GLB_STEP_TIME_STEP_NS p) a.1.toNat).setL (GLB_STEP_TIME_SYNC_WAIT_NS p) b.1.toNat).commit p t)) ∧
    (d.isRoot p = false → d.phase p = 7 → Becomes (.retryToken p) s (d.retryStep p))

/-- What may hold a boundary or change a job (02 R30, R46; 04 R111–R113; 05 R139; 08 R224; 14 R377–R380): a drain ends with the
credits back, or by reset after its time; a rebuild that takes too long ends its batch's generations; a lost device moves the job to a rung; a peer's
records are kept and acknowledged, and a peer that does not answer leaves the mirror LOST; beat sensors show the rate and its lowest. -/
def Obligations.HeldStepsGoOn : Prop :=
  ∀ (s : State) (p : Nat), p < 8 →
    let d := s.dev
    ((d.stepP p).stage = .drain →
      let back := fun (t : Dev) (n : Nat) => (jobChannels p).foldl (fun (u : Dev) c =>
        let k := (((u.led 3 (36 * n + c)).map fun (l : Ledger) => l.actual.getD 1 0).getD 0).toNat
        u.move 3 (36 * n + c) 1 0 k (some p)) t
      exec (.linkCreditDrained p) s = .next (s.onStep fun d => ((List.range 32).foldl back d).drained p false)) ∧
    (∀ short, (d.stepP p).stage = .drain → exec (.drainTimeout p short) s = .next (s.onStep fun d =>
      (((short.map fun x => x.1).eraseDups).foldl (fun t n =>
        t.resetChannels p (((tget d.plc.switch p).bind fun x => x.outgoing).getD 0) n) d).drained p true)) ∧
    (d.getB (TIER_REBUILD_CFG_TIMEOUT_S p) ≠ 0 → (d.stepP p).held = true → (d.window p).degraded ≠ [] →
      exec (.rebuildTimeout p) s = .next (s.onStep fun d =>
        let t := (d.lens p).foldl (fun u e => u.dropHeld e.loc) d
        let u := ((t.setLens p []).trimReserved p 0).modStep p fun y => { y with held := false, failed := false }
        (u.modWindow p fun w => { w with failed := true }).setPhase p 6)) ∧
    (∀ pos j c h fs, pos < 256 → d.activeJob p = some j → j.sect = some c → j.fullImage = some (h, fs) → d.isRoot p = true → d.phase p = 1 →
      (d.stepP p).held = false → pos < c.devices.length → (d.stepP p).reports.contains pos = false →
      let dev := c.devices.getD pos 0
      let lost := j.missing ++ ((fs.devices.zipIdx.filter fun x => x.1 == dev).map fun x => x.2)
      exec (.peerLossTimeout p pos) s = .next (s.onStep fun d =>
        (((d.boundaryPeers p).filter (· != dev)).foldl (fun (t : Dev) x => t.emit (.ctrl x (.shrinkToken p lost))) d).shrink p lost)) ∧
    (∀ lost, d.isRoot p = false → d.phase p = 7 →
      exec (.shrinkToken p lost) s = .next (s.onStep fun d => d.shrink p lost)) ∧
    (∀ (f : Frame) descs, f.wf = true →
      let part := fun (x : BitVec 512) => x.toNat / 2 ^ 49 % 8
      Becomes (.mirror f descs) s
        (({ d with tus := { d.tus with mirror := descs.foldl (fun t x => putMirror t (part x) x) d.tus.mirror } } : Dev).emit
          (.ctrl f.src (.mirrorAck ((descs.head?.map part).getD (f.chan / 4 - 1)))))) ∧
    (((d.mirrorHeard p).stepP p).stage = .mirror →
      exec (.mirrorAck p) s = .next (s.onStep fun d => ((d.mirrorHeard p).modStep p fun y => { y with stage := .none }).endCommit p)) ∧
    ((d.stepP p).stage = .mirror → exec (.mirrorAckTimeout p) s = .next (s.onStep fun d =>
      let t := (d.mirrorHeard p).flag TUS_STATUS_MIRROR_LOST TUS_STATUS_MIRROR_LOST_COUNT
      let u := (t.raiseOpen (some p) 0x0210 0x100).setL (TUS_COUNT_MSTATE p) 3
      (u.modStep p fun y => { y with stage := .none }).endCommit p)) ∧
    (∀ die (rate : U16), die < 9 → die < 5 + d.getF GLB_ASSEMBLY_L_DIES → d.running = true → Answers (.beatSensorWindow die rate) s fun t =>
      t.dev.getF (GLB_BEAT_RATE_RATE die) = rate.toNat ∧
      t.dev.getF (GLB_BEAT_RATE_MIN_RATE die) = min rate.toNat (d.getF (GLB_BEAT_RATE_MIN_RATE die)) ∧ t.mem = s.mem)

/-! ### The ledger and its neighbours (15) -/

/-- The ledger's opcodes and events (15 R389, R397, R399–R401, R406, R412): a delta of a step that is over is added, another held; LOG_READ and
OVERLAY_READ write what they return; PART_RESET empties a halted partition; FAULT_INJECT injects and marks the guarantee; the scrub counts and
repairs; a worn frame is retired. -/
def Obligations.LedgerCommandsTakeEffect : Prop :=
  ∀ (s : State) (n : Nat) (x : Desc) (k : Nat) (e : DescEntry), n < 4096 →
    let d := s.dev
    (∀ r : Delta,
      let rest := d.ldg.flying.erase r
      let t : Dev := { d with ldg := { d.ldg with flying := rest } }
      (r.step > (d.stepP r.part).number.toNat →
        Becomes (.ledgerDelta r) s { d with ldg := { d.ldg with flying := rest ++ [r] } }) ∧
      (r.step ≤ (d.stepP r.part).number.toNat → Becomes (.ledgerDelta r) s (t.applyDelta r))) ∧
    (d.Ready 0xB0 n x k e → fieldAt x 16 8 % 8 = 0 → 1 ≤ fieldAt x 28 4 → fieldAt x 28 4 ≤ 65536 → Becomes (.logRead n x) s (doLogRead d k e)) ∧
    (d.Ready 0xB3 n x k e → 1 ≤ fieldAt x 24 4 → fieldAt x 24 4 ≤ 65536 → d.flash.overlay ≠ [] →
      let es := d.flash.overlay.take (fieldAt x 24 4)
      Becomes (.overlayRead n x) s ((d.emitFor e.part (.hostWrite e.part (BitVec.ofNat 64 (fieldAt x 16 8)) (es.flatMap OverlayEnt.bytes))).ok k
        (BitVec.ofNat 64 es.length) (BitVec.ofNat 32 d.flash.overlay.length))) ∧
    (d.Ready 0xB1 n x k e → (d.phase e.part = 5 ∨ d.activeSlot e.part = none) →
      exec (.partReset n x) s = .next (s.onStep fun d =>
        let p := e.part
        let t := (((((d.wipeWork p k).wipeJobs p).wipeSessions p).wipeRegions p).wipeFrames p).rebase p
        (((t.setReg (TOK_BIND p) 0).showDegraded p).setPhase p 6).ok k (BitVec.ofNat 64 (d.sesWhere p fun y => y.st != .free).length)
          (BitVec.ofNat 32 (tkeys d.tier.region fun _ r => r.part == p).length))) ∧
    (d.Ready 0xB2 n x k e → chkFaultInject d e.part x = stOk →
      (fieldAt x 16 1 = 2 → Becomes (.faultInject n x) s
        ((((d.eccCorrected (BitVec.ofNat 64 (fieldAt x 24 8)).toNat).setF LDG_GUARANTEE_INJECTED 1).showGuarantee).ok k 0 0)) ∧
      (fieldAt x 16 1 = 4 →
        let port := (BitVec.ofNat 64 (fieldAt x 24 8)).toNat
        let t : Dev := { d with ldg := { d.ldg with crcPorts := port :: d.ldg.crcPorts.filter (· != port) } }
        Becomes (.faultInject n x) s (((t.setF LDG_GUARANTEE_INJECTED 1).showGuarantee).ok k 0 0)) ∧
      (fieldAt x 16 1 = 1 →
        let key := fieldAt x 20 4
        let p := ((tget d.ldg.inst key).bind fun l => l.part).getD d.lead
        let r : Delta := { cls := key / 0x1000000, inst := key % 0x1000000, fromP := 7, toP := fieldAt x 17 1, amount := 1,
                           step := (d.stepP p).number.toNat, part := p }
        let t : Dev := { d with ldg := { d.ldg with flying := d.ldg.flying ++ [r] } }
        Becomes (.faultInject n x) s (((t.setF LDG_GUARANTEE_INJECTED 1).showGuarantee).ok k 0 0))) ∧
    (∀ frame line,
      exec (.patrolScrubTick (.frame frame line) .corrected) s = .next (s.onStep fun d => d.eccCorrected ((d.frameAddr frame).toNat + 64 * line)) ∧
      exec (.patrolScrubTick (.frame frame line) .uncorrectable) s = .next (s.onStep fun d =>
        (d.eccBad (d.frameOwner frame) 0x04 (d.frameAddr frame + BitVec.ofNat 64 (64 * line))).frameBad (d.frameAddr frame)) ∧
      exec (.patrolScrubTick (.frame frame line) .clean) s = .next (s.onStep fun d => d)) ∧
    (∀ frame, d.wornOut frame = true → Becomes (.frameRetire frame) s (d.retireFrame frame))

/-! ### Attestation (13) -/

/-- The SPDM responder answers where a mailbox is there (13 R350, R357, R359, R360): what it is, its certificates and measurements; a session is
opened by KEY_EXCHANGE and FINISH, and within it HEARTBEAT, KEY_UPDATE, END_SESSION, KEK_SET and IDE_KM have their effects; another session number
is answered with an error. -/
def Obligations.MailboxesAnswer : Prop :=
  ∀ (s : State) (mb : Mailbox), mb.wf = true → s.dev.mailbox mb = true →
    let d := s.dev
    Becomes (.getVersion mb) s (d.spdm mb "VERSION" [1, 3] none) ∧
    Becomes (.getCapabilities mb) s (d.spdm mb "CAPABILITIES" [] none) ∧
    Becomes (.negotiateAlgorithms mb) s (d.spdm mb "ALGORITHMS" [] none) ∧
    Becomes (.getDigests mb) s (d.spdm mb "DIGESTS" (digestBytes (Config.certDigest 0) ++ digestBytes (Config.certDigest 1)) none) ∧
    (∀ slot off len, slot ≤ 1 →
      Becomes (.getCertificate mb slot off len) s (d.spdm mb "CERTIFICATE" (((Config.certChain slot).drop off).take len) none)) ∧
    (∀ slot nonce, slot ≤ 1 → Becomes (.challenge mb slot nonce) s (d.spdm mb "CHALLENGE_AUTH" (digestBytes (Config.certDigest slot))
      (some (signed slot (digestBytes (Config.certDigest slot) ++ leBytes 32 nonce.toNat))))) ∧
    (∀ i nonce bs, i ≠ 0 → d.measures (d.mailPart mb) i = some bs →
      Becomes (.getMeasurements mb i nonce) s (d.spdm mb "MEASUREMENTS" bs (some (signed 1 (bs ++ leBytes 32 nonce.toNat))))) ∧
    (∀ req owner,
      let sid := d.sec.spdmNext
      let t := ({ d with sec := { d.sec with spdmNext := sid + 1 } } : Dev).setSpdm sid { mb := mb, owner := owner }
      let bs := record [(2, req), (2, sid)]
      Becomes (.keyExchange mb req owner) s (t.spdm mb "KEY_EXCHANGE_RSP" bs (some (signed 0 bs)))) ∧
    (∀ sid y, d.spdmSes mb sid = some y → y.done = false →
      Becomes (.finish mb sid) s ((d.setSpdm sid { y with done := true }).spdm mb "FINISH_RSP" [] none)) ∧
    (∀ sid y, d.spdmSes mb sid = some y → y.done = true →
      Becomes (.heartbeat mb sid) s (d.spdm mb "HEARTBEAT_ACK" [] none) ∧
      Becomes (.keyUpdate mb sid) s ((d.setSpdm sid { y with updates := y.updates + 1 }).spdm mb "KEY_UPDATE_ACK" [] none) ∧
      Becomes (.endSession mb sid) s (({ d with sec := { d.sec with spdm := tdel d.sec.spdm sid } } : Dev).spdm mb "END_SESSION_ACK" [] none) ∧
      (∀ p kek, d.mailPart mb = some p → d.tdi p ≠ .scrubbing →
        Becomes (.kekSet mb sid kek) s ((({ d with sec := { d.sec with kek := tput d.sec.kek p kek } } : Dev).setF (SEC_TDI_KEK_SET p) 1).spdm mb
          "KEK_SET" [] none)) ∧
      (∀ port stream key, port < 4 → d.mayKey mb port stream = true →
        Becomes (.ideKm mb sid port stream key) s
          (({ d with sec := { d.sec with ide := tput d.sec.ide (16 * port + stream) key } } : Dev).spdm mb "IDE_KM" [] none))) ∧
    (∀ sid, d.spdmSes mb sid = none → Becomes (.heartbeat mb sid) s (d.spdmBad mb "HEARTBEAT")) ∧
    (∀ p, p < 8 → d.funcUp p = true → Becomes (.getDeviceInterfaceReport p) s
      (d.emit (.answer (.tdisp p "DEVICE_INTERFACE_REPORT" (((partRegs p).map (BitVec.ofNat 64)) ++ ((tableRegs p).map fun o => d.reg o))))))

/-! ### Rules of the whole device -/

/-- A descriptor with a reserved bit set, in its header or its body, completes with BAD_DESCRIPTOR whatever the opcode's own checks and
effect are; a fault record with its host address is raised, and nothing else changes (00 R11). -/
def Obligations.ReservedBitsAreRefused : Prop :=
  ∀ (d : Dev) (op : Byte) (n : Nat) (x : Desc) (k : Nat) (e : DescEntry) (chk : Dev → Nat → Desc → Byte) (act : Dev → Nat → DescEntry → Dev),
    d.Named op n x k e → (opRow op).isSome = true → (8 ≤ x.flags.toNat ∨ x.rsv ≠ 0 ∨ bodyBad e = true) →
    let t := d.runOp op n x chk act
    (∃ c r y, t = (({ d with free := d.free + 2 } : Dev).raiseDesc e c stBad).finish k stBad r y true) ∧
    (∀ (c : Nat) (p : Dev), ∃ r : FaultRec, r.addr = e.addr ∧ r.comp = stBad ∧ r.part = e.part ∧
      (p.raiseDesc e c stBad).Logged p r) ∧
    Quiet d t ∧ (d.Hears e → ∃ r y, d.Completes t e stBad r y)

/-- A descriptor that an opcode's own checks refuse, one of a halted partition and one on a ring that may not carry its opcode complete with their
status and change nothing else (03 R62, R68; 15 R392). -/
def Obligations.RefusalsChangeNothing : Prop :=
  ∀ (d : Dev) (op : Byte) (n : Nat) (x : Desc) (k : Nat) (e : DescEntry) (chk : Dev → Nat → Desc → Byte) (act : Dev → Nat → DescEntry → Dev),
    d.Named op n x k e → bodyBad e = false →
    let t := d.runOp op n x chk act
    let ends := fun st => Quiet d t ∧ (d.Hears e → ∃ r y, d.Completes t e st r y)
    (d.headerStatus e = stBad → ends stBad) ∧
    (d.headerStatus e = stDenied → ends stDenied) ∧
    (d.headerStatus e = stOk → chk d e.part x ≠ stOk → ends (chk d e.part x)) ∧
    (d.headerStatus e = stOk → chk d e.part x = stOk → d.halted e.part = true → (d.stepP e.part).noRung = false → haltRefuses op x = true →
      ends stLedger)

/-- Completions of one CQ are written in slot order from its base, each 32 bytes on, and PHASE is 1 on the first pass and inverts on each
wrap (03 R65, R66). -/
def Obligations.CompletionsFillTheRingInOrder : Prop :=
  (∀ (d : Dev) (e : DescEntry) (r : U64) (y : U32) (st : Byte) (final logged : Bool) (n : Nat), d.dmaStopped e.part = false →
    let q := d.ring (d.cqOf e)
    let t := d.writeCompletion e r y st final logged n
    (∃ c new, t.out = new ++ d.out ∧
      Out.completion (q.cqBase + BitVec.ofNat 64 (32 * (q.written.toNat % 2 ^ q.cqLog2))) c ∈ new ∧
      c.phase = phaseOf q.written q.cqLog2 ∧ c.result = r ∧ c.detail = y ∧ c.status = st ∧ c.final = final ∧ c.tag = e.d.tag) ∧
    (t.ring (d.cqOf e)).written = q.written + 1 ∧ (t.ring (d.cqOf e)).cqBase = q.cqBase ∧ (t.ring (d.cqOf e)).cqLog2 = q.cqLog2) ∧
  (∀ (w : U32) (log2 : Nat), log2 < 32 → (w.toNat < 2 ^ log2 → phaseOf w log2 = true) ∧
    phaseOf (w + BitVec.ofNat 32 (2 ^ log2)) log2 = !phaseOf w log2)

/-- A flag and its event counter: a set leaves the flag at 1 and counts, wrapping, and changes no other register; so a set that meets a
clear is still read and recorded (00 R10; 15 R398). -/
def Obligations.FlagsCountEverySet : Prop :=
  ∀ (d : Dev) (f c : Fld), f.w = 1 → f.lo < 64 → 0 < c.w → c.lo + c.w ≤ 64 → (f.off ≠ c.off ∨ f.lo < c.lo ∨ c.lo + c.w ≤ f.lo) →
    (d.flag f c).getF f = 1 ∧ (d.flag f c).getF c = (d.getF c + 1) % 2 ^ c.w ∧
    (∀ o, o ≠ f.off → o ≠ c.off → (d.flag f c).reg o = d.reg o) ∧ (d.flag f c).rest = d.rest

/-- Asserting PWR_BRAKE# brings every rail that is on to 0.65 V, where it stays while the input is asserted, and holds no step release; that it takes no
time is the model's (16 R423). -/
def Obligations.TheBrakeHoldsRailsAtTheFloor : Prop :=
  (∀ s : State, ∃ t, exec .pwrBrakeAssert s = .next t ∧ t.dev.pins.pwrBrake = false ∧
    (∀ r, r < 6 → t.dev.railOn r = s.dev.railOn r ∧ (t.dev.railOn r = true → t.dev.railMv r = 650)) ∧
    (∀ p, t.dev.e12Held p = s.dev.e12Held p ∧ t.dev.stepP p = s.dev.stepP p) ∧ t.mem = s.mem) ∧
  (∀ (d : Dev) (r : Nat), d.pins.pwrBrake = false → d.railOn r = true → d.railMv r = 650)

/-- An edge or feed token that arrives after the previous commit and before the ESP is held, and the commit token goes out at the ESP; a further one sets
SYNC_EXTRA, counts and is otherwise ignored (02 R41). -/
def Obligations.EarlyEdgesAreHeld : Prop :=
  ∀ (d : Dev) (p : Nat), (d.phase p = 0 ∨ d.phase p = 1) →
    ((d.stepP p).early = false → d.syncEdge p = d.modStep p fun y => { y with early := true }) ∧
    ((d.stepP p).early = true → d.syncEdge p = d.flag (GLB_STEP_STATUS_SYNC_EXTRA p) (GLB_STEP_STATUS_EXTRA_COUNT p)) ∧
    ((d.stepP p).early = true → (d.stepP p).failed = false →
      let ns := min (d.clock.now - (d.stepP p).released).toNat (2 ^ 32 - 1)
      d.reachEsp p = (((d.modStep p fun y => { y with esp := some d.clock.now, stepNs := ns }).setL (GLB_STEP_TIME_STEP_NS p) ns).sendToken p false)) ∧
    (∀ (u : Dev) (late : Bool), ∃ v : Dev, u.sendToken p late = v.commit p (u.makeToken p) ∧ (v.stepP p).early = false ∧
      (∀ x ∈ u.boundaryPeers p, Out.ctrl x (.commitToken p (u.makeToken p)) ∈ v.out))

/-- Where no edge arrives in the window the commit token is sent at its end, SYNC_LATE is set, LATE_COUNT counts and STEP_SYNC_LATE is recorded
(02 R42). -/
def Obligations.LateBoundariesCommit : Prop :=
  ∀ (s : State) (p : Nat), p < 8 → s.dev.present p = true → s.dev.isRoot p = true → s.dev.phase p = 2 →
    let u := s.dev.flag (GLB_STEP_STATUS_SYNC_LATE p) (GLB_STEP_STATUS_LATE_COUNT p)
    exec (.syncWindowExpiry p) s = .next (s.onStep fun _ => (u.raiseOpen (some p) 0x0010 0x101).sendToken p true) ∧
    u.getF (GLB_STEP_STATUS_SYNC_LATE p) = 1 ∧
    u.getF (GLB_STEP_STATUS_LATE_COUNT p) = (s.dev.getF (GLB_STEP_STATUS_LATE_COUNT p) + 1) % 2 ^ (GLB_STEP_STATUS_LATE_COUNT p).w ∧
    (∃ r : FaultRec, r.code = 0x0010 ∧ r.part = p ∧ (u.raiseOpen (some p) 0x0010 0x101).Logged u r)
end

