-- ==== Sys2Proof/Laws/State.lean ====
section
/-! SUPPORT. One lemma for each field that an update of the state leaves alone, and one for what it sets; the laws of sparse
tables. -/

namespace Sys2Proof.Machine

/-! ### Sparse tables -/

theorem tget_tput_same {α : Type} (t : Tbl α) (k : Nat) (v : α) : tget (tput t k v) k = some v := by
  induction t with
  | nil => simp [tput, tget]
  | cons e r ih =>
    obtain ⟨a, w⟩ := e
    simp only [tput]
    by_cases h : a = k
    · simp [h, tget]
    · by_cases h2 : k < a
      · simp [h, h2, tget]
      · simp [h, h2, tget, ih]

theorem tget_tput_other {α : Type} (t : Tbl α) (k j : Nat) (v : α) (h : j ≠ k) : tget (tput t k v) j = tget t j := by
  induction t with
  | nil => simp [tput, tget, Ne.symm h]
  | cons e r ih =>
    obtain ⟨a, w⟩ := e
    simp only [tput]
    by_cases h1 : a = k
    · simp [h1, tget, Ne.symm h]
    · by_cases h2 : k < a
      · simp [h1, h2, tget, Ne.symm h]
      · simp [h1, h2, tget, ih]

theorem tget_tdel_same {α : Type} (t : Tbl α) (k : Nat) : tget (tdel t k) k = none := by
  induction t with
  | nil => simp [tdel, tget]
  | cons e r ih =>
    obtain ⟨a, w⟩ := e
    simp only [tdel]
    by_cases h : a = k <;> simp [h, tget, ih]

theorem tget_tdel_other {α : Type} (t : Tbl α) (k j : Nat) (h : j ≠ k) : tget (tdel t k) j = tget t j := by
  induction t with
  | nil => simp [tdel]
  | cons e r ih =>
    obtain ⟨a, w⟩ := e
    simp only [tdel]
    by_cases h1 : a = k
    · simp [h1, tget, ih, Ne.symm h]
    · simp [h1, tget, ih]

theorem tget_tput {α : Type} (t : Tbl α) (k j : Nat) (v : α) : tget (tput t k v) j = if j = k then some v else tget t j := by
  by_cases h : j = k
  · subst h; simp [tget_tput_same]
  · simp [h, tget_tput_other]

theorem tget_tdel {α : Type} (t : Tbl α) (k j : Nat) : tget (tdel t k) j = if j = k then none else tget t j := by
  by_cases h : j = k
  · subst h; simp [tget_tdel_same]
  · simp [h, tget_tdel_other]

theorem tgetD_tput {α : Type} (t : Tbl α) (k j : Nat) (v d : α) : tgetD (tput t k v) j d = if j = k then v else tgetD t j d := by
  unfold tgetD; rw [tget_tput]; split <;> simp

theorem tgetD_tmod {α : Type} (t : Tbl α) (k j : Nat) (d : α) (f : α → α) :
    tgetD (tmod t k d f) j d = if j = k then f (tgetD t k d) else tgetD t j d := by
  unfold tmod; rw [tgetD_tput]

theorem tget_tupd {α : Type} (t : Tbl α) (k j : Nat) (f : α → α) :
    tget (tupd t k f) j = if j = k then (tget t k).map f else tget t j := by
  unfold tupd
  cases h : tget t k with
  | none => by_cases hj : j = k <;> simp [hj, h]
  | some v => rw [tget_tput]; rfl

/-! ### Outcomes -/

@[simp] theorem onDev_next (s : State) (f : Dev → Dev) : onDev s f = .next { s with dev := f s.dev } := rfl

theorem guarded_wf (i : Instr) (k : Res) (h : i.wf = true) : guarded i k = k := by simp [guarded, h]

theorem guarded_not_wf (i : Instr) (k : Res) (h : i.wf = false) : guarded i k = .refused .operandRange := by simp [guarded, h]

/-! ### Fields that updates leave alone -/

@[simp] theorem Dev.emit_clock (d : Dev) (o : Out) : (d.emit o).clock = d.clock := rfl
@[simp] theorem Dev.emit_pins (d : Dev) (o : Out) : (d.emit o).pins = d.pins := rfl
@[simp] theorem Dev.emit_regs (d : Dev) (o : Out) : (d.emit o).regs = d.regs := rfl
@[simp] theorem Dev.emit_inForce (d : Dev) (o : Out) : (d.emit o).inForce = d.inForce := rfl
@[simp] theorem Dev.emit_live (d : Dev) (o : Out) : (d.emit o).live = d.live := rfl
@[simp] theorem Dev.emit_rng (d : Dev) (o : Out) : (d.emit o).rng = d.rng := rfl
@[simp] theorem Dev.emit_step (d : Dev) (o : Out) : (d.emit o).step = d.step := rfl
@[simp] theorem Dev.emit_tus (d : Dev) (o : Out) : (d.emit o).tus = d.tus := rfl
@[simp] theorem Dev.emit_tier (d : Dev) (o : Out) : (d.emit o).tier = d.tier := rfl
@[simp] theorem Dev.emit_kva (d : Dev) (o : Out) : (d.emit o).kva = d.kva := rfl
@[simp] theorem Dev.emit_ari (d : Dev) (o : Out) : (d.emit o).ari = d.ari := rfl
@[simp] theorem Dev.emit_plc (d : Dev) (o : Out) : (d.emit o).plc = d.plc := rfl
@[simp] theorem Dev.emit_tok (d : Dev) (o : Out) : (d.emit o).tok = d.tok := rfl
@[simp] theorem Dev.emit_red (d : Dev) (o : Out) : (d.emit o).red = d.red := rfl
@[simp] theorem Dev.emit_fab (d : Dev) (o : Out) : (d.emit o).fab = d.fab := rfl
@[simp] theorem Dev.emit_slu (d : Dev) (o : Out) : (d.emit o).slu = d.slu := rfl
@[simp] theorem Dev.emit_sec (d : Dev) (o : Out) : (d.emit o).sec = d.sec := rfl
@[simp] theorem Dev.emit_ckp (d : Dev) (o : Out) : (d.emit o).ckp = d.ckp := rfl
@[simp] theorem Dev.emit_ldg (d : Dev) (o : Out) : (d.emit o).ldg = d.ldg := rfl
@[simp] theorem Dev.emit_pwr (d : Dev) (o : Out) : (d.emit o).pwr = d.pwr := rfl
@[simp] theorem Dev.emit_flash (d : Dev) (o : Out) : (d.emit o).flash = d.flash := rfl
@[simp] theorem Dev.emit_free (d : Dev) (o : Out) : (d.emit o).free = d.free := rfl

@[simp] theorem Dev.emitFor_clock (d : Dev) (p : Nat) (o : Out) : (d.emitFor p o).clock = d.clock := by unfold Dev.emitFor; split <;> rfl
@[simp] theorem Dev.emitFor_pins (d : Dev) (p : Nat) (o : Out) : (d.emitFor p o).pins = d.pins := by unfold Dev.emitFor; split <;> rfl
@[simp] theorem Dev.emitFor_regs (d : Dev) (p : Nat) (o : Out) : (d.emitFor p o).regs = d.regs := by unfold Dev.emitFor; split <;> rfl
@[simp] theorem Dev.emitFor_inForce (d : Dev) (p : Nat) (o : Out) : (d.emitFor p o).inForce = d.inForce := by unfold Dev.emitFor; split <;> rfl
@[simp] theorem Dev.emitFor_live (d : Dev) (p : Nat) (o : Out) : (d.emitFor p o).live = d.live := by unfold Dev.emitFor; split <;> rfl
@[simp] theorem Dev.emitFor_rng (d : Dev) (p : Nat) (o : Out) : (d.emitFor p o).rng = d.rng := by unfold Dev.emitFor; split <;> rfl
@[simp] theorem Dev.emitFor_step (d : Dev) (p : Nat) (o : Out) : (d.emitFor p o).step = d.step := by unfold Dev.emitFor; split <;> rfl
@[simp] theorem Dev.emitFor_tus (d : Dev) (p : Nat) (o : Out) : (d.emitFor p o).tus = d.tus := by unfold Dev.emitFor; split <;> rfl
@[simp] theorem Dev.emitFor_tier (d : Dev) (p : Nat) (o : Out) : (d.emitFor p o).tier = d.tier := by unfold Dev.emitFor; split <;> rfl
@[simp] theorem Dev.emitFor_kva (d : Dev) (p : Nat) (o : Out) : (d.emitFor p o).kva = d.kva := by unfold Dev.emitFor; split <;> rfl
@[simp] theorem Dev.emitFor_ari (d : Dev) (p : Nat) (o : Out) : (d.emitFor p o).ari = d.ari := by unfold Dev.emitFor; split <;> rfl
@[simp] theorem Dev.emitFor_plc (d : Dev) (p : Nat) (o : Out) : (d.emitFor p o).plc = d.plc := by unfold Dev.emitFor; split <;> rfl
@[simp] theorem Dev.emitFor_tok (d : Dev) (p : Nat) (o : Out) : (d.emitFor p o).tok = d.tok := by unfold Dev.emitFor; split <;> rfl
@[simp] theorem Dev.emitFor_red (d : Dev) (p : Nat) (o : Out) : (d.emitFor p o).red = d.red := by unfold Dev.emitFor; split <;> rfl
@[simp] theorem Dev.emitFor_fab (d : Dev) (p : Nat) (o : Out) : (d.emitFor p o).fab = d.fab := by unfold Dev.emitFor; split <;> rfl
@[simp] theorem Dev.emitFor_slu (d : Dev) (p : Nat) (o : Out) : (d.emitFor p o).slu = d.slu := by unfold Dev.emitFor; split <;> rfl
@[simp] theorem Dev.emitFor_sec (d : Dev) (p : Nat) (o : Out) : (d.emitFor p o).sec = d.sec := by unfold Dev.emitFor; split <;> rfl
@[simp] theorem Dev.emitFor_ckp (d : Dev) (p : Nat) (o : Out) : (d.emitFor p o).ckp = d.ckp := by unfold Dev.emitFor; split <;> rfl
@[simp] theorem Dev.emitFor_ldg (d : Dev) (p : Nat) (o : Out) : (d.emitFor p o).ldg = d.ldg := by unfold Dev.emitFor; split <;> rfl
@[simp] theorem Dev.emitFor_pwr (d : Dev) (p : Nat) (o : Out) : (d.emitFor p o).pwr = d.pwr := by unfold Dev.emitFor; split <;> rfl
@[simp] theorem Dev.emitFor_flash (d : Dev) (p : Nat) (o : Out) : (d.emitFor p o).flash = d.flash := by unfold Dev.emitFor; split <;> rfl
@[simp] theorem Dev.emitFor_free (d : Dev) (p : Nat) (o : Out) : (d.emitFor p o).free = d.free := by unfold Dev.emitFor; split <;> rfl

@[simp] theorem Dev.emits_clock (d : Dev) (os : List Out) : (d.emits os).clock = d.clock := rfl
@[simp] theorem Dev.emits_pins (d : Dev) (os : List Out) : (d.emits os).pins = d.pins := rfl
@[simp] theorem Dev.emits_regs (d : Dev) (os : List Out) : (d.emits os).regs = d.regs := rfl
@[simp] theorem Dev.emits_inForce (d : Dev) (os : List Out) : (d.emits os).inForce = d.inForce := rfl
@[simp] theorem Dev.emits_live (d : Dev) (os : List Out) : (d.emits os).live = d.live := rfl
@[simp] theorem Dev.emits_rng (d : Dev) (os : List Out) : (d.emits os).rng = d.rng := rfl
@[simp] theorem Dev.emits_step (d : Dev) (os : List Out) : (d.emits os).step = d.step := rfl
@[simp] theorem Dev.emits_tus (d : Dev) (os : List Out) : (d.emits os).tus = d.tus := rfl
@[simp] theorem Dev.emits_tier (d : Dev) (os : List Out) : (d.emits os).tier = d.tier := rfl
@[simp] theorem Dev.emits_kva (d : Dev) (os : List Out) : (d.emits os).kva = d.kva := rfl
@[simp] theorem Dev.emits_ari (d : Dev) (os : List Out) : (d.emits os).ari = d.ari := rfl
@[simp] theorem Dev.emits_plc (d : Dev) (os : List Out) : (d.emits os).plc = d.plc := rfl
@[simp] theorem Dev.emits_tok (d : Dev) (os : List Out) : (d.emits os).tok = d.tok := rfl
@[simp] theorem Dev.emits_red (d : Dev) (os : List Out) : (d.emits os).red = d.red := rfl
@[simp] theorem Dev.emits_fab (d : Dev) (os : List Out) : (d.emits os).fab = d.fab := rfl
@[simp] theorem Dev.emits_slu (d : Dev) (os : List Out) : (d.emits os).slu = d.slu := rfl
@[simp] theorem Dev.emits_sec (d : Dev) (os : List Out) : (d.emits os).sec = d.sec := rfl
@[simp] theorem Dev.emits_ckp (d : Dev) (os : List Out) : (d.emits os).ckp = d.ckp := rfl
@[simp] theorem Dev.emits_ldg (d : Dev) (os : List Out) : (d.emits os).ldg = d.ldg := rfl
@[simp] theorem Dev.emits_pwr (d : Dev) (os : List Out) : (d.emits os).pwr = d.pwr := rfl
@[simp] theorem Dev.emits_flash (d : Dev) (os : List Out) : (d.emits os).flash = d.flash := rfl
@[simp] theorem Dev.emits_free (d : Dev) (os : List Out) : (d.emits os).free = d.free := rfl

@[simp] theorem Dev.setReg_clock (d : Dev) (off : Nat) (v : U64) : (d.setReg off v).clock = d.clock := rfl
@[simp] theorem Dev.setReg_pins (d : Dev) (off : Nat) (v : U64) : (d.setReg off v).pins = d.pins := rfl
@[simp] theorem Dev.setReg_inForce (d : Dev) (off : Nat) (v : U64) : (d.setReg off v).inForce = d.inForce := rfl
@[simp] theorem Dev.setReg_live (d : Dev) (off : Nat) (v : U64) : (d.setReg off v).live = d.live := rfl
@[simp] theorem Dev.setReg_rng (d : Dev) (off : Nat) (v : U64) : (d.setReg off v).rng = d.rng := rfl
@[simp] theorem Dev.setReg_step (d : Dev) (off : Nat) (v : U64) : (d.setReg off v).step = d.step := rfl
@[simp] theorem Dev.setReg_tus (d : Dev) (off : Nat) (v : U64) : (d.setReg off v).tus = d.tus := rfl
@[simp] theorem Dev.setReg_tier (d : Dev) (off : Nat) (v : U64) : (d.setReg off v).tier = d.tier := rfl
@[simp] theorem Dev.setReg_kva (d : Dev) (off : Nat) (v : U64) : (d.setReg off v).kva = d.kva := rfl
@[simp] theorem Dev.setReg_ari (d : Dev) (off : Nat) (v : U64) : (d.setReg off v).ari = d.ari := rfl
@[simp] theorem Dev.setReg_plc (d : Dev) (off : Nat) (v : U64) : (d.setReg off v).plc = d.plc := rfl
@[simp] theorem Dev.setReg_tok (d : Dev) (off : Nat) (v : U64) : (d.setReg off v).tok = d.tok := rfl
@[simp] theorem Dev.setReg_red (d : Dev) (off : Nat) (v : U64) : (d.setReg off v).red = d.red := rfl
@[simp] theorem Dev.setReg_fab (d : Dev) (off : Nat) (v : U64) : (d.setReg off v).fab = d.fab := rfl
@[simp] theorem Dev.setReg_slu (d : Dev) (off : Nat) (v : U64) : (d.setReg off v).slu = d.slu := rfl
@[simp] theorem Dev.setReg_sec (d : Dev) (off : Nat) (v : U64) : (d.setReg off v).sec = d.sec := rfl
@[simp] theorem Dev.setReg_ckp (d : Dev) (off : Nat) (v : U64) : (d.setReg off v).ckp = d.ckp := rfl
@[simp] theorem Dev.setReg_ldg (d : Dev) (off : Nat) (v : U64) : (d.setReg off v).ldg = d.ldg := rfl
@[simp] theorem Dev.setReg_pwr (d : Dev) (off : Nat) (v : U64) : (d.setReg off v).pwr = d.pwr := rfl
@[simp] theorem Dev.setReg_flash (d : Dev) (off : Nat) (v : U64) : (d.setReg off v).flash = d.flash := rfl
@[simp] theorem Dev.setReg_out (d : Dev) (off : Nat) (v : U64) : (d.setReg off v).out = d.out := rfl
@[simp] theorem Dev.setReg_free (d : Dev) (off : Nat) (v : U64) : (d.setReg off v).free = d.free := rfl

@[simp] theorem Dev.setF_clock (d : Dev) (f : Fld) (v : Nat) : (d.setF f v).clock = d.clock := rfl
@[simp] theorem Dev.setF_pins (d : Dev) (f : Fld) (v : Nat) : (d.setF f v).pins = d.pins := rfl
@[simp] theorem Dev.setF_inForce (d : Dev) (f : Fld) (v : Nat) : (d.setF f v).inForce = d.inForce := rfl
@[simp] theorem Dev.setF_live (d : Dev) (f : Fld) (v : Nat) : (d.setF f v).live = d.live := rfl
@[simp] theorem Dev.setF_rng (d : Dev) (f : Fld) (v : Nat) : (d.setF f v).rng = d.rng := rfl
@[simp] theorem Dev.setF_step (d : Dev) (f : Fld) (v : Nat) : (d.setF f v).step = d.step := rfl
@[simp] theorem Dev.setF_tus (d : Dev) (f : Fld) (v : Nat) : (d.setF f v).tus = d.tus := rfl
@[simp] theorem Dev.setF_tier (d : Dev) (f : Fld) (v : Nat) : (d.setF f v).tier = d.tier := rfl
@[simp] theorem Dev.setF_kva (d : Dev) (f : Fld) (v : Nat) : (d.setF f v).kva = d.kva := rfl
@[simp] theorem Dev.setF_ari (d : Dev) (f : Fld) (v : Nat) : (d.setF f v).ari = d.ari := rfl
@[simp] theorem Dev.setF_plc (d : Dev) (f : Fld) (v : Nat) : (d.setF f v).plc = d.plc := rfl
@[simp] theorem Dev.setF_tok (d : Dev) (f : Fld) (v : Nat) : (d.setF f v).tok = d.tok := rfl
@[simp] theorem Dev.setF_red (d : Dev) (f : Fld) (v : Nat) : (d.setF f v).red = d.red := rfl
@[simp] theorem Dev.setF_fab (d : Dev) (f : Fld) (v : Nat) : (d.setF f v).fab = d.fab := rfl
@[simp] theorem Dev.setF_slu (d : Dev) (f : Fld) (v : Nat) : (d.setF f v).slu = d.slu := rfl
@[simp] theorem Dev.setF_sec (d : Dev) (f : Fld) (v : Nat) : (d.setF f v).sec = d.sec := rfl
@[simp] theorem Dev.setF_ckp (d : Dev) (f : Fld) (v : Nat) : (d.setF f v).ckp = d.ckp := rfl
@[simp] theorem Dev.setF_ldg (d : Dev) (f : Fld) (v : Nat) : (d.setF f v).ldg = d.ldg := rfl
@[simp] theorem Dev.setF_pwr (d : Dev) (f : Fld) (v : Nat) : (d.setF f v).pwr = d.pwr := rfl
@[simp] theorem Dev.setF_flash (d : Dev) (f : Fld) (v : Nat) : (d.setF f v).flash = d.flash := rfl
@[simp] theorem Dev.setF_out (d : Dev) (f : Fld) (v : Nat) : (d.setF f v).out = d.out := rfl
@[simp] theorem Dev.setF_free (d : Dev) (f : Fld) (v : Nat) : (d.setF f v).free = d.free := rfl

@[simp] theorem Dev.incF_clock (d : Dev) (f : Fld) : (d.incF f).clock = d.clock := rfl
@[simp] theorem Dev.incF_pins (d : Dev) (f : Fld) : (d.incF f).pins = d.pins := rfl
@[simp] theorem Dev.incF_inForce (d : Dev) (f : Fld) : (d.incF f).inForce = d.inForce := rfl
@[simp] theorem Dev.incF_live (d : Dev) (f : Fld) : (d.incF f).live = d.live := rfl
@[simp] theorem Dev.incF_rng (d : Dev) (f : Fld) : (d.incF f).rng = d.rng := rfl
@[simp] theorem Dev.incF_step (d : Dev) (f : Fld) : (d.incF f).step = d.step := rfl
@[simp] theorem Dev.incF_tus (d : Dev) (f : Fld) : (d.incF f).tus = d.tus := rfl
@[simp] theorem Dev.incF_tier (d : Dev) (f : Fld) : (d.incF f).tier = d.tier := rfl
@[simp] theorem Dev.incF_kva (d : Dev) (f : Fld) : (d.incF f).kva = d.kva := rfl
@[simp] theorem Dev.incF_ari (d : Dev) (f : Fld) : (d.incF f).ari = d.ari := rfl
@[simp] theorem Dev.incF_plc (d : Dev) (f : Fld) : (d.incF f).plc = d.plc := rfl
@[simp] theorem Dev.incF_tok (d : Dev) (f : Fld) : (d.incF f).tok = d.tok := rfl
@[simp] theorem Dev.incF_red (d : Dev) (f : Fld) : (d.incF f).red = d.red := rfl
@[simp] theorem Dev.incF_fab (d : Dev) (f : Fld) : (d.incF f).fab = d.fab := rfl
@[simp] theorem Dev.incF_slu (d : Dev) (f : Fld) : (d.incF f).slu = d.slu := rfl
@[simp] theorem Dev.incF_sec (d : Dev) (f : Fld) : (d.incF f).sec = d.sec := rfl
@[simp] theorem Dev.incF_ckp (d : Dev) (f : Fld) : (d.incF f).ckp = d.ckp := rfl
@[simp] theorem Dev.incF_ldg (d : Dev) (f : Fld) : (d.incF f).ldg = d.ldg := rfl
@[simp] theorem Dev.incF_pwr (d : Dev) (f : Fld) : (d.incF f).pwr = d.pwr := rfl
@[simp] theorem Dev.incF_flash (d : Dev) (f : Fld) : (d.incF f).flash = d.flash := rfl
@[simp] theorem Dev.incF_out (d : Dev) (f : Fld) : (d.incF f).out = d.out := rfl
@[simp] theorem Dev.incF_free (d : Dev) (f : Fld) : (d.incF f).free = d.free := rfl

@[simp] theorem Dev.addF_clock (d : Dev) (f : Fld) (n : Nat) : (d.addF f n).clock = d.clock := rfl
@[simp] theorem Dev.addF_pins (d : Dev) (f : Fld) (n : Nat) : (d.addF f n).pins = d.pins := rfl
@[simp] theorem Dev.addF_inForce (d : Dev) (f : Fld) (n : Nat) : (d.addF f n).inForce = d.inForce := rfl
@[simp] theorem Dev.addF_live (d : Dev) (f : Fld) (n : Nat) : (d.addF f n).live = d.live := rfl
@[simp] theorem Dev.addF_rng (d : Dev) (f : Fld) (n : Nat) : (d.addF f n).rng = d.rng := rfl
@[simp] theorem Dev.addF_step (d : Dev) (f : Fld) (n : Nat) : (d.addF f n).step = d.step := rfl
@[simp] theorem Dev.addF_tus (d : Dev) (f : Fld) (n : Nat) : (d.addF f n).tus = d.tus := rfl
@[simp] theorem Dev.addF_tier (d : Dev) (f : Fld) (n : Nat) : (d.addF f n).tier = d.tier := rfl
@[simp] theorem Dev.addF_kva (d : Dev) (f : Fld) (n : Nat) : (d.addF f n).kva = d.kva := rfl
@[simp] theorem Dev.addF_ari (d : Dev) (f : Fld) (n : Nat) : (d.addF f n).ari = d.ari := rfl
@[simp] theorem Dev.addF_plc (d : Dev) (f : Fld) (n : Nat) : (d.addF f n).plc = d.plc := rfl
@[simp] theorem Dev.addF_tok (d : Dev) (f : Fld) (n : Nat) : (d.addF f n).tok = d.tok := rfl
@[simp] theorem Dev.addF_red (d : Dev) (f : Fld) (n : Nat) : (d.addF f n).red = d.red := rfl
@[simp] theorem Dev.addF_fab (d : Dev) (f : Fld) (n : Nat) : (d.addF f n).fab = d.fab := rfl
@[simp] theorem Dev.addF_slu (d : Dev) (f : Fld) (n : Nat) : (d.addF f n).slu = d.slu := rfl
@[simp] theorem Dev.addF_sec (d : Dev) (f : Fld) (n : Nat) : (d.addF f n).sec = d.sec := rfl
@[simp] theorem Dev.addF_ckp (d : Dev) (f : Fld) (n : Nat) : (d.addF f n).ckp = d.ckp := rfl
@[simp] theorem Dev.addF_ldg (d : Dev) (f : Fld) (n : Nat) : (d.addF f n).ldg = d.ldg := rfl
@[simp] theorem Dev.addF_pwr (d : Dev) (f : Fld) (n : Nat) : (d.addF f n).pwr = d.pwr := rfl
@[simp] theorem Dev.addF_flash (d : Dev) (f : Fld) (n : Nat) : (d.addF f n).flash = d.flash := rfl
@[simp] theorem Dev.addF_out (d : Dev) (f : Fld) (n : Nat) : (d.addF f n).out = d.out := rfl
@[simp] theorem Dev.addF_free (d : Dev) (f : Fld) (n : Nat) : (d.addF f n).free = d.free := rfl

@[simp] theorem Dev.flag_clock (d : Dev) (f c : Fld) : (d.flag f c).clock = d.clock := rfl
@[simp] theorem Dev.flag_pins (d : Dev) (f c : Fld) : (d.flag f c).pins = d.pins := rfl
@[simp] theorem Dev.flag_inForce (d : Dev) (f c : Fld) : (d.flag f c).inForce = d.inForce := rfl
@[simp] theorem Dev.flag_live (d : Dev) (f c : Fld) : (d.flag f c).live = d.live := rfl
@[simp] theorem Dev.flag_rng (d : Dev) (f c : Fld) : (d.flag f c).rng = d.rng := rfl
@[simp] theorem Dev.flag_step (d : Dev) (f c : Fld) : (d.flag f c).step = d.step := rfl
@[simp] theorem Dev.flag_tus (d : Dev) (f c : Fld) : (d.flag f c).tus = d.tus := rfl
@[simp] theorem Dev.flag_tier (d : Dev) (f c : Fld) : (d.flag f c).tier = d.tier := rfl
@[simp] theorem Dev.flag_kva (d : Dev) (f c : Fld) : (d.flag f c).kva = d.kva := rfl
@[simp] theorem Dev.flag_ari (d : Dev) (f c : Fld) : (d.flag f c).ari = d.ari := rfl
@[simp] theorem Dev.flag_plc (d : Dev) (f c : Fld) : (d.flag f c).plc = d.plc := rfl
@[simp] theorem Dev.flag_tok (d : Dev) (f c : Fld) : (d.flag f c).tok = d.tok := rfl
@[simp] theorem Dev.flag_red (d : Dev) (f c : Fld) : (d.flag f c).red = d.red := rfl
@[simp] theorem Dev.flag_fab (d : Dev) (f c : Fld) : (d.flag f c).fab = d.fab := rfl
@[simp] theorem Dev.flag_slu (d : Dev) (f c : Fld) : (d.flag f c).slu = d.slu := rfl
@[simp] theorem Dev.flag_sec (d : Dev) (f c : Fld) : (d.flag f c).sec = d.sec := rfl
@[simp] theorem Dev.flag_ckp (d : Dev) (f c : Fld) : (d.flag f c).ckp = d.ckp := rfl
@[simp] theorem Dev.flag_ldg (d : Dev) (f c : Fld) : (d.flag f c).ldg = d.ldg := rfl
@[simp] theorem Dev.flag_pwr (d : Dev) (f c : Fld) : (d.flag f c).pwr = d.pwr := rfl
@[simp] theorem Dev.flag_flash (d : Dev) (f c : Fld) : (d.flag f c).flash = d.flash := rfl
@[simp] theorem Dev.flag_out (d : Dev) (f c : Fld) : (d.flag f c).out = d.out := rfl
@[simp] theorem Dev.flag_free (d : Dev) (f c : Fld) : (d.flag f c).free = d.free := rfl

@[simp] theorem Dev.setPhase_clock (d : Dev) (p v : Nat) : (d.setPhase p v).clock = d.clock := rfl
@[simp] theorem Dev.setPhase_pins (d : Dev) (p v : Nat) : (d.setPhase p v).pins = d.pins := rfl
@[simp] theorem Dev.setPhase_inForce (d : Dev) (p v : Nat) : (d.setPhase p v).inForce = d.inForce := rfl
@[simp] theorem Dev.setPhase_live (d : Dev) (p v : Nat) : (d.setPhase p v).live = d.live := rfl
@[simp] theorem Dev.setPhase_rng (d : Dev) (p v : Nat) : (d.setPhase p v).rng = d.rng := rfl
@[simp] theorem Dev.setPhase_step (d : Dev) (p v : Nat) : (d.setPhase p v).step = d.step := rfl
@[simp] theorem Dev.setPhase_tus (d : Dev) (p v : Nat) : (d.setPhase p v).tus = d.tus := rfl
@[simp] theorem Dev.setPhase_tier (d : Dev) (p v : Nat) : (d.setPhase p v).tier = d.tier := rfl
@[simp] theorem Dev.setPhase_kva (d : Dev) (p v : Nat) : (d.setPhase p v).kva = d.kva := rfl
@[simp] theorem Dev.setPhase_ari (d : Dev) (p v : Nat) : (d.setPhase p v).ari = d.ari := rfl
@[simp] theorem Dev.setPhase_plc (d : Dev) (p v : Nat) : (d.setPhase p v).plc = d.plc := rfl
@[simp] theorem Dev.setPhase_tok (d : Dev) (p v : Nat) : (d.setPhase p v).tok = d.tok := rfl
@[simp] theorem Dev.setPhase_red (d : Dev) (p v : Nat) : (d.setPhase p v).red = d.red := rfl
@[simp] theorem Dev.setPhase_fab (d : Dev) (p v : Nat) : (d.setPhase p v).fab = d.fab := rfl
@[simp] theorem Dev.setPhase_slu (d : Dev) (p v : Nat) : (d.setPhase p v).slu = d.slu := rfl
@[simp] theorem Dev.setPhase_sec (d : Dev) (p v : Nat) : (d.setPhase p v).sec = d.sec := rfl
@[simp] theorem Dev.setPhase_ckp (d : Dev) (p v : Nat) : (d.setPhase p v).ckp = d.ckp := rfl
@[simp] theorem Dev.setPhase_ldg (d : Dev) (p v : Nat) : (d.setPhase p v).ldg = d.ldg := rfl
@[simp] theorem Dev.setPhase_pwr (d : Dev) (p v : Nat) : (d.setPhase p v).pwr = d.pwr := rfl
@[simp] theorem Dev.setPhase_flash (d : Dev) (p v : Nat) : (d.setPhase p v).flash = d.flash := rfl
@[simp] theorem Dev.setPhase_out (d : Dev) (p v : Nat) : (d.setPhase p v).out = d.out := rfl
@[simp] theorem Dev.setPhase_free (d : Dev) (p v : Nat) : (d.setPhase p v).free = d.free := rfl

@[simp] theorem Dev.setL_clock (d : Dev) (f : Fld) (v : Nat) : (d.setL f v).clock = d.clock := rfl
@[simp] theorem Dev.setL_pins (d : Dev) (f : Fld) (v : Nat) : (d.setL f v).pins = d.pins := rfl
@[simp] theorem Dev.setL_regs (d : Dev) (f : Fld) (v : Nat) : (d.setL f v).regs = d.regs := rfl
@[simp] theorem Dev.setL_inForce (d : Dev) (f : Fld) (v : Nat) : (d.setL f v).inForce = d.inForce := rfl
@[simp] theorem Dev.setL_rng (d : Dev) (f : Fld) (v : Nat) : (d.setL f v).rng = d.rng := rfl
@[simp] theorem Dev.setL_step (d : Dev) (f : Fld) (v : Nat) : (d.setL f v).step = d.step := rfl
@[simp] theorem Dev.setL_tus (d : Dev) (f : Fld) (v : Nat) : (d.setL f v).tus = d.tus := rfl
@[simp] theorem Dev.setL_tier (d : Dev) (f : Fld) (v : Nat) : (d.setL f v).tier = d.tier := rfl
@[simp] theorem Dev.setL_kva (d : Dev) (f : Fld) (v : Nat) : (d.setL f v).kva = d.kva := rfl
@[simp] theorem Dev.setL_ari (d : Dev) (f : Fld) (v : Nat) : (d.setL f v).ari = d.ari := rfl
@[simp] theorem Dev.setL_plc (d : Dev) (f : Fld) (v : Nat) : (d.setL f v).plc = d.plc := rfl
@[simp] theorem Dev.setL_tok (d : Dev) (f : Fld) (v : Nat) : (d.setL f v).tok = d.tok := rfl
@[simp] theorem Dev.setL_red (d : Dev) (f : Fld) (v : Nat) : (d.setL f v).red = d.red := rfl
@[simp] theorem Dev.setL_fab (d : Dev) (f : Fld) (v : Nat) : (d.setL f v).fab = d.fab := rfl
@[simp] theorem Dev.setL_slu (d : Dev) (f : Fld) (v : Nat) : (d.setL f v).slu = d.slu := rfl
@[simp] theorem Dev.setL_sec (d : Dev) (f : Fld) (v : Nat) : (d.setL f v).sec = d.sec := rfl
@[simp] theorem Dev.setL_ckp (d : Dev) (f : Fld) (v : Nat) : (d.setL f v).ckp = d.ckp := rfl
@[simp] theorem Dev.setL_ldg (d : Dev) (f : Fld) (v : Nat) : (d.setL f v).ldg = d.ldg := rfl
@[simp] theorem Dev.setL_pwr (d : Dev) (f : Fld) (v : Nat) : (d.setL f v).pwr = d.pwr := rfl
@[simp] theorem Dev.setL_flash (d : Dev) (f : Fld) (v : Nat) : (d.setL f v).flash = d.flash := rfl
@[simp] theorem Dev.setL_out (d : Dev) (f : Fld) (v : Nat) : (d.setL f v).out = d.out := rfl
@[simp] theorem Dev.setL_free (d : Dev) (f : Fld) (v : Nat) : (d.setL f v).free = d.free := rfl

@[simp] theorem Dev.satL_clock (d : Dev) (f : Fld) (n : Nat) : (d.satL f n).clock = d.clock := rfl
@[simp] theorem Dev.satL_pins (d : Dev) (f : Fld) (n : Nat) : (d.satL f n).pins = d.pins := rfl
@[simp] theorem Dev.satL_regs (d : Dev) (f : Fld) (n : Nat) : (d.satL f n).regs = d.regs := rfl
@[simp] theorem Dev.satL_inForce (d : Dev) (f : Fld) (n : Nat) : (d.satL f n).inForce = d.inForce := rfl
@[simp] theorem Dev.satL_rng (d : Dev) (f : Fld) (n : Nat) : (d.satL f n).rng = d.rng := rfl
@[simp] theorem Dev.satL_step (d : Dev) (f : Fld) (n : Nat) : (d.satL f n).step = d.step := rfl
@[simp] theorem Dev.satL_tus (d : Dev) (f : Fld) (n : Nat) : (d.satL f n).tus = d.tus := rfl
@[simp] theorem Dev.satL_tier (d : Dev) (f : Fld) (n : Nat) : (d.satL f n).tier = d.tier := rfl
@[simp] theorem Dev.satL_kva (d : Dev) (f : Fld) (n : Nat) : (d.satL f n).kva = d.kva := rfl
@[simp] theorem Dev.satL_ari (d : Dev) (f : Fld) (n : Nat) : (d.satL f n).ari = d.ari := rfl
@[simp] theorem Dev.satL_plc (d : Dev) (f : Fld) (n : Nat) : (d.satL f n).plc = d.plc := rfl
@[simp] theorem Dev.satL_tok (d : Dev) (f : Fld) (n : Nat) : (d.satL f n).tok = d.tok := rfl
@[simp] theorem Dev.satL_red (d : Dev) (f : Fld) (n : Nat) : (d.satL f n).red = d.red := rfl
@[simp] theorem Dev.satL_fab (d : Dev) (f : Fld) (n : Nat) : (d.satL f n).fab = d.fab := rfl
@[simp] theorem Dev.satL_slu (d : Dev) (f : Fld) (n : Nat) : (d.satL f n).slu = d.slu := rfl
@[simp] theorem Dev.satL_sec (d : Dev) (f : Fld) (n : Nat) : (d.satL f n).sec = d.sec := rfl
@[simp] theorem Dev.satL_ckp (d : Dev) (f : Fld) (n : Nat) : (d.satL f n).ckp = d.ckp := rfl
@[simp] theorem Dev.satL_ldg (d : Dev) (f : Fld) (n : Nat) : (d.satL f n).ldg = d.ldg := rfl
@[simp] theorem Dev.satL_pwr (d : Dev) (f : Fld) (n : Nat) : (d.satL f n).pwr = d.pwr := rfl
@[simp] theorem Dev.satL_flash (d : Dev) (f : Fld) (n : Nat) : (d.satL f n).flash = d.flash := rfl
@[simp] theorem Dev.satL_out (d : Dev) (f : Fld) (n : Nat) : (d.satL f n).out = d.out := rfl
@[simp] theorem Dev.satL_free (d : Dev) (f : Fld) (n : Nat) : (d.satL f n).free = d.free := rfl

@[simp] theorem Dev.modStep_clock (d : Dev) (p : Nat) (g : StepP → StepP) : (d.modStep p g).clock = d.clock := rfl
@[simp] theorem Dev.modStep_pins (d : Dev) (p : Nat) (g : StepP → StepP) : (d.modStep p g).pins = d.pins := rfl
@[simp] theorem Dev.modStep_regs (d : Dev) (p : Nat) (g : StepP → StepP) : (d.modStep p g).regs = d.regs := rfl
@[simp] theorem Dev.modStep_inForce (d : Dev) (p : Nat) (g : StepP → StepP) : (d.modStep p g).inForce = d.inForce := rfl
@[simp] theorem Dev.modStep_live (d : Dev) (p : Nat) (g : StepP → StepP) : (d.modStep p g).live = d.live := rfl
@[simp] theorem Dev.modStep_rng (d : Dev) (p : Nat) (g : StepP → StepP) : (d.modStep p g).rng = d.rng := rfl
@[simp] theorem Dev.modStep_tus (d : Dev) (p : Nat) (g : StepP → StepP) : (d.modStep p g).tus = d.tus := rfl
@[simp] theorem Dev.modStep_tier (d : Dev) (p : Nat) (g : StepP → StepP) : (d.modStep p g).tier = d.tier := rfl
@[simp] theorem Dev.modStep_kva (d : Dev) (p : Nat) (g : StepP → StepP) : (d.modStep p g).kva = d.kva := rfl
@[simp] theorem Dev.modStep_ari (d : Dev) (p : Nat) (g : StepP → StepP) : (d.modStep p g).ari = d.ari := rfl
@[simp] theorem Dev.modStep_plc (d : Dev) (p : Nat) (g : StepP → StepP) : (d.modStep p g).plc = d.plc := rfl
@[simp] theorem Dev.modStep_tok (d : Dev) (p : Nat) (g : StepP → StepP) : (d.modStep p g).tok = d.tok := rfl
@[simp] theorem Dev.modStep_red (d : Dev) (p : Nat) (g : StepP → StepP) : (d.modStep p g).red = d.red := rfl
@[simp] theorem Dev.modStep_fab (d : Dev) (p : Nat) (g : StepP → StepP) : (d.modStep p g).fab = d.fab := rfl
@[simp] theorem Dev.modStep_slu (d : Dev) (p : Nat) (g : StepP → StepP) : (d.modStep p g).slu = d.slu := rfl
@[simp] theorem Dev.modStep_sec (d : Dev) (p : Nat) (g : StepP → StepP) : (d.modStep p g).sec = d.sec := rfl
@[simp] theorem Dev.modStep_ckp (d : Dev) (p : Nat) (g : StepP → StepP) : (d.modStep p g).ckp = d.ckp := rfl
@[simp] theorem Dev.modStep_ldg (d : Dev) (p : Nat) (g : StepP → StepP) : (d.modStep p g).ldg = d.ldg := rfl
@[simp] theorem Dev.modStep_pwr (d : Dev) (p : Nat) (g : StepP → StepP) : (d.modStep p g).pwr = d.pwr := rfl
@[simp] theorem Dev.modStep_flash (d : Dev) (p : Nat) (g : StepP → StepP) : (d.modStep p g).flash = d.flash := rfl
@[simp] theorem Dev.modStep_out (d : Dev) (p : Nat) (g : StepP → StepP) : (d.modStep p g).out = d.out := rfl
@[simp] theorem Dev.modStep_free (d : Dev) (p : Nat) (g : StepP → StepP) : (d.modStep p g).free = d.free := rfl

@[simp] theorem Dev.setVec_clock (d : Dev) (v : Nat) (x : Vec) : (d.setVec v x).clock = d.clock := rfl
@[simp] theorem Dev.setVec_pins (d : Dev) (v : Nat) (x : Vec) : (d.setVec v x).pins = d.pins := rfl
@[simp] theorem Dev.setVec_regs (d : Dev) (v : Nat) (x : Vec) : (d.setVec v x).regs = d.regs := rfl
@[simp] theorem Dev.setVec_inForce (d : Dev) (v : Nat) (x : Vec) : (d.setVec v x).inForce = d.inForce := rfl
@[simp] theorem Dev.setVec_live (d : Dev) (v : Nat) (x : Vec) : (d.setVec v x).live = d.live := rfl
@[simp] theorem Dev.setVec_step (d : Dev) (v : Nat) (x : Vec) : (d.setVec v x).step = d.step := rfl
@[simp] theorem Dev.setVec_tus (d : Dev) (v : Nat) (x : Vec) : (d.setVec v x).tus = d.tus := rfl
@[simp] theorem Dev.setVec_tier (d : Dev) (v : Nat) (x : Vec) : (d.setVec v x).tier = d.tier := rfl
@[simp] theorem Dev.setVec_kva (d : Dev) (v : Nat) (x : Vec) : (d.setVec v x).kva = d.kva := rfl
@[simp] theorem Dev.setVec_ari (d : Dev) (v : Nat) (x : Vec) : (d.setVec v x).ari = d.ari := rfl
@[simp] theorem Dev.setVec_plc (d : Dev) (v : Nat) (x : Vec) : (d.setVec v x).plc = d.plc := rfl
@[simp] theorem Dev.setVec_tok (d : Dev) (v : Nat) (x : Vec) : (d.setVec v x).tok = d.tok := rfl
@[simp] theorem Dev.setVec_red (d : Dev) (v : Nat) (x : Vec) : (d.setVec v x).red = d.red := rfl
@[simp] theorem Dev.setVec_fab (d : Dev) (v : Nat) (x : Vec) : (d.setVec v x).fab = d.fab := rfl
@[simp] theorem Dev.setVec_slu (d : Dev) (v : Nat) (x : Vec) : (d.setVec v x).slu = d.slu := rfl
@[simp] theorem Dev.setVec_sec (d : Dev) (v : Nat) (x : Vec) : (d.setVec v x).sec = d.sec := rfl
@[simp] theorem Dev.setVec_ckp (d : Dev) (v : Nat) (x : Vec) : (d.setVec v x).ckp = d.ckp := rfl
@[simp] theorem Dev.setVec_ldg (d : Dev) (v : Nat) (x : Vec) : (d.setVec v x).ldg = d.ldg := rfl
@[simp] theorem Dev.setVec_pwr (d : Dev) (v : Nat) (x : Vec) : (d.setVec v x).pwr = d.pwr := rfl
@[simp] theorem Dev.setVec_flash (d : Dev) (v : Nat) (x : Vec) : (d.setVec v x).flash = d.flash := rfl
@[simp] theorem Dev.setVec_out (d : Dev) (v : Nat) (x : Vec) : (d.setVec v x).out = d.out := rfl
@[simp] theorem Dev.setVec_free (d : Dev) (v : Nat) (x : Vec) : (d.setVec v x).free = d.free := rfl

@[simp] theorem Dev.modPr_clock (d : Dev) (p : Nat) (g : PartRing → PartRing) : (d.modPr p g).clock = d.clock := rfl
@[simp] theorem Dev.modPr_pins (d : Dev) (p : Nat) (g : PartRing → PartRing) : (d.modPr p g).pins = d.pins := rfl
@[simp] theorem Dev.modPr_regs (d : Dev) (p : Nat) (g : PartRing → PartRing) : (d.modPr p g).regs = d.regs := rfl
@[simp] theorem Dev.modPr_inForce (d : Dev) (p : Nat) (g : PartRing → PartRing) : (d.modPr p g).inForce = d.inForce := rfl
@[simp] theorem Dev.modPr_live (d : Dev) (p : Nat) (g : PartRing → PartRing) : (d.modPr p g).live = d.live := rfl
@[simp] theorem Dev.modPr_step (d : Dev) (p : Nat) (g : PartRing → PartRing) : (d.modPr p g).step = d.step := rfl
@[simp] theorem Dev.modPr_tus (d : Dev) (p : Nat) (g : PartRing → PartRing) : (d.modPr p g).tus = d.tus := rfl
@[simp] theorem Dev.modPr_tier (d : Dev) (p : Nat) (g : PartRing → PartRing) : (d.modPr p g).tier = d.tier := rfl
@[simp] theorem Dev.modPr_kva (d : Dev) (p : Nat) (g : PartRing → PartRing) : (d.modPr p g).kva = d.kva := rfl
@[simp] theorem Dev.modPr_ari (d : Dev) (p : Nat) (g : PartRing → PartRing) : (d.modPr p g).ari = d.ari := rfl
@[simp] theorem Dev.modPr_plc (d : Dev) (p : Nat) (g : PartRing → PartRing) : (d.modPr p g).plc = d.plc := rfl
@[simp] theorem Dev.modPr_tok (d : Dev) (p : Nat) (g : PartRing → PartRing) : (d.modPr p g).tok = d.tok := rfl
@[simp] theorem Dev.modPr_red (d : Dev) (p : Nat) (g : PartRing → PartRing) : (d.modPr p g).red = d.red := rfl
@[simp] theorem Dev.modPr_fab (d : Dev) (p : Nat) (g : PartRing → PartRing) : (d.modPr p g).fab = d.fab := rfl
@[simp] theorem Dev.modPr_slu (d : Dev) (p : Nat) (g : PartRing → PartRing) : (d.modPr p g).slu = d.slu := rfl
@[simp] theorem Dev.modPr_sec (d : Dev) (p : Nat) (g : PartRing → PartRing) : (d.modPr p g).sec = d.sec := rfl
@[simp] theorem Dev.modPr_ckp (d : Dev) (p : Nat) (g : PartRing → PartRing) : (d.modPr p g).ckp = d.ckp := rfl
@[simp] theorem Dev.modPr_ldg (d : Dev) (p : Nat) (g : PartRing → PartRing) : (d.modPr p g).ldg = d.ldg := rfl
@[simp] theorem Dev.modPr_pwr (d : Dev) (p : Nat) (g : PartRing → PartRing) : (d.modPr p g).pwr = d.pwr := rfl
@[simp] theorem Dev.modPr_flash (d : Dev) (p : Nat) (g : PartRing → PartRing) : (d.modPr p g).flash = d.flash := rfl
@[simp] theorem Dev.modPr_out (d : Dev) (p : Nat) (g : PartRing → PartRing) : (d.modPr p g).out = d.out := rfl
@[simp] theorem Dev.modPr_free (d : Dev) (p : Nat) (g : PartRing → PartRing) : (d.modPr p g).free = d.free := rfl

@[simp] theorem Dev.setRing_clock (d : Dev) (n : Nat) (r : Ring) : (d.setRing n r).clock = d.clock := rfl
@[simp] theorem Dev.setRing_pins (d : Dev) (n : Nat) (r : Ring) : (d.setRing n r).pins = d.pins := rfl
@[simp] theorem Dev.setRing_regs (d : Dev) (n : Nat) (r : Ring) : (d.setRing n r).regs = d.regs := rfl
@[simp] theorem Dev.setRing_inForce (d : Dev) (n : Nat) (r : Ring) : (d.setRing n r).inForce = d.inForce := rfl
@[simp] theorem Dev.setRing_live (d : Dev) (n : Nat) (r : Ring) : (d.setRing n r).live = d.live := rfl
@[simp] theorem Dev.setRing_step (d : Dev) (n : Nat) (r : Ring) : (d.setRing n r).step = d.step := rfl
@[simp] theorem Dev.setRing_tus (d : Dev) (n : Nat) (r : Ring) : (d.setRing n r).tus = d.tus := rfl
@[simp] theorem Dev.setRing_tier (d : Dev) (n : Nat) (r : Ring) : (d.setRing n r).tier = d.tier := rfl
@[simp] theorem Dev.setRing_kva (d : Dev) (n : Nat) (r : Ring) : (d.setRing n r).kva = d.kva := rfl
@[simp] theorem Dev.setRing_ari (d : Dev) (n : Nat) (r : Ring) : (d.setRing n r).ari = d.ari := rfl
@[simp] theorem Dev.setRing_plc (d : Dev) (n : Nat) (r : Ring) : (d.setRing n r).plc = d.plc := rfl
@[simp] theorem Dev.setRing_tok (d : Dev) (n : Nat) (r : Ring) : (d.setRing n r).tok = d.tok := rfl
@[simp] theorem Dev.setRing_red (d : Dev) (n : Nat) (r : Ring) : (d.setRing n r).red = d.red := rfl
@[simp] theorem Dev.setRing_fab (d : Dev) (n : Nat) (r : Ring) : (d.setRing n r).fab = d.fab := rfl
@[simp] theorem Dev.setRing_slu (d : Dev) (n : Nat) (r : Ring) : (d.setRing n r).slu = d.slu := rfl
@[simp] theorem Dev.setRing_sec (d : Dev) (n : Nat) (r : Ring) : (d.setRing n r).sec = d.sec := rfl
@[simp] theorem Dev.setRing_ckp (d : Dev) (n : Nat) (r : Ring) : (d.setRing n r).ckp = d.ckp := rfl
@[simp] theorem Dev.setRing_ldg (d : Dev) (n : Nat) (r : Ring) : (d.setRing n r).ldg = d.ldg := rfl
@[simp] theorem Dev.setRing_pwr (d : Dev) (n : Nat) (r : Ring) : (d.setRing n r).pwr = d.pwr := rfl
@[simp] theorem Dev.setRing_flash (d : Dev) (n : Nat) (r : Ring) : (d.setRing n r).flash = d.flash := rfl
@[simp] theorem Dev.setRing_out (d : Dev) (n : Nat) (r : Ring) : (d.setRing n r).out = d.out := rfl
@[simp] theorem Dev.setRing_free (d : Dev) (n : Nat) (r : Ring) : (d.setRing n r).free = d.free := rfl

@[simp] theorem Dev.modDesc_clock (d : Dev) (k : Nat) (g : DescEntry → DescEntry) : (d.modDesc k g).clock = d.clock := rfl
@[simp] theorem Dev.modDesc_pins (d : Dev) (k : Nat) (g : DescEntry → DescEntry) : (d.modDesc k g).pins = d.pins := rfl
@[simp] theorem Dev.modDesc_regs (d : Dev) (k : Nat) (g : DescEntry → DescEntry) : (d.modDesc k g).regs = d.regs := rfl
@[simp] theorem Dev.modDesc_inForce (d : Dev) (k : Nat) (g : DescEntry → DescEntry) : (d.modDesc k g).inForce = d.inForce := rfl
@[simp] theorem Dev.modDesc_live (d : Dev) (k : Nat) (g : DescEntry → DescEntry) : (d.modDesc k g).live = d.live := rfl
@[simp] theorem Dev.modDesc_step (d : Dev) (k : Nat) (g : DescEntry → DescEntry) : (d.modDesc k g).step = d.step := rfl
@[simp] theorem Dev.modDesc_tus (d : Dev) (k : Nat) (g : DescEntry → DescEntry) : (d.modDesc k g).tus = d.tus := rfl
@[simp] theorem Dev.modDesc_tier (d : Dev) (k : Nat) (g : DescEntry → DescEntry) : (d.modDesc k g).tier = d.tier := rfl
@[simp] theorem Dev.modDesc_kva (d : Dev) (k : Nat) (g : DescEntry → DescEntry) : (d.modDesc k g).kva = d.kva := rfl
@[simp] theorem Dev.modDesc_ari (d : Dev) (k : Nat) (g : DescEntry → DescEntry) : (d.modDesc k g).ari = d.ari := rfl
@[simp] theorem Dev.modDesc_plc (d : Dev) (k : Nat) (g : DescEntry → DescEntry) : (d.modDesc k g).plc = d.plc := rfl
@[simp] theorem Dev.modDesc_tok (d : Dev) (k : Nat) (g : DescEntry → DescEntry) : (d.modDesc k g).tok = d.tok := rfl
@[simp] theorem Dev.modDesc_red (d : Dev) (k : Nat) (g : DescEntry → DescEntry) : (d.modDesc k g).red = d.red := rfl
@[simp] theorem Dev.modDesc_fab (d : Dev) (k : Nat) (g : DescEntry → DescEntry) : (d.modDesc k g).fab = d.fab := rfl
@[simp] theorem Dev.modDesc_slu (d : Dev) (k : Nat) (g : DescEntry → DescEntry) : (d.modDesc k g).slu = d.slu := rfl
@[simp] theorem Dev.modDesc_sec (d : Dev) (k : Nat) (g : DescEntry → DescEntry) : (d.modDesc k g).sec = d.sec := rfl
@[simp] theorem Dev.modDesc_ckp (d : Dev) (k : Nat) (g : DescEntry → DescEntry) : (d.modDesc k g).ckp = d.ckp := rfl
@[simp] theorem Dev.modDesc_ldg (d : Dev) (k : Nat) (g : DescEntry → DescEntry) : (d.modDesc k g).ldg = d.ldg := rfl
@[simp] theorem Dev.modDesc_pwr (d : Dev) (k : Nat) (g : DescEntry → DescEntry) : (d.modDesc k g).pwr = d.pwr := rfl
@[simp] theorem Dev.modDesc_flash (d : Dev) (k : Nat) (g : DescEntry → DescEntry) : (d.modDesc k g).flash = d.flash := rfl
@[simp] theorem Dev.modDesc_out (d : Dev) (k : Nat) (g : DescEntry → DescEntry) : (d.modDesc k g).out = d.out := rfl
@[simp] theorem Dev.modDesc_free (d : Dev) (k : Nat) (g : DescEntry → DescEntry) : (d.modDesc k g).free = d.free := rfl

@[simp] theorem Dev.wait_clock (d : Dev) (k : Nat) (w : Wait) : (d.wait k w).clock = d.clock := rfl
@[simp] theorem Dev.wait_pins (d : Dev) (k : Nat) (w : Wait) : (d.wait k w).pins = d.pins := rfl
@[simp] theorem Dev.wait_regs (d : Dev) (k : Nat) (w : Wait) : (d.wait k w).regs = d.regs := rfl
@[simp] theorem Dev.wait_inForce (d : Dev) (k : Nat) (w : Wait) : (d.wait k w).inForce = d.inForce := rfl
@[simp] theorem Dev.wait_live (d : Dev) (k : Nat) (w : Wait) : (d.wait k w).live = d.live := rfl
@[simp] theorem Dev.wait_step (d : Dev) (k : Nat) (w : Wait) : (d.wait k w).step = d.step := rfl
@[simp] theorem Dev.wait_tus (d : Dev) (k : Nat) (w : Wait) : (d.wait k w).tus = d.tus := rfl
@[simp] theorem Dev.wait_tier (d : Dev) (k : Nat) (w : Wait) : (d.wait k w).tier = d.tier := rfl
@[simp] theorem Dev.wait_kva (d : Dev) (k : Nat) (w : Wait) : (d.wait k w).kva = d.kva := rfl
@[simp] theorem Dev.wait_ari (d : Dev) (k : Nat) (w : Wait) : (d.wait k w).ari = d.ari := rfl
@[simp] theorem Dev.wait_plc (d : Dev) (k : Nat) (w : Wait) : (d.wait k w).plc = d.plc := rfl
@[simp] theorem Dev.wait_tok (d : Dev) (k : Nat) (w : Wait) : (d.wait k w).tok = d.tok := rfl
@[simp] theorem Dev.wait_red (d : Dev) (k : Nat) (w : Wait) : (d.wait k w).red = d.red := rfl
@[simp] theorem Dev.wait_fab (d : Dev) (k : Nat) (w : Wait) : (d.wait k w).fab = d.fab := rfl
@[simp] theorem Dev.wait_slu (d : Dev) (k : Nat) (w : Wait) : (d.wait k w).slu = d.slu := rfl
@[simp] theorem Dev.wait_sec (d : Dev) (k : Nat) (w : Wait) : (d.wait k w).sec = d.sec := rfl
@[simp] theorem Dev.wait_ckp (d : Dev) (k : Nat) (w : Wait) : (d.wait k w).ckp = d.ckp := rfl
@[simp] theorem Dev.wait_ldg (d : Dev) (k : Nat) (w : Wait) : (d.wait k w).ldg = d.ldg := rfl
@[simp] theorem Dev.wait_pwr (d : Dev) (k : Nat) (w : Wait) : (d.wait k w).pwr = d.pwr := rfl
@[simp] theorem Dev.wait_flash (d : Dev) (k : Nat) (w : Wait) : (d.wait k w).flash = d.flash := rfl
@[simp] theorem Dev.wait_out (d : Dev) (k : Nat) (w : Wait) : (d.wait k w).out = d.out := rfl
@[simp] theorem Dev.wait_free (d : Dev) (k : Nat) (w : Wait) : (d.wait k w).free = d.free := rfl

@[simp] theorem Dev.setLed_clock (d : Dev) (c i : Nat) (l : Ledger) : (d.setLed c i l).clock = d.clock := rfl
@[simp] theorem Dev.setLed_pins (d : Dev) (c i : Nat) (l : Ledger) : (d.setLed c i l).pins = d.pins := rfl
@[simp] theorem Dev.setLed_regs (d : Dev) (c i : Nat) (l : Ledger) : (d.setLed c i l).regs = d.regs := rfl
@[simp] theorem Dev.setLed_inForce (d : Dev) (c i : Nat) (l : Ledger) : (d.setLed c i l).inForce = d.inForce := rfl
@[simp] theorem Dev.setLed_live (d : Dev) (c i : Nat) (l : Ledger) : (d.setLed c i l).live = d.live := rfl
@[simp] theorem Dev.setLed_rng (d : Dev) (c i : Nat) (l : Ledger) : (d.setLed c i l).rng = d.rng := rfl
@[simp] theorem Dev.setLed_step (d : Dev) (c i : Nat) (l : Ledger) : (d.setLed c i l).step = d.step := rfl
@[simp] theorem Dev.setLed_tus (d : Dev) (c i : Nat) (l : Ledger) : (d.setLed c i l).tus = d.tus := rfl
@[simp] theorem Dev.setLed_tier (d : Dev) (c i : Nat) (l : Ledger) : (d.setLed c i l).tier = d.tier := rfl
@[simp] theorem Dev.setLed_kva (d : Dev) (c i : Nat) (l : Ledger) : (d.setLed c i l).kva = d.kva := rfl
@[simp] theorem Dev.setLed_ari (d : Dev) (c i : Nat) (l : Ledger) : (d.setLed c i l).ari = d.ari := rfl
@[simp] theorem Dev.setLed_plc (d : Dev) (c i : Nat) (l : Ledger) : (d.setLed c i l).plc = d.plc := rfl
@[simp] theorem Dev.setLed_tok (d : Dev) (c i : Nat) (l : Ledger) : (d.setLed c i l).tok = d.tok := rfl
@[simp] theorem Dev.setLed_red (d : Dev) (c i : Nat) (l : Ledger) : (d.setLed c i l).red = d.red := rfl
@[simp] theorem Dev.setLed_fab (d : Dev) (c i : Nat) (l : Ledger) : (d.setLed c i l).fab = d.fab := rfl
@[simp] theorem Dev.setLed_slu (d : Dev) (c i : Nat) (l : Ledger) : (d.setLed c i l).slu = d.slu := rfl
@[simp] theorem Dev.setLed_sec (d : Dev) (c i : Nat) (l : Ledger) : (d.setLed c i l).sec = d.sec := rfl
@[simp] theorem Dev.setLed_ckp (d : Dev) (c i : Nat) (l : Ledger) : (d.setLed c i l).ckp = d.ckp := rfl
@[simp] theorem Dev.setLed_pwr (d : Dev) (c i : Nat) (l : Ledger) : (d.setLed c i l).pwr = d.pwr := rfl
@[simp] theorem Dev.setLed_flash (d : Dev) (c i : Nat) (l : Ledger) : (d.setLed c i l).flash = d.flash := rfl
@[simp] theorem Dev.setLed_out (d : Dev) (c i : Nat) (l : Ledger) : (d.setLed c i l).out = d.out := rfl
@[simp] theorem Dev.setLed_free (d : Dev) (c i : Nat) (l : Ledger) : (d.setLed c i l).free = d.free := rfl

@[simp] theorem Dev.setTdi_clock (d : Dev) (p : Nat) (x : TdiState) : (d.setTdi p x).clock = d.clock := rfl
@[simp] theorem Dev.setTdi_pins (d : Dev) (p : Nat) (x : TdiState) : (d.setTdi p x).pins = d.pins := rfl
@[simp] theorem Dev.setTdi_inForce (d : Dev) (p : Nat) (x : TdiState) : (d.setTdi p x).inForce = d.inForce := rfl
@[simp] theorem Dev.setTdi_live (d : Dev) (p : Nat) (x : TdiState) : (d.setTdi p x).live = d.live := rfl
@[simp] theorem Dev.setTdi_rng (d : Dev) (p : Nat) (x : TdiState) : (d.setTdi p x).rng = d.rng := rfl
@[simp] theorem Dev.setTdi_step (d : Dev) (p : Nat) (x : TdiState) : (d.setTdi p x).step = d.step := rfl
@[simp] theorem Dev.setTdi_tus (d : Dev) (p : Nat) (x : TdiState) : (d.setTdi p x).tus = d.tus := rfl
@[simp] theorem Dev.setTdi_tier (d : Dev) (p : Nat) (x : TdiState) : (d.setTdi p x).tier = d.tier := rfl
@[simp] theorem Dev.setTdi_kva (d : Dev) (p : Nat) (x : TdiState) : (d.setTdi p x).kva = d.kva := rfl
@[simp] theorem Dev.setTdi_ari (d : Dev) (p : Nat) (x : TdiState) : (d.setTdi p x).ari = d.ari := rfl
@[simp] theorem Dev.setTdi_plc (d : Dev) (p : Nat) (x : TdiState) : (d.setTdi p x).plc = d.plc := rfl
@[simp] theorem Dev.setTdi_tok (d : Dev) (p : Nat) (x : TdiState) : (d.setTdi p x).tok = d.tok := rfl
@[simp] theorem Dev.setTdi_red (d : Dev) (p : Nat) (x : TdiState) : (d.setTdi p x).red = d.red := rfl
@[simp] theorem Dev.setTdi_fab (d : Dev) (p : Nat) (x : TdiState) : (d.setTdi p x).fab = d.fab := rfl
@[simp] theorem Dev.setTdi_slu (d : Dev) (p : Nat) (x : TdiState) : (d.setTdi p x).slu = d.slu := rfl
@[simp] theorem Dev.setTdi_ckp (d : Dev) (p : Nat) (x : TdiState) : (d.setTdi p x).ckp = d.ckp := rfl
@[simp] theorem Dev.setTdi_ldg (d : Dev) (p : Nat) (x : TdiState) : (d.setTdi p x).ldg = d.ldg := rfl
@[simp] theorem Dev.setTdi_pwr (d : Dev) (p : Nat) (x : TdiState) : (d.setTdi p x).pwr = d.pwr := rfl
@[simp] theorem Dev.setTdi_flash (d : Dev) (p : Nat) (x : TdiState) : (d.setTdi p x).flash = d.flash := rfl
@[simp] theorem Dev.setTdi_out (d : Dev) (p : Nat) (x : TdiState) : (d.setTdi p x).out = d.out := rfl
@[simp] theorem Dev.setTdi_free (d : Dev) (p : Nat) (x : TdiState) : (d.setTdi p x).free = d.free := rfl

end Sys2Proof.Machine
end

