-- ==== Sys2Proof/Laws/Descriptors.lean ====
section
/-! SUPPORT. What the shared operations of the ring engine and of the fault log leave alone. -/

namespace Sys2Proof.Machine

theorem Quiet.refl (d : Dev) : Quiet d d := rfl

theorem Quiet.trans {a b c : Dev} (h : Quiet a b) (k : Quiet b c) : Quiet a c :=
  Eq.trans k h

theorem quiet_foldl {β : Type} (f : Dev → β → Dev) (h : ∀ d x, Quiet d (f d x)) (l : List β) (d : Dev) :
    Quiet d (l.foldl f d) := by
  induction l generalizing d with
  | nil => exact Quiet.refl d
  | cons x r ih => exact (h d x).trans (ih (f d x))

theorem emit_quiet (d : Dev) (o : Out) : Quiet d (d.emit o) := rfl
theorem emitFor_quiet (d : Dev) (p : Nat) (o : Out) : Quiet d (d.emitFor p o) := by unfold Dev.emitFor; split <;> rfl
theorem setReg_quiet (d : Dev) (o : Nat) (v : U64) : Quiet d (d.setReg o v) := rfl
theorem setF_quiet (d : Dev) (f : Fld) (v : Nat) : Quiet d (d.setF f v) := rfl
theorem incF_quiet (d : Dev) (f : Fld) : Quiet d (d.incF f) := rfl
theorem addF_quiet (d : Dev) (f : Fld) (n : Nat) : Quiet d (d.addF f n) := rfl
theorem flag_quiet (d : Dev) (f c : Fld) : Quiet d (d.flag f c) := rfl
theorem setVec_quiet (d : Dev) (v : Nat) (x : Vec) : Quiet d (d.setVec v x) := rfl
theorem modPr_quiet (d : Dev) (p : Nat) (g : PartRing → PartRing) : Quiet d (d.modPr p g) := rfl
theorem setRing_quiet (d : Dev) (n : Nat) (r : Ring) : Quiet d (d.setRing n r) := rfl
theorem modDesc_quiet (d : Dev) (k : Nat) (g : DescEntry → DescEntry) : Quiet d (d.modDesc k g) := rfl
theorem wait_quiet (d : Dev) (k : Nat) (w : Wait) : Quiet d (d.wait k w) := rfl
theorem setLed_quiet (d : Dev) (c i : Nat) (l : Ledger) : Quiet d (d.setLed c i l) := rfl
theorem endLed_quiet (d : Dev) (c i : Nat) : Quiet d (d.endLed c i) := rfl

theorem move_quiet (d : Dev) (c i a b n : Nat) (p : Option Nat) : Quiet d (d.move c i a b n p) := by
  unfold Dev.move
  split
  · exact Quiet.refl d
  · split <;> rfl

theorem sendIrq_quiet (d : Dev) (v : Nat) : Quiet d (d.sendIrq v) := by
  unfold Dev.sendIrq; dsimp only; split <;> rfl

theorem countIrq_quiet (d : Dev) (v : Nat) (b : Bool) : Quiet d (d.countIrq v b) := by
  unfold Dev.countIrq
  dsimp only
  split
  · exact (setVec_quiet d v _).trans (sendIrq_quiet _ v)
  · rfl

theorem writeFault_quiet (d : Dev) (p : Nat) (r : FaultRec) : Quiet d (d.writeFault p r) :=
  ((emitFor_quiet d p _).trans (modPr_quiet _ p _)).trans (countIrq_quiet _ _ _)

theorem logFault_quiet (d : Dev) (p : Nat) (r : FaultRec) : Quiet d (d.logFault p r) := by
  unfold Dev.logFault
  dsimp only
  split
  · exact writeFault_quiet d p r
  · split <;> rfl

theorem flashCopy_quiet (d : Dev) (r : FaultRec) : Quiet d (d.flashCopy r) := by
  unfold Dev.flashCopy; dsimp only; split <;> rfl

theorem raiseAt_quiet (d : Dev) (p : Option Nat) (c : Nat) (a : U64) (x m t : Nat) (b : Byte) :
    Quiet d (d.raiseAt p c a x m t b) := by
  unfold Dev.raiseAt
  dsimp only
  refine Quiet.trans ?_ (logFault_quiet _ _ _)
  split
  · refine Quiet.trans ?_ (flashCopy_quiet _ _)
    split <;> rfl
  · split <;> rfl

theorem raise_quiet (d : Dev) (p : Option Nat) (c : Nat) (a : U64) (x m : Nat) : Quiet d (d.raise p c a x m) :=
  raiseAt_quiet d p c a x m _ _

theorem raiseOpen_quiet (d : Dev) (p : Option Nat) (c m : Nat) : Quiet d (d.raiseOpen p c m) := by
  unfold Dev.raiseOpen
  exact Quiet.trans (b := { d with free := d.free + 1 }) rfl (raise_quiet _ p c _ 2 m)

theorem telem_quiet (d : Dev) (p ty so i : Nat) (st : U64) (b : List Byte) : Quiet d (d.telem p ty so i st b) := by
  unfold Dev.telem
  dsimp only
  split
  · exact Quiet.refl d
  · split
    · exact ((modPr_quiet d p _).trans (emitFor_quiet _ p _)).trans ((modPr_quiet _ p _).trans (countIrq_quiet _ _ _))
    · rfl

/-! ### Slots, completions, descriptors -/

theorem reserve_quiet (d : Dev) (n : Nat) : Quiet d (d.reserve n) := (setRing_quiet d n _).trans (move_quiet _ _ _ _ _ _ _)

theorem unreserve_quiet (d : Dev) (n k : Nat) : Quiet d (d.unreserve n k) := (setRing_quiet d n _).trans (move_quiet _ _ _ _ _ _ _)

theorem disable_quiet (d : Dev) (n : Nat) : Quiet d (d.disable n) := by
  unfold Dev.disable; dsimp only; split <;> rfl

theorem useSlot_quiet (d : Dev) (n : Nat) (f : Bool) : Quiet d (d.useSlot n f) := (setRing_quiet d n _).trans (move_quiet _ _ _ _ _ _ _)

theorem writeCompletion_quiet (d : Dev) (e : DescEntry) (r : U64) (x : U32) (st : Byte) (f l : Bool) (n : Nat) :
    Quiet d (d.writeCompletion e r x st f l n) :=
  (emitFor_quiet d _ _).trans ((useSlot_quiet _ _ _).trans (countIrq_quiet _ _ _))

theorem openPair_quiet (d : Dev) : Quiet d d.openPair.2.2 := rfl

theorem finishRaw_quiet (d : Dev) (k : Nat) (st : Byte) (r : U64) (x : U32) (l : Bool) : Quiet d (d.finishRaw k st r x l) := by
  unfold Dev.finishRaw
  split
  · exact Quiet.refl d
  · next e _ =>
    refine Quiet.trans (b := if e.silent then d else d.writeCompletion e r x st true l 0) ?_ rfl
    split
    · exact Quiet.refl d
    · exact writeCompletion_quiet _ _ _ _ _ _ _ _

theorem disableIf_quiet (d : Dev) (n : Nat) : Quiet d (d.disableIf n) := by
  unfold Dev.disableIf; split
  · exact disable_quiet d n
  · exact Quiet.refl d

theorem settle_quiet (d : Dev) (n : Nat) : Quiet d (d.settle n) := by
  unfold Dev.settle
  split
  · refine (disable_quiet d n).trans ((quiet_foldl _ ?_ _ _).trans (quiet_foldl _ ?_ _ _))
    · intro d k; exact (openPair_quiet d).trans (finishRaw_quiet _ _ _ _ _ _)
    · intro d r; exact disableIf_quiet d r
  · exact Quiet.refl d

theorem raiseDesc_quiet (d : Dev) (e : DescEntry) (c : Nat) (st : Byte) : Quiet d (d.raiseDesc e c st) :=
  raiseAt_quiet d _ _ _ _ _ _ _

theorem startOne_quiet (d : Dev) (k : Nat) : Quiet d (d.startOne k) := by
  unfold Dev.startOne
  split
  · exact Quiet.refl d
  · split
    · split
      · rfl
      · exact ((raiseDesc_quiet d _ _ _).trans (openPair_quiet _)).trans ((finishRaw_quiet _ _ _ _ _ _).trans (settle_quiet _ _))
    · exact Quiet.refl d

theorem sweep_quiet (d : Dev) : Quiet d d.sweep := quiet_foldl _ (fun d k => startOne_quiet d k) _ d

theorem finish_quiet (d : Dev) (k : Nat) (st : Byte) (r : U64) (x : U32) (l : Bool) : Quiet d (d.finish k st r x l) := by
  unfold Dev.finish
  split
  · exact Quiet.refl d
  · exact (finishRaw_quiet d k st r x l).trans ((settle_quiet _ _).trans (sweep_quiet _))

theorem ok_quiet (d : Dev) (k : Nat) (r : U64) (x : U32) : Quiet d (d.ok k r x) := finish_quiet d k _ r x _

theorem okOpen_quiet (d : Dev) (k : Nat) : Quiet d (d.okOpen k) := (openPair_quiet d).trans (ok_quiet _ k _ _)

theorem failCode_quiet (d : Dev) (k : Nat) (st : Byte) (c : Nat) (r : U64) (x : U32) : Quiet d (d.failCode k st c r x) := by
  unfold Dev.failCode
  split
  · exact Quiet.refl d
  · exact (raiseDesc_quiet d _ _ _).trans (finish_quiet _ _ _ _ _ _)

theorem fail_quiet (d : Dev) (k : Nat) (st : Byte) (r : U64) (x : U32) : Quiet d (d.fail k st r x) := by
  unfold Dev.fail
  split
  · exact Quiet.refl d
  · split
    · exact failCode_quiet d k st _ r x
    · exact finish_quiet d k st r x _

theorem failOpen_quiet (d : Dev) (k : Nat) (st : Byte) (x : Option U32) : Quiet d (d.failOpen k st x) :=
  (openPair_quiet d).trans (fail_quiet _ k st _ _)

theorem refuse_quiet (d : Dev) (k : Nat) (st : Byte) : Quiet d (d.refuse k st) := failOpen_quiet d k st none

theorem refuseHdr_quiet (d : Dev) (k : Nat) (st : Byte) : Quiet d (d.refuseHdr k st) :=
  (openPair_quiet d).trans (failCode_quiet _ k st _ _ _)

theorem refuseHalted_quiet (d : Dev) (k : Nat) : Quiet d (d.refuseHalted k) :=
  (openPair_quiet d).trans (failCode_quiet _ k _ _ _ _)

theorem progress_quiet (d : Dev) (k : Nat) (r : U64) (x : U32) : Quiet d (d.progress k r x) := by
  unfold Dev.progress
  split
  · exact Quiet.refl d
  · split
    · exact Quiet.refl d
    · split
      · exact (writeCompletion_quiet d _ _ _ _ _ _ _).trans (modDesc_quiet _ _ _)
      · rfl

end Sys2Proof.Machine
end

