-- ==== Sys2Proof/Laws/Completions.lean ====
section
/-! SUPPORT. What running an opcode and ending its descriptor do: the checks that pass lead to the effect, the final completion is
sent, and what the device has sent is never taken back. -/

namespace Sys2Proof.Machine

/-! ### The descriptor that an opcode row runs on -/

theorem ready_facts {d : Dev} {op : Byte} {n : Nat} {x : Desc} {k : Nat} {e : DescEntry} (h : d.Ready op n x k e) :
    e.ring = n ∧ e.op = op ∧ e.d = x ∧ e.st = .started := by
  have := List.find?_some h.1
  simp only [Bool.and_eq_true, beq_iff_eq] at this
  exact ⟨this.1.1.1, this.1.1.2, this.1.2, this.2⟩

theorem runOp_ready {d : Dev} {op : Byte} {n : Nat} {x : Desc} {k : Nat} {e : DescEntry} (h : d.Ready op n x k e)
    (chk : Dev → Nat → Desc → Byte) (act : Dev → Nat → DescEntry → Dev) :
    d.runOp op n x chk act = if chk d e.part x = stOk then act d k e else d.refuse k (chk d e.part x) := by
  have hs := (ready_facts h).2.2.2
  obtain ⟨h1, h2, h3, h4, h5⟩ := h
  unfold Dev.runOp Dev.claim
  have hb : ¬ stOk = stBad := by decide
  simp only [h1, h2, h3, h4, h5, hs, hb]
  by_cases hc : chk d e.part x = stOk <;> simp [hc]

theorem runOp_act {d : Dev} {op : Byte} {n : Nat} {x : Desc} {k : Nat} {e : DescEntry} (h : d.Ready op n x k e)
    {chk : Dev → Nat → Desc → Byte} {act : Dev → Nat → DescEntry → Dev} (hc : chk d e.part x = stOk) :
    d.runOp op n x chk act = act d k e := by
  rw [runOp_ready h, if_pos hc]

/-- An opcode row whose checks pass answers its effect. -/
theorem op_becomes {i : Instr} {s : State} {op : Byte} {n : Nat} {x : Desc} {k : Nat} {e : DescEntry} {chk : Dev → Nat → Desc → Byte}
    {act : Dev → Nat → DescEntry → Dev} {t : Dev} (h : s.dev.Ready op n x k e)
    (hx : exec i s = guarded i (onDev s fun d => d.runOp op n x chk act)) (hw : i.wf = true) (hc : chk s.dev e.part x = stOk)
    (ha : act s.dev k e = t) : Becomes i s t := by
  rw [Becomes, hx, guarded_wf _ _ hw, onDev_next, runOp_act h hc, ha]

/-! ### What is sent stays sent -/

/-- `t` has sent all that `d` has, and maybe more. -/
def Grows (d t : Dev) : Prop := ∃ l, t.out = l ++ d.out

theorem Grows.refl (d : Dev) : Grows d d := ⟨[], rfl⟩

theorem Grows.of_eq {d t : Dev} (h : t.out = d.out) : Grows d t := ⟨[], by simp [h]⟩

theorem Grows.trans {a b c : Dev} (h : Grows a b) (k : Grows b c) : Grows a c := by
  obtain ⟨l, hl⟩ := h
  obtain ⟨m, hm⟩ := k
  exact ⟨m ++ l, by simp [hm, hl]⟩

theorem grows_foldl {β : Type} (f : Dev → β → Dev) (h : ∀ d x, Grows d (f d x)) (l : List β) (d : Dev) : Grows d (l.foldl f d) := by
  induction l generalizing d with
  | nil => exact Grows.refl d
  | cons x r ih => exact (h d x).trans (ih (f d x))

theorem emit_grows (d : Dev) (o : Out) : Grows d (d.emit o) := ⟨[o], rfl⟩

theorem emitFor_grows (d : Dev) (p : Nat) (o : Out) : Grows d (d.emitFor p o) := by
  unfold Dev.emitFor; split
  · exact Grows.refl d
  · exact emit_grows d o

theorem move_out (d : Dev) (c i a b n : Nat) (p : Option Nat) : (d.move c i a b n p).out = d.out := by
  unfold Dev.move
  split
  · rfl
  · split <;> rfl

theorem sendIrq_grows (d : Dev) (v : Nat) : Grows d (d.sendIrq v) := by
  unfold Dev.sendIrq
  dsimp only
  split
  · exact Grows.of_eq rfl
  · exact emit_grows _ _

theorem countIrq_grows (d : Dev) (v : Nat) (b : Bool) : Grows d (d.countIrq v b) := by
  unfold Dev.countIrq
  dsimp only
  split
  · exact (Grows.of_eq (by simp)).trans (sendIrq_grows _ v)
  · exact Grows.of_eq rfl

theorem writeFault_grows (d : Dev) (p : Nat) (r : FaultRec) : Grows d (d.writeFault p r) := by
  unfold Dev.writeFault
  dsimp only
  refine Grows.trans ?_ (countIrq_grows _ _ _)
  exact (emitFor_grows d p _).trans (Grows.of_eq rfl)

theorem logFault_grows (d : Dev) (p : Nat) (r : FaultRec) : Grows d (d.logFault p r) := by
  unfold Dev.logFault
  dsimp only
  split
  · exact writeFault_grows d p r
  · split
    · exact Grows.of_eq rfl
    · exact Grows.of_eq rfl

theorem flashCopy_out (d : Dev) (r : FaultRec) : (d.flashCopy r).out = d.out := by
  unfold Dev.flashCopy; dsimp only; split <;> rfl

theorem raiseAt_grows (d : Dev) (p : Option Nat) (c : Nat) (a : U64) (x m t : Nat) (b : Byte) :
    Grows d (d.raiseAt p c a x m t b) := by
  unfold Dev.raiseAt
  dsimp only
  refine Grows.trans ?_ (logFault_grows _ _ _)
  split
  · refine Grows.of_eq ((flashCopy_out _ _).trans ?_)
    split <;> rfl
  · refine Grows.of_eq ?_
    split <;> rfl

theorem useSlot_out (d : Dev) (n : Nat) (f : Bool) : (d.useSlot n f).out = d.out := by
  unfold Dev.useSlot Dev.cqMove; simp only [move_out]; rfl

theorem writeCompletion_grows (d : Dev) (e : DescEntry) (r : U64) (x : U32) (st : Byte) (f l : Bool) (n : Nat) :
    Grows d (d.writeCompletion e r x st f l n) :=
  (emitFor_grows d _ _).trans ((Grows.of_eq (useSlot_out _ _ _)).trans (countIrq_grows _ _ _))

theorem finishRaw_grows (d : Dev) (k : Nat) (st : Byte) (r : U64) (x : U32) (l : Bool) : Grows d (d.finishRaw k st r x l) := by
  unfold Dev.finishRaw
  split
  · exact Grows.refl d
  · next e _ =>
    refine Grows.trans (b := if e.silent then d else d.writeCompletion e r x st true l 0) ?_ (Grows.of_eq rfl)
    split
    · exact Grows.refl d
    · exact writeCompletion_grows _ _ _ _ _ _ _ _

theorem openPair_grows (d : Dev) : Grows d d.openPair.2.2 := Grows.of_eq rfl

theorem disable_out (d : Dev) (n : Nat) : (d.disable n).out = d.out := by
  unfold Dev.disable; dsimp only; split <;> rfl

theorem disableIf_grows (d : Dev) (n : Nat) : Grows d (d.disableIf n) := by
  unfold Dev.disableIf; split
  · exact Grows.of_eq (disable_out d n)
  · exact Grows.refl d

theorem settle_grows (d : Dev) (n : Nat) : Grows d (d.settle n) := by
  unfold Dev.settle
  split
  · refine (Grows.of_eq (disable_out d n)).trans ((grows_foldl _ ?_ _ _).trans (grows_foldl _ ?_ _ _))
    · intro d k; exact (openPair_grows d).trans (finishRaw_grows _ _ _ _ _ _)
    · intro d r; exact disableIf_grows d r
  · exact Grows.refl d

theorem startOne_grows (d : Dev) (k : Nat) : Grows d (d.startOne k) := by
  unfold Dev.startOne
  split
  · exact Grows.refl d
  · split
    · split
      · exact Grows.of_eq rfl
      · exact (raiseAt_grows d _ _ _ _ _ _ _).trans ((openPair_grows _).trans ((finishRaw_grows _ _ _ _ _ _).trans (settle_grows _ _)))
    · exact Grows.refl d

theorem sweep_grows (d : Dev) : Grows d d.sweep := grows_foldl _ (fun d k => startOne_grows d k) _ d

theorem finish_grows (d : Dev) (k : Nat) (st : Byte) (r : U64) (x : U32) (l : Bool) : Grows d (d.finish k st r x l) := by
  unfold Dev.finish
  split
  · exact Grows.refl d
  · exact (finishRaw_grows d k st r x l).trans ((settle_grows _ _).trans (sweep_grows _))

/-! ### The final completion -/

theorem Dev.Completes.mono {d t u : Dev} {e : DescEntry} {st : Byte} {r : U64} {x : U32} (h : d.Completes t e st r x)
    (g : Grows t u) : d.Completes u e st r x := by
  obtain ⟨m, a, c, h1, h2, h3⟩ := h
  obtain ⟨l, hl⟩ := g
  exact ⟨l ++ m, a, c, by simp [hl, h1], List.mem_append_right _ h2, h3⟩

theorem Dev.Completes.after {d s t : Dev} {e : DescEntry} {st : Byte} {r : U64} {x : U32} (h : s.Completes t e st r x)
    (g : Grows d s) : d.Completes t e st r x := by
  obtain ⟨m, a, c, h1, h2, h3⟩ := h
  obtain ⟨l, hl⟩ := g
  exact ⟨m ++ l, a, c, by simp [hl, h1], List.mem_append_left _ h2, h3⟩

theorem writeCompletion_completes (d : Dev) (e : DescEntry) (r : U64) (x : U32) (st : Byte) (l : Bool) (n : Nat)
    (h : d.dmaStopped e.part = false) : d.Completes (d.writeCompletion e r x st true l n) e st r x := by
  have h1 : d.Completes (d.emitFor e.part (.completion (d.completionAddr e) (d.completionFor e r x st true l n))) e st r x := by
    refine ⟨[.completion (d.completionAddr e) (d.completionFor e r x st true l n)], d.completionAddr e,
      d.completionFor e r x st true l n, ?_, List.mem_singleton.2 rfl, rfl, rfl, rfl, rfl, rfl, rfl, rfl⟩
    simp [Dev.emitFor, h, Dev.emit]
  exact h1.mono ((Grows.of_eq (useSlot_out _ _ _)).trans (countIrq_grows _ _ _))

theorem finish_completes (d : Dev) (k : Nat) (e : DescEntry) (st : Byte) (r : U64) (x : U32) (l : Bool)
    (he : tget d.rng.descs k = some e) (h : d.Hears e) : d.Completes (d.finish k st r x l) e st r x := by
  unfold Dev.finish
  simp only [he]
  refine Dev.Completes.mono ?_ ((settle_grows _ _).trans (sweep_grows _))
  unfold Dev.finishRaw
  simp only [he, h.2]
  exact (writeCompletion_completes d e r x st l 0 h.1).mono (Grows.of_eq rfl)

theorem ok_completes (d : Dev) (k : Nat) (e : DescEntry) (r : U64) (x : U32) (he : tget d.rng.descs k = some e) (h : d.Hears e) :
    d.Completes (d.ok k r x) e stOk r x := finish_completes d k e stOk r x false he h

end Sys2Proof.Machine
end

