-- ==== Sys2Proof/Laws/Memory.lean ====
section
/-! SUPPORT. The laws of the pool memory homed here: a read after a write, and the canonical form that every operation keeps. -/

namespace Sys2Proof.Machine

/-! ### Reads after writes -/

theorem memRead_memWrite_same (m : List Host.Cell) (k : Nat) (v : Byte) (h : Memory.wf m = true) : memRead (memWrite m k v) k = v := by
  induction m with
  | nil => simp only [memWrite]; split <;> simp_all [memRead]
  | cons e r ih =>
    obtain ⟨a, w⟩ := e
    have hr : Memory.wf r = true := by
      cases r with
      | nil => rfl
      | cons f q =>
        obtain ⟨b, u⟩ := f
        simp only [Memory.wf, Bool.and_eq_true] at h
        exact h.2
    have beyond : ∀ (n : Nat) (b : Byte) (q : List Host.Cell), Memory.wf ((n, b) :: q) = true → ∀ j, j ≤ n → (j < n → memRead ((n, b) :: q) j = 0) ∧ memRead q j = 0 := by
      intro n b q
      induction q generalizing n b with
      | nil => intro _ j _; exact ⟨fun hl => by simp [memRead]; omega, by simp [memRead]⟩
      | cons f q ih2 =>
        obtain ⟨n2, b2⟩ := f
        intro hw j hj
        simp only [Memory.wf, Bool.and_eq_true, decide_eq_true_eq] at hw
        have h2 := ih2 n2 b2 hw.2 j (by omega)
        have h3 := h2.1 (by omega)
        exact ⟨fun hl => by rw [memRead, if_neg (by omega)]; exact h3, h3⟩
    simp only [memWrite]
    split
    · next hlt => rw [memRead, if_neg (by omega)]; exact ih hr
    · split
      · next heq =>
        subst heq
        split
        · next hv => rw [hv]; exact (beyond a w r h a (Nat.le_refl a)).2
        · simp [memRead]
      · next h1 h2 =>
        split
        · next hv => rw [hv]; exact (beyond a w r h k (by omega)).1 (by omega)
        · simp [memRead]

theorem memRead_memWrite_other (m : List Host.Cell) (k j : Nat) (v : Byte) (h : j ≠ k) : memRead (memWrite m k v) j = memRead m j := by
  induction m with
  | nil => simp only [memWrite]; split <;> simp [memRead, Ne.symm h]
  | cons e r ih =>
    obtain ⟨a, w⟩ := e
    simp only [memWrite]
    split
    · simp only [memRead, ih]
    · split
      · next heq => subst heq; split <;> simp [memRead, Ne.symm h]
      · split <;> simp [memRead, Ne.symm h]

/-! ### The canonical form -/

/-- Every address of a memory lies at or above `n`. -/
def above (n : Nat) (m : List Host.Cell) : Prop := ∀ c ∈ m, n ≤ c.1

theorem wf_cons {a : Nat} {b : Byte} {r : List Host.Cell} (hb : b ≠ 0) (ha : above (a + 1) r) (hr : Memory.wf r = true) :
    Memory.wf ((a, b) :: r) = true := by
  cases r with
  | nil => simpa [Memory.wf] using hb
  | cons e q =>
    obtain ⟨a', b'⟩ := e
    have := ha (a', b') (by simp)
    simp only [Memory.wf, Bool.and_eq_true, bne_iff_ne, ne_eq, decide_eq_true_eq]
    exact ⟨⟨hb, by omega⟩, hr⟩

theorem wf_uncons {a : Nat} {b : Byte} {r : List Host.Cell} (h : Memory.wf ((a, b) :: r) = true) :
    b ≠ 0 ∧ above (a + 1) r ∧ Memory.wf r = true := by
  induction r generalizing a b with
  | nil => exact ⟨by simpa [Memory.wf] using h, fun c hc => by simp at hc, rfl⟩
  | cons e q ih =>
    obtain ⟨a', b'⟩ := e
    simp only [Memory.wf, Bool.and_eq_true, bne_iff_ne, ne_eq, decide_eq_true_eq] at h
    obtain ⟨-, h2, -⟩ := ih h.2
    refine ⟨h.1.1, ?_, h.2⟩
    intro c hc
    rcases List.mem_cons.1 hc with rfl | hc
    · simpa using h.1.2
    · have := h2 c hc; omega

theorem above_memWrite {n : Nat} {m : List Host.Cell} (h : above n m) (k : Nat) (v : Byte) (hk : n ≤ k) : above n (memWrite m k v) := by
  induction m with
  | nil => intro c hc; simp only [memWrite] at hc; split at hc <;> simp at hc; subst hc; exact hk
  | cons e r ih =>
    obtain ⟨a, w⟩ := e
    have ha : n ≤ a := h (a, w) (by simp)
    have hr : above n r := fun c hc => h c (List.mem_cons_of_mem _ hc)
    intro c hc
    simp only [memWrite] at hc
    split at hc
    · rcases List.mem_cons.1 hc with rfl | hc
      · exact ha
      · exact ih hr c hc
    · split at hc
      · split at hc
        · exact hr c hc
        · rcases List.mem_cons.1 hc with rfl | hc
          · exact hk
          · exact hr c hc
      · split at hc
        · exact h c hc
        · rcases List.mem_cons.1 hc with rfl | hc
          · exact hk
          · exact h c hc

theorem memWrite_wf {m : List Host.Cell} (h : Memory.wf m = true) (k : Nat) (v : Byte) : Memory.wf (memWrite m k v) = true := by
  induction m with
  | nil => simp only [memWrite]; split <;> simp_all [Memory.wf]
  | cons e r ih =>
    obtain ⟨a, w⟩ := e
    obtain ⟨hw, ha, hr⟩ := wf_uncons h
    simp only [memWrite]
    split
    · next hlt => exact wf_cons hw (above_memWrite ha k v (by omega)) (ih hr)
    · split
      · next heq =>
        subst heq
        split
        · exact hr
        · next hv => exact wf_cons hv ha hr
      · next h1 h2 =>
        split
        · exact h
        · next hv =>
          refine wf_cons hv ?_ h
          intro c hc
          rcases List.mem_cons.1 hc with rfl | hc
          · simp only; omega
          · have := ha c hc; omega

theorem memWriteL_wf (bs : List Byte) {m : List Host.Cell} (h : Memory.wf m = true) (a : Nat) : Memory.wf (memWriteL m a bs) = true := by
  induction bs generalizing m a with
  | nil => exact h
  | cons b r ih => exact ih (memWrite_wf h a b) (a + 1)

theorem memZero_wf {m : List Host.Cell} (h : Memory.wf m = true) (a n : Nat) : Memory.wf (memZero m a n) = true := by
  unfold memZero
  induction m with
  | nil => rfl
  | cons e r ih =>
    obtain ⟨k, w⟩ := e
    obtain ⟨hw, ha, hr⟩ := wf_uncons h
    simp only [List.filter_cons]
    split
    · exact wf_cons hw (fun c hc => ha c (List.mem_filter.1 hc).1) (ih hr)
    · exact ih hr

theorem applyWrites_wf (ws : List (Nat × List Byte)) {m : List Host.Cell} (h : Memory.wf m = true) : Memory.wf (applyWrites m ws) = true := by
  unfold applyWrites
  induction ws generalizing m with
  | nil => exact h
  | cons w r ih => exact ih (memWriteL_wf w.2 h w.1)

/-! ### Rows that may change it -/

theorem onHome_wf (s : State) (f : Dev → Dev) (h : Memory.wf s.mem = true) : Memory.wf (s.onHome f).mem = true := by
  unfold State.onHome
  have zeros : ∀ (l : List (Nat × Extent)) (m : List Host.Cell), Memory.wf m = true →
      Memory.wf (l.foldl (fun m (e : Nat × Extent) => memZero m e.2.base (e.2.pages * pageBytes)) m) = true := by
    intro l
    induction l with
    | nil => intro m hm; exact hm
    | cons e r ih => intro m hm; exact ih _ (memZero_wf hm _ _)
  exact zeros _ _ h

theorem onPower_wf (s : State) (f : Dev → Dev) (h : Memory.wf s.mem = true) : Memory.wf (s.onPower f).mem = true := by
  unfold State.onPower
  dsimp only
  split
  · rfl
  · exact h

theorem onStep_wf (s : State) (f : Dev → Dev) (h : Memory.wf s.mem = true) : Memory.wf (s.onStep f).mem = true := onPower_wf s _ h

theorem getFrame_wf (s : State) (f : Frame) (i : Option ExtentInfo) (h : Memory.wf s.mem = true) :
    Memory.wf (s.getFrame f i).mem = true := applyWrites_wf _ h

/-! ### What these rows leave alone -/

@[simp] theorem onHome_hw (s : State) (f : Dev → Dev) : (s.onHome f).hw = s.hw := rfl
@[simp] theorem onHome_pending (s : State) (f : Dev → Dev) : (s.onHome f).pending = s.pending := rfl
@[simp] theorem onPower_hw (s : State) (f : Dev → Dev) : (s.onPower f).hw = s.hw := rfl
@[simp] theorem onPower_pending (s : State) (f : Dev → Dev) : (s.onPower f).pending = s.pending := rfl
@[simp] theorem onPower_dev (s : State) (f : Dev → Dev) : (s.onPower f).dev = f s.dev := rfl
@[simp] theorem onStep_hw (s : State) (f : Dev → Dev) : (s.onStep f).hw = s.hw := rfl
@[simp] theorem onStep_pending (s : State) (f : Dev → Dev) : (s.onStep f).pending = s.pending := rfl
@[simp] theorem onStep_dev (s : State) (f : Dev → Dev) : (s.onStep f).dev = (f s.dev).shutdownOn := rfl
@[simp] theorem getFrame_hw (s : State) (f : Frame) (i : Option ExtentInfo) : (s.getFrame f i).hw = s.hw := rfl
@[simp] theorem getFrame_pending (s : State) (f : Frame) (i : Option ExtentInfo) : (s.getFrame f i).pending = s.pending := rfl

end Sys2Proof.Machine
end

