-- ==== Sys2Proof/Laws/Registers.lean ====
section
/-! SUPPORT. Registers: a read after a write, and what a host write that the device takes comes to. -/

namespace Sys2Proof.Machine

theorem reg_setReg (d : Dev) (o j : Nat) (v : U64) : (d.setReg o v).reg j = if j = o then v else d.reg j := by
  unfold Dev.setReg Dev.reg; simp only [tget_tput]; split <;> simp

@[simp] theorem reg_setReg_same (d : Dev) (o : Nat) (v : U64) : (d.setReg o v).reg o = v := by simp [reg_setReg]

theorem reg_setReg_other (d : Dev) (o j : Nat) (v : U64) (h : j ≠ o) : (d.setReg o v).reg j = d.reg j := by simp [reg_setReg, h]

theorem reg_setF_other (d : Dev) (f : Fld) (j v : Nat) (h : j ≠ f.off) : (d.setF f v).reg j = d.reg j := reg_setReg_other d f.off j _ h

theorem getF_setF_other (d : Dev) (f g : Fld) (v : Nat) (h : g.off ≠ f.off) : (d.setF f v).getF g = d.getF g := by
  unfold Dev.getF; rw [reg_setF_other d f g.off v h]

theorem getF_of_regs {d t : Dev} (h : t.regs = d.regs) (f : Fld) : t.getF f = d.getF f := by
  unfold Dev.getF Dev.reg; rw [h]

/-! ### Where the named registers stand -/

theorem regAt_wake (p : Nat) (h : p < 8) : ∃ r, regAt (RNG_WAKE p) = some (r, p) ∧ r.base = RNG_WAKE 0 := by
  interval_cases p <;> exact ⟨_, rfl, rfl⟩

theorem regAt_dbBase (p : Nat) (h : p < 8) : ∃ r, regAt (RNG_DB_BASE p) = some (r, p) ∧ r.base = RNG_DB_BASE 0 := by
  interval_cases p <;> exact ⟨_, rfl, rfl⟩

theorem regAt_adminSq (p : Nat) (h : p < 8) : ∃ r, regAt (RNG_ADMIN_SQ p) = some (r, p) ∧ r.base = RNG_ADMIN_SQ 0 := by
  interval_cases p <;> exact ⟨_, rfl, rfl⟩

theorem regAt_adminCq (p : Nat) (h : p < 8) : ∃ r, regAt (RNG_ADMIN_CQ p) = some (r, p) ∧ r.base = RNG_ADMIN_CQ 0 := by
  interval_cases p <;> exact ⟨_, rfl, rfl⟩

theorem regAt_errlog (p : Nat) (h : p < 8) : ∃ r, regAt (RNG_ERRLOG p) = some (r, p) ∧ r.base = RNG_ERRLOG 0 := by
  interval_cases p <;> exact ⟨_, rfl, rfl⟩

theorem regAt_telem (p : Nat) (h : p < 8) : ∃ r, regAt (RNG_TELEM p) = some (r, p) ∧ r.base = RNG_TELEM 0 := by
  interval_cases p <;> exact ⟨_, rfl, rfl⟩

theorem regAt_escClear (p : Nat) (h : p < 8) : ∃ r, regAt (ARI_ESC_CLEAR p) = some (r, p) ∧ r.base = ARI_ESC_CLEAR 0 := by
  interval_cases p <;> exact ⟨_, rfl, rfl⟩

theorem regAt_pwrCtl : ∃ r, regAt PWR_CTL = some (r, 0) ∧ r.base = PWR_CTL := ⟨_, rfl, rfl⟩

theorem regAt_thermal : ∃ r, regAt PWR_THERMAL = some (r, 0) ∧ r.wo = 0 := ⟨_, rfl, rfl⟩

theorem regAt_beatRate (i : Nat) (h : i < 9) : ∃ r, regAt (GLB_BEAT_RATE i) = some (r, i) ∧ r.wo = 0 := by
  interval_cases i <;> exact ⟨_, rfl, rfl⟩

/-! ### Host writes -/

theorem hostWrite_takes {d : Dev} {a : Access} {off : Nat} {r : RegInfo} {i : Nat} (h : d.Takes a off r i) (v : U64)
    (hb : r.base ≠ RNG_EVENT_VEC 0) : d.hostWrite a off 8 v = (d.writeOne off r i v).getD (d.invalidWrite a off) := by
  obtain ⟨h1, h2, h3, h4⟩ := h
  unfold Dev.hostWrite
  simp [h1, h2, h3, hb]
  intro h5 h6
  simp only [h5, Bool.true_and, Bool.or_eq_false_iff, beq_eq_false_iff_ne] at h4
  exact absurd h6 (by simp [h4])

end Sys2Proof.Machine
end

