-- ==== Sys2Proof/Tests/Slice0.lean ====
section
/-! SUPPORT. Checks of this model's own work on small states: an ill-formed term for each check of WellFormed.lean; single steps
whose results stand in the manual; and for each statement of Certificates/Slice0/Obligations.lean, clause by clause, a state and
operands that meet all its hypotheses together, at the bounds of their ranges. -/

open Sys2Proof Sys2Proof.Machine

namespace Sys2Proof.Tests

set_option Elab.async false

/-- A descriptor's body with values at byte offsets. -/
def put (l : List (Nat × Nat)) : BitVec 384 := l.foldl (fun b x => b ||| BitVec.ofNat 384 (x.2 * 2 ^ (8 * (x.1 - 16)))) 0

/-- A descriptor. -/
def desc (target : U64) (l : List (Nat × Nat)) : Desc := { flags := 0, rsv := 0, tag := 7, target := target, body := put l }

/-- A device with fields set in its registers. -/
def setFs (d : Dev) (l : List (Fld × Nat)) : Dev := l.foldl (fun (d : Dev) x => d.setF x.1 x.2) d

/-- A device whose partition 0 has 16 rings, 16 vectors and 64 sessions; its admin ring 0 is ACTIVE with a CQ of 64 slots. -/
def base : Dev :=
  { setFs {} [(RNG_PART_RINGS_RING_COUNT 0, 16), (RNG_PART_RINGS_VEC_COUNT 0, 16), (TUS_PART_COUNT 0, 64)] with
    rng := { ring := [(0, { st := .active, sqLog2 := 6, cqLog2 := 6 })] } }

/-- That device in whole-device mode, its host on the port of L-die 0. -/
def host : Dev :=
  { setFs base [(SEC_PART_WHOLE 0, 1), (GLB_ASSEMBLY_HOST_ROLE, 1), (SEC_PART_HOST_PORTS 0, 1)] with pwr := { seq := .u6 } }

/-- An access of its host. -/
def acc : Access := { fn := .pf0 0, tee := false }

/-- A started descriptor of ring 0. -/
def entry (op : Byte) (x : Desc) : DescEntry := { ring := 0, part := 0, addr := 0x1000, op := op, d := x, st := .started }

/-- A device on which that descriptor is the only one in flight, as entry 3. -/
def run (d : Dev) (op : Byte) (x : Desc) : Dev := { d with rng := { d.rng with descs := [(3, entry op x)] } }

/-- A device whose opcode row is ready to run on descriptor `x`. -/
abbrev Runs (d : Dev) (op : Byte) (x : Desc) : Prop := (run d op x).Ready op 0 x 3 (entry op x)

/-- A state of a device. -/
def st (d : Dev) : State := { State.reset with dev := d }

/-- A device in partitioned mode whose only partition is 7. -/
def host7 : Dev :=
  { setFs {} [(RNG_PART_RINGS_RING_COUNT 7, 16), (RNG_PART_RINGS_VEC_COUNT 7, 16), (TUS_PART_COUNT 7, 64), (GLB_ASSEMBLY_HOST_ROLE, 1),
      (SEC_PART_HOST_PORTS 7, 1)] with
    rng := { ring := [(0, { st := .active, sqLog2 := 6, cqLog2 := 6 })] }, pwr := { seq := .u6 } }

/-- An access of its host. -/
def acc7 : Access := { fn := .vf 8 0, tee := false }

/-- A region of partition 0 homed in T1. -/
def t1Region (tiles : Nat) : Region :=
  { gen := 1, part := 0, tiles := tiles, homeTier := 1, wback := false, kind := 0, peat := 0, keyId := 5, weight := false, pin := false,
    extent := 0 }

/-- A history region of partition 0. -/
def histRegion : Region := { t1Region 1 with homeTier := 2, kind := 5 }

/-- A vocabulary of two tokens. -/
def vocab2 : Vocab :=
  { pretok := 0, digits := 1, eos := 0, pieceMax := 1, tokens := [([], true, true), ([65], false, false)], merges := [], roles := [], classes := [],
    frames := 1 }

/-- The sections of an image for one device. -/
def sect1 : Sections :=
  { devices := [0], chain := false, cores := [], groups := [], routes := [], weights := [], escapes := [], escalation := [], shards := 1,
    pairings := [] }

/-- The device of `base` with a STORE key, a history region, a bound token region, a class and an active job that serves it. -/
def rich : Dev :=
  { base with
    sec := { key := [(5, { store := true, tenant := 3, gens := [{ gen := 1, st := .current, key := 1 }], highest := 1 })] }
    tier := { region := [(8, histRegion), (9, { t1Region 8 with bound := true })], frames := [(0, { free := 100 })] }
    tok := [(0, { bound := some 9, cls := [(0, { contextMax := 100 })] })]
    plc := { job := [(0, { st := .active, gen := 1, hdr := { classes := 1, layers := 2, w := 2, devices := 1 }, sect := some sect1,
                           vocab := some vocab2 })] } }

/-- That device with session 63. -/
def ses (y : Session) : Dev := { rich with tus := { rich.tus with slot := [(63, { y with gen := 1, keyId := 5, histReg := 8 })] } }

/-- Handle of session 63. -/
def h63 : U64 := mkHandle 0 0 1 63

/-- Handle of a region. -/
def hReg (n : Nat) : U64 := mkRegionHandle 0 0 1 n

/-- That device with region 65535. -/
def reg (r : Region) : Dev := { rich with tier := { rich.tier with region := rich.tier.region ++ [(65535, r)] } }

/-- An extent of two pages in partition 0. -/
def ext0 : ExtentInfo :=
  { handle := 0x10, dev := 0, part := 0, space := 0, base := 0, pages := 2, shared := false, park := false, cls := 0, epoch := 1, live := true }

/-- A device with that extent in its map. -/
def withExt (d : Dev) : Dev := { d with fab := { d.fab with map := [(0x10, ext0)] } }

/-- Entry 3 waits. -/
def waits (d : Dev) (op : Byte) (x : Desc) (w : Wait) : Dev :=
  { d with rng := { d.rng with descs := [(3, { entry op x with st := .waiting w })] } }


/-! ### Step, memory, descriptors, handles -/

theorem witness_idle_ticks : State.reset.pending = [] ∧ State.reset.dev.clock.slew = 0 ∧
    (st { base with clock := { now := 7, slew := 1 } }).pending = [] ∧ (st { base with clock := { now := 7, slew := 1 } }).dev.clock.slew ≠ 0 := by
  decide +kernel

theorem witness_step_answers : Memory.wf (st base).mem = true ∧ ∃ t, step (st base) = .next t := ⟨rfl, _, rfl⟩

theorem witness_other_command : (∀ f, Instr.stepSyncEdge ≠ .write f) ∧ (∀ n b, Instr.stepSyncEdge ≠ .dataFlit n b) ∧
    ∃ t, exec .stepSyncEdge (st base) = .next t := ⟨fun _ h => (nomatch h), fun _ _ h => (nomatch h), _, rfl⟩

theorem witness_well_formed : (Instr.scanTimerExpiry 7).wf = true ∧ (Instr.scanTimerExpiry 8).wf = false := by decide +kernel

theorem witness_handles : (4095 < 4096 ∧ 7 < 8 ∧ 2 ^ 27 - 1 < 2 ^ 27 ∧ 2 ^ 22 - 1 < 2 ^ 22) ∧ 2 ^ 33 - 1 < 2 ^ 33 ∧ 2 ^ 16 - 1 < 2 ^ 16 := by
  decide +kernel

/-! ### The ring engine -/

def xCreate : Desc := desc 0 [(16, 0x2000), (24, 0x3000), (32, 15), (34, 16), (35, 6), (36, 15), (38, 15), (40, 3), (42, 0xFFFF)]

/-- Ring 1 in a state, without a CQ. -/
def ring1 (s : RingState) : Dev := { base with rng := { base.rng with ring := base.rng.ring ++ [(1, { st := s, sqLog2 := 6 })] } }

theorem witness_nop : Runs base 0x00 (desc 0 []) ∧ (run base 0x00 (desc 0 [])).Hears (entry 0x00 (desc 0 [])) := by decide +kernel

theorem witness_ringCreate : Runs base 0x01 xCreate ∧ (run base 0x01 xCreate).Hears (entry 0x01 xCreate) ∧ chkRingCreate base 0 xCreate = stOk ∧
    (base.ring (fieldAt xCreate 32 2)).st = .disabled ∧ fieldAt xCreate 36 2 = fieldAt xCreate 32 2 := by decide +kernel

theorem witness_ringDestroy : ∀ s ∈ [RingState.active, .error], let d := ring1 s
    Runs d 0x02 (desc 0 [(16, 1)]) ∧ d.ringStatus 0 1 = stOk ∧ (d.ring 1).st = s ∧ (d.ring 1).cqLog2 = 0 ∧
    (run d 0x02 (desc 0 [(16, 1)])).Hears (entry 0x02 (desc 0 [(16, 1)])) := by decide +kernel

theorem witness_ringReset : Runs (ring1 .error) 0x03 (desc 0 [(16, 1), (20, 0xFFFFFFFF)]) ∧ (ring1 .error).ringStatus 0 1 = stOk ∧
    ((ring1 .error).ring 1).st = .error := by decide +kernel

theorem witness_irqCfg : ∀ x ∈ [desc 0 [(16, 15), (18, 256), (20, 1023)], desc 0 [(18, 1)]], Runs base 0x04 x ∧ chkIrqCfg base 0 x = stOk := by
  decide +kernel

theorem witness_telemCfg : Runs base 0x05 (desc 0 [(16, 1), (48, 1)]) ∧ fieldAt (desc 0 [(16, 1), (48, 1)]) 48 2 ≠ 0 := by decide +kernel


/-! ### Registers and host events -/

theorem witness_register_write : ∀ y ∈ (regAt (YOY_PARK_CFG 7)).toList, acc7.wf = true ∧ host7.Takes acc7 (YOY_PARK_CFG 7) y.1 y.2 ∧
    ¬ (y.1.base ∈ actingRegs) ∧ host7.valueOk y.1.base y.2 0xFFFF000B = true ∧ YOY_PARK_CFG 7 ≠ PWR_CAP_CAP_W.off ∧
    YOY_PARK_CFG 7 ≠ PWR_HOLDUP_CFG ∧ YOY_PARK_CFG 7 ≠ FAB_POOL_CFG := by decide +kernel

theorem witness_register_write_is_one : (regAt (YOY_PARK_CFG 7)).isSome = true := by decide +kernel

theorem witness_field : (YOY_PARK_CFG_DEMOTE_S 7).lo + (YOY_PARK_CFG_DEMOTE_S 7).w ≤ 64 ∧ GLB_STATUS_FN_RESET.w = 1 ∧
    ((YOY_PARK_CFG_PEAT 7).lo + (YOY_PARK_CFG_PEAT 7).w ≤ (YOY_PARK_CFG_DEMOTE_S 7).lo) := by decide +kernel

/-- Partition 7 with doorbells enabled and a record of its scan. -/
def scan7 (x : PartRing) : Dev :=
  let d := setFs host7 [(RNG_DB_BASE_EN 7, 1)]
  { d with rng := { d.rng with part := [(7, x)] } }

theorem witness_wake : acc7.wf = true ∧ (scan7 {}).scans 7 = true ∧ (scan7 {}).hostUp = true ∧
    (scan7 {}).admits acc7 (RNG_WAKE 7) 8 true = true ∧ ((scan7 {}).pr 7).scan = [] := by decide +kernel

theorem witness_wake_pends : (scan7 { scan := [4] }).scans 7 = true ∧ (scan7 { scan := [4] }).hostUp = true ∧
    (scan7 { scan := [4] }).admits acc7 (RNG_WAKE 7) 8 true = true ∧ ((scan7 { scan := [4] }).pr 7).scan ≠ [] := by decide +kernel

theorem witness_scan_timer : (scan7 { timer := true }).scans 7 = true ∧ ((scan7 { timer := true }).pr 7).timer = true ∧
    ((scan7 { timer := true }).pr 7).scan = [] := by decide +kernel

theorem witness_ring_registers : acc7.wf = true ∧ host7.hostUp = true ∧ host7.tdi 7 ≠ .locked ∧ host7.tdi 7 ≠ .run ∧
    host7.admits acc7 (RNG_DB_BASE 7) 8 true = true ∧ host7.getF (RNG_DB_BASE_EN 7) = 0 ∧ (RNG_DB_BASE_EN 7).of 1 = 1 := by
  decide +kernel

theorem witness_admin_ring : ∀ cq : Bool, let d := { host7 with rng := {} }
    d.admits acc7 (if cq then RNG_ADMIN_CQ 7 else RNG_ADMIN_SQ 7) 8 true = true ∧ log2Ok ((16 : U64).toNat % 32) = true ∧
    (d.ring (d.adminRing 7)).st = .disabled := by decide +kernel

theorem witness_log_rings : host7.admits acc7 (RNG_ERRLOG 7) 8 true = true ∧ host7.getF (RNG_ERRLOG_LOG2 7) = 0 ∧
    host7.admits acc7 (RNG_TELEM 7) 8 true = true ∧ host7.getF (RNG_TELEM_LOG2 7) = 0 ∧ log2Ok ((6 : U64).toNat % 32) = true := by
  decide +kernel

theorem witness_acting_registers : host7.admits acc7 (ARI_ESC_CLEAR 7) 8 true = true ∧ host7.isRoot 7 = true ∧
    host7.admits acc7 PWR_CTL 8 true = true ∧ host7.admits acc7 (GLB_BEAT_RATE 8) 8 false = true ∧
    host7.admits acc7 PWR_THERMAL 8 false = true := by decide +kernel

theorem witness_doorbell_record : ((scan7 { scan := [0] }).pr 7).scan.contains 0 = true := by decide +kernel

/-- Ring 0 with a descriptor read issued. -/
def issued0 : Dev := { base with rng := { ring := [(0, { st := .active, sqLog2 := 6, cqLog2 := 6, issued := 1 })] } }

theorem witness_descriptor_arrival : (issued0.ring 0).issued ≠ 0 ∧ issued0.ringOwner 0 = some 0 ∧ issued0.rng.descs = [] ∧
    (issued0.ring 0).policer = 0xFFFF ∧ (opRow (decodeDesc 0xB3).1).isSome = true := by decide +kernel

def rec0 : FaultRec := { addr := 0, step := 0, time := 0, code := 0x0102, master := 0, target := 0, space := 0, system := false, part := 7, comp := 0 }

theorem witness_errlog_drain : let d := setFs (scan7 { buffer := [rec0] }) [(RNG_ERRLOG_LOG2 7, 6)]
    (d.pr 7).buffer = [rec0] ∧ (d.pr 7).errlog.room (d.getF (RNG_ERRLOG_LOG2 7)) = true := by decide +kernel

/-- Vector 15 of partition 0. -/
def vec15 (v : Vec) : Dev := { host with rng := { vec := [(15, v)] } }

theorem witness_interrupts : ∀ m : Bool, let d := vec15 { count := 1, modCnt := 1, timer := true, mask := m }
    ((d.vecOwner 15).any d.dmaStopped) = false ∧ 0 < (d.vec 15).count ∧ (d.vec 15).modCnt ≤ (d.vec 15).count ∧ (d.vec 15).timer = true := by
  decide +kernel

theorem witness_unmask : let d := vec15 { mask := true, pend := true }
    acc.wf = true ∧ d.vecOwner 15 = some 0 ∧ d.hostUp = true ∧ HostFnExists d acc.fn = true ∧ HostFnPart d acc.fn = some 0 ∧
    HostFnPrimary d acc.fn = true ∧ d.tdi 0 = .unlocked := by decide +kernel

theorem witness_host_data : ∀ op ∈ [(0x11 : Byte), 0x62], ∀ w ∈ [Wait.hostRead, .mutation 0], ∀ e ∈ tget (waits base op (desc 0 []) w).rng.descs 3,
    e.reads = true := by decide +kernel

theorem witness_function_reset : let d := host7
    acc7.fn.wf = true ∧ HostFnPart d acc7.fn = some 7 ∧ d.hostUp = true ∧ HostFnExists d acc7.fn = true ∧ d.tdi 7 ≠ .locked ∧ d.tdi 7 ≠ .run := by
  decide +kernel

theorem witness_stateRead : ∀ y ∈ [0, 1], let x := desc 0 [(16, 0x40), (24, 4), (25, y), (26, 1)]
    Runs base 0x06 x ∧ chkStateRead base 0 x = stOk ∧ fieldAt x 25 1 % 2 = y := by decide +kernel


/-! ### Sessions -/

/-- The last local number is free, at its last generation. -/
def opens : Dev := { rich with tus := { slot := [(63, { gen := 0x7FFFFFF })], numbers := [(0, { fresh := 63 })] } }

def xOpen : Desc := desc 0 [(16, 63), (17, 3), (18, 1), (20, 5), (24, (hReg 8).toNat), (32, 0xFFFFFFFF)]

theorem witness_sessionOpen : Runs opens 0x10 xOpen ∧ chkSessionOpen opens 0 xOpen = stOk ∧
    (opens.storeKey 0 (fieldAt xOpen 20 2)).isSome = true ∧
    (tgetD opens.tus.numbers 0 {}).take (opens.getF (TUS_PART_FIRST 0)) (opens.getF (TUS_PART_COUNT 0)) = some (63, { fresh := 64 }) ∧
    opens.region (hRegion (BitVec.ofNat 64 (fieldAt xOpen 24 8))) = some histRegion := by decide +kernel

def xAppend (n : Nat) : Desc := desc h63 [(16, 0x40), (24, n), (29, 63)]

theorem witness_append : ∀ n ∈ [1, 16777216], ∀ s ∈ [SState.idle, .ready, .resident, .waiting, .parking, .parked, .reviving],
    let d := (ses { st := s }).tussockAccess
    let y := (ses { st := s }).ses 63
    Runs (ses { st := s }) 0x11 (xAppend n) ∧ chkAppend (ses { st := s }) 0 (xAppend n) = stOk ∧ d.tenantGone 0 y.keyId.toNat = false ∧
    y.admitsAppend = true ∧ (d.key 0 y.keyId.toNat).isSome = true ∧ (d.tokp 0).bound.isSome = true ∧ d.classMax 0 y.cls ≠ 0 ∧
    (d.vocabOf 0 y.cls).isSome = true := by decide +kernel

def xGen (n : Nat) (l : List (Nat × Nat)) : Desc := desc h63 ([(16, n), (20, 4095), (22, 0xFFFF), (24, 8), (32, 8)] ++ l)

theorem witness_stepRequest : ∀ n ∈ [1, 1048576], ∀ s ∈ [SState.idle, .parked, .parking, .resident],
    let d := (ses { st := s, positions := 1 }).tussockAccess
    let y := (ses { st := s, positions := 1 }).ses 63
    Runs (ses { st := s, positions := 1 }) 0x12 (xGen n []) ∧ chkGen (ses { st := s, positions := 1 }) 0 (xGen n []) false = stOk ∧
    d.tenantGone 0 y.keyId.toNat = false ∧ (d.window 0).failed = false ∧ y.genArmed = false ∧ y.waitArmed = false ∧
    y.positions + y.staged ≠ 0 ∧ (d.key 0 y.keyId.toNat).isSome = true ∧ (d.tokp 0).bound.isSome = true ∧ y.st = s := by decide +kernel

theorem witness_toolWait : ∀ s ∈ [SState.idle, .resident],
    let d := (ses { st := s }).tussockAccess
    let y := (ses { st := s }).ses 63
    let x := xGen 1 [(36, 1), (37, 3), (38, 2)]
    Runs (ses { st := s }) 0x13 x ∧ chkGen (ses { st := s }) 0 x true = stOk ∧ d.tenantGone 0 y.keyId.toNat = false ∧
    (d.window 0).failed = false ∧ y.genArmed = false ∧ y.waitArmed = false ∧ (d.tokp 0).bound.isSome = true ∧ y.st = s := by decide +kernel

theorem witness_park : ∀ s ∈ [SState.idle, .waiting],
    let d := (ses { st := s }).tussockAccess
    let y := (ses { st := s }).ses 63
    let x := desc h63 [(16, 3), (17, 2)]
    Runs (ses { st := s }) 0x14 x ∧ (ses { st := s }).sessionStatus 0 x.target = stOk ∧ fieldAt x 16 1 ≤ 3 ∧ fieldAt x 17 1 ≤ 2 ∧
    d.tenantGone 0 y.keyId.toNat = false ∧ y.pin = false ∧ y.st = s ∧ y.inBatch = false := by decide +kernel

theorem witness_revive : ∀ n ∈ [0, 1],
    let d := (ses { st := .parked }).tussockAccess
    let y := (ses { st := .parked }).ses 63
    let x := desc h63 [(16, n)]
    Runs (ses { st := .parked }) 0x15 x ∧ (ses { st := .parked }).sessionStatus 0 x.target = stOk ∧ d.tenantGone 0 y.keyId.toNat = false ∧
    (d.key 0 y.keyId.toNat).isSome = true ∧ y.st = .parked := by decide +kernel

theorem witness_close : ∀ b : Bool,
    let d := (ses { st := if b then .resident else .idle, inBatch := b }).tussockAccess
    let y := (ses { st := if b then .resident else .idle, inBatch := b }).ses 63
    let x := desc h63 []
    Runs (ses { st := if b then .resident else .idle, inBatch := b }) 0x16 x ∧
    (ses { st := if b then .resident else .idle, inBatch := b }).sessionStatus 0 x.target = stOk ∧ y.st ≠ .closing ∧ y.genArmed = false ∧
    y.waitArmed = false ∧ (d.sesDescs 63).filter (fun j => j != 3) = [] ∧ y.inBatch = b := by decide +kernel


/-! ### Regions and tiles -/

/-- The last region number is the next to be taken, at its last generation. -/
def creates : Dev :=
  withExt { rich with tier := { rich.tier with numbers := [(0, { fresh := 65535 })], gens := [(65535, 0x1FFFFFFFF)] } }

theorem witness_regionCreate : ∀ y ∈ [(1, 0, 100), (2, 0x10, 2)],
    let x := desc 0 [(16, y.2.2), (20, y.1), (22, 6), (23, 2), (24, 5), (32, y.2.1)]
    Runs creates 0x20 x ∧ chkRegionCreate creates 0 x = stOk ∧ (creates.storeKey 0 (fieldAt x 24 2)).isSome = true ∧
    regionFrames (fieldAt x 16 4) (fieldAt x 20 1) ≤ creates.freeFrames 0 ∧
    (tgetD creates.tier.numbers 0 {}).take 0 regionLimit = some (65535, { fresh := 65536 }) := by decide +kernel

theorem witness_regionCreate_pages : creates.extentInfo 0x10 = some ext0 ∧ 2 ≤ ext0.pages ∧
    ∀ j ∈ List.range 2, (creates.takenPages 0x10).contains j = false := by decide +kernel

theorem witness_regionDestroy : let d := reg (t1Region 1)
    let x := desc (hReg 65535) []
    Runs d 0x21 x ∧ d.regionStatus 0 x.target = stOk ∧ d.region (targetRegion x) = some (t1Region 1) ∧ d.imageNames 0 x.target = false ∧
    d.historyOf (targetRegion x) = false ∧ (t1Region 1).bound = false ∧
    (d.tier.copy.any fun c => c.src == targetRegion x || c.dest == targetRegion x) = false := by decide +kernel

theorem witness_regionAttr : ∀ y ∈ [(1, 0), (2, 0), (3, 0), (4, 2)],
    let r := { t1Region 1 with homeTier := 2, wback := true, tile := [(0, { gen := 1 })] }
    let d := reg r
    let x := desc (hReg 65535) [(16, y.1), (17, y.2)]
    Runs d 0x22 x ∧ d.regionStatus 0 x.target = stOk ∧ d.region (targetRegion x) = some r ∧ d.tenantGone 0 r.keyId.toNat = false ∧
    (∀ t, t < r.tiles → (r.at t).gen ≠ 0) ∧ r.wback = true ∧ fieldAt x 17 1 = y.2 := by decide +kernel

theorem witness_regionFlush : ∀ y ∈ [0, 2, 3], let r := { t1Region 2 with homeTier := 2, wback := true }
    let x := desc (hReg 65535) [(16, 1), (20, 1), (24, y)]
    Runs (reg r) 0x23 x ∧ (reg r).regionStatus 0 x.target = stOk ∧ (reg r).region (targetRegion x) = some r ∧
    (reg r).tenantGone 0 r.keyId.toNat = false ∧ rangeOk r (fieldAt x 16 4) (fieldAt x 20 4) = true := by decide +kernel

theorem witness_regionMove : ∀ y ∈ [(1, 0), (2, 0x10)], let r := t1Region 2
    let d := withExt (reg r)
    let x := desc (hReg 65535) [(16, 1), (20, 1), (24, y.1), (32, y.2)]
    Runs d 0x24 x ∧ chkRegionMove d 0 x = stOk ∧ d.region (targetRegion x) = some r ∧ d.tenantGone 0 r.keyId.toNat = false ∧
    r.wback = false ∧ r.bound = false := by decide +kernel

theorem witness_tile_io : ∀ op ∈ [(0x25 : Byte), 0x26], let r := t1Region 1024
    let x := desc (hReg 65535) [(16, 4096), (24, 0), (28, 1024), (32, 64)]
    Runs (reg r) op x ∧ chkTileIo (reg r) 0 x = stOk ∧ (reg r).region (targetRegion x) = some r ∧
    (reg r).tenantGone 0 r.keyId.toNat = false ∧ r.isSealed = false ∧ r.bound = false := by decide +kernel

/-- A sealed region. -/
def sealed1 : Region := { t1Region 1 with isSealed := true, tile := [(0, { gen := 1, digest := 5 })] }

def xReplicas : Desc := desc (hReg 65535) [(16, (hReg 65535).toNat), (24, (hReg 65535).toNat), (32, (hReg 65535).toNat), (40, (hReg 65535).toNat), (48, 4)]

theorem witness_replicaSet : Runs (reg sealed1) 0x27 xReplicas ∧ (reg sealed1).tenantGone 0 5 = false ∧
    (reg sealed1).region (targetRegion xReplicas) = some sealed1 ∧ replicaList xReplicas = List.replicate 4 (hReg 65535) ∧
    hDevice (hReg 65535) = (reg sealed1).id ∧ (reg sealed1).replicaDiffers sealed1 (hReg 65535) = none := by decide +kernel

theorem witness_replicaSet_checks : chkReplicaSet (reg sealed1) 0 xReplicas = stOk := by decide +kernel

theorem witness_replicaRebuild : ∀ y ∈ [0, 1], let d := reg (t1Region 1024)
    let x := desc (hReg 65535) [(16, if y = 0 then 0x1000 else (hReg 9).toNat), (28, 1024), (32, y)]
    Runs d 0x28 x ∧ chkReplicaRebuild d 0 x = stOk ∧ d.region (targetRegion x) = some (t1Region 1024) ∧ d.tenantGone 0 5 = false := by
  decide +kernel

theorem witness_bgCopy : let d := { reg (t1Region 8) with tier := { (reg (t1Region 8)).tier with region := [(9, t1Region 8), (65535, t1Region 8)] } }
    let x := desc (hReg 65535) [(16, (hReg 9).toNat)]
    Runs d 0x29 x ∧ d.regionStatus 0 x.target = stOk ∧ d.region (targetRegion x) = some (t1Region 8) ∧ d.tenantGone 0 5 = false ∧
    rangeOk (t1Region 8) (fieldAt x 24 4) (fieldAt x 28 4) = true ∧ d.regionStatus 0 (BitVec.ofNat 64 (fieldAt x 16 8)) = stOk ∧
    d.region 9 = some (t1Region 8) ∧ (t1Region 8).isSealed = false ∧ (t1Region 8).bound = false ∧ d.copyLimit = false := by decide +kernel

/-- Two weight tiles, the second never written. -/
def weights2 : Region := { t1Region 2 with weight := true, tile := [(0, { gen := 1 })] }

theorem witness_tileRead_run : let x := desc (hReg 65535) [(16, 4096), (24, 0), (28, 2), (32, 64)]
    Runs (reg weights2) 0x26 x ∧ (run (reg weights2) 0x26 x).Hears (entry 0x26 x) ∧ (entry 0x26 x).result = 0 ∧ (entry 0x26 x).detail = 0 ∧
    (reg weights2).region (targetRegion x) = some weights2 ∧ weights2.tiles ≤ 2 ^ 28 ∧ (reg weights2).tenantGone 0 5 = false ∧
    chkTileIo (reg weights2) 0 x = stOk ∧ (weights2.at 1).gen = 0 ∧ (weights2.at 0).bad = 0 := by decide +kernel

theorem witness_tileRead_tile : ∃ raw, weights2.rawHere 0 = some raw ∧
    (weights2.weight || crc64 raw == (weights2.at 0).digest || (weights2.at 0).cache.isSome) = true := ⟨_, rfl, rfl⟩

theorem witness_regionFlush_run : let r := { t1Region 2 with homeTier := 2, wback := true, tile := [(0, { gen := 1, cache := some ([1], false) })] }
    let x := desc (hReg 65535) []
    Runs (reg r) 0x23 x ∧ (reg r).regionStatus 0 x.target = stOk ∧ rangeOk r (fieldAt x 16 4) (fieldAt x 20 4) = true ∧ fieldAt x 24 1 = 0 ∧
    (∀ t, t < 2 → (reg r).tileInFlight (targetRegion x) t = false ∧ ((r.at t).cache.all fun c => !c.2) = true) := by decide +kernel

theorem witness_regionMove_run : let r := t1Region 2
    let x := desc (hReg 65535) [(16, 1), (20, 1), (24, 1)]
    Runs (reg r) 0x24 x ∧ chkRegionMove (reg r) 0 x = stOk ∧ r.wback = false ∧ r.bound = false ∧ fieldAt x 24 1 = 1 ∧
    (∀ t, t < 2 → r.tierOf t = 1) ∧ rangeCount r (fieldAt x 16 4) (fieldAt x 20 4) ≠ r.tiles := by decide +kernel

/-! ### KV pages and Yo-yo -/

/-- Session 62 beside session 63. -/
def ses2 (y z : Session) : Dev :=
  let f := fun (y : Session) => { y with gen := 1, keyId := 5, histReg := 8 }
  { rich with tus := { rich.tus with slot := [(62, f y), (63, f z)] } }

theorem witness_ptShare : let d := ses2 { st := .idle, positions := 32 } { st := .idle }
    let x := desc h63 [(16, (mkHandle 0 0 1 62).toNat), (24, 32)]
    Runs d 0x30 x ∧ chkPtShare d 0 x = stOk ∧ d.tussockAccess.shareStatus 0 63 62 (fieldAt x 24 4) = stOk := by decide +kernel

theorem witness_ptTruncate : ∀ s ∈ [SState.idle, .parked], let d := ses { st := s, positions := 33 }
    let x := desc h63 [(16, 32)]
    Runs d 0x31 x ∧ d.sessionStatus 0 x.target = stOk ∧ d.tussockAccess.tenantGone 0 5 = false ∧ (d.ses 63).st = s ∧
    (d.ses 63).staged = 0 ∧ (d.ses 63).genArmed = false ∧ fieldAt x 16 4 < (d.ses 63).positions := by decide +kernel

theorem witness_kvDrop : ∀ y ∈ [(1, 0, 0), (0, 2, 1)], let d := ses { st := .parked, positions := 33 }
    let x := desc h63 [(16, y.1), (17, y.2.1), (18, y.2.2)]
    Runs d 0x32 x ∧ chkKvDrop d 0 x = stOk ∧ d.tussockAccess.tenantGone 0 5 = false ∧ (d.ses 63).st = .parked ∧
    fieldAt x 18 1 ≤ rangesOf (d.ses 63).positions ∧ fieldAt x 17 1 ≤ (d.sesHdr 0 63).layers := by decide +kernel

theorem witness_yoyo : let d := ses { st := .parking }
    63 < 4194304 ∧ (d.ses 63).st = .parking ∧ (d.ses 63).writing = [] ∧ d.parksBusy < 64 := by decide +kernel

theorem witness_demotion : let d := { ses { st := .parked, depth := 2 } with inForce := [((YOY_PARK_CFG_DEMOTE_S 0).off, 0x10006)] }
    (d.ses 63).st = .parked ∧ (d.ses 63).depth = 2 ∧ d.getB (YOY_PARK_CFG_DEMOTE_S (d.sesPart 63)) ≠ 0 ∧ (d.ses 63).writing = [] := by
  decide +kernel

theorem witness_revival : (ses { st := .ready, depth := 2 }).nextRevival 63 = true ∧ (ses { st := .ready, depth := 2 }).revivalsBusy < 64 := by
  decide +kernel

theorem witness_decode : let d := ses { st := .reviving, fetching := [0], pages := [(0, { data := [1] })] }
    (d.ses 63).st = .reviving ∧ (d.ses 63).fetching.contains 0 = true ∧ tget (d.ses 63).pages 0 = some { data := [1] } := by decide +kernel

theorem witness_recompute : ∀ ok : Bool, (Instr.recomputeJobDone 63 65535 1 [] 0 ok).wf = true ∧ (ses { st := .reviving }).ses 63 ≠ {} ∧
    ((ses { st := .reviving }).ses 63).st = .reviving ∧ ((ses { st := .resident, heldStep := true }).ses 63).heldStep = true := by decide +kernel


/-! ### Tokens, arithmetic, semaphores -/

/-- A device with region 65535 and partition 0's token-engine state. -/
def tokDev (r : Region) (t : TokP) : Dev := { reg r with tok := [(0, t)] }

theorem witness_tokBind : let x := desc 0 [(16, (hReg 65535).toNat)]
    let d := tokDev (t1Region 7) {}
    Runs d 0x50 x ∧ BitVec.ofNat 64 (fieldAt x 16 8) ≠ 0 ∧ d.regionStatus 0 (BitVec.ofNat 64 (fieldAt x 16 8)) = stOk ∧
    d.region (hRegion (BitVec.ofNat 64 (fieldAt x 16 8))) = some (t1Region 7) ∧ (t1Region 7).fitsTok (d.getF (TUS_PART_COUNT 0)) = true ∧
    (d.tokp 0).bound = none ∧ (t1Region 7).bound = false ∧ (t1Region 7).isSealed = false := by decide +kernel

theorem witness_tokUnbind : let x := desc 0 []
    Runs rich 0x50 x ∧ BitVec.ofNat 64 (fieldAt x 16 8) = 0 ∧ (rich.sesWhere 0 fun y => y.st != .free) = [] := by decide +kernel

theorem witness_classSet : ∀ y ∈ [(0, 1, 1, 0, 0), (63, 2097152, 1048576, 1048575, 0)],
    let x := desc 0 [(16, y.1), (20, y.2.1), (24, y.2.2.1), (28, y.2.2.2.1), (32, y.2.2.2.2), (36, 1)]
    Runs rich 0x52 x ∧ chkClassSet rich 0 x = stOk ∧ (rich.tokp 0).bound.isSome = true := by decide +kernel

theorem witness_profileSet : ∀ y ∈ [(0, 0x3F800000, 0), (0x42800000, 0x3F000000, 4096)],
    let x := desc 0 [(16, 4095), (20, y.1), (24, y.2.1), (28, y.2.2), (32, 1)]
    Runs rich 0x53 x ∧ chkProfileSet x = stOk := by decide +kernel

def xList : Desc := desc 0 [(16, 4095), (18, 2), (20, 16), (24, 4), (32, 64), (40, (hReg 65535).toNat)]

theorem witness_listLoad : let d := reg (t1Region 2)
    Runs d 0x54 xList ∧ chkListLoad d 0 xList = stOk ∧ d.listStatus (entry 0x54 xList) = stOk := by decide +kernel

theorem witness_listsetDefine : let d := tokDev (t1Region 2) { bound := some 9, lists := [(4095, { kind := 2, region := 65535, records := [] })] }
    let x := desc 0 [(16, 4095), (18, 0xFFFF), (20, 0xFFFF), (22, 4095)]
    Runs d 0x55 x ∧ fieldAt x 16 2 ≤ 4095 ∧ (∀ i, i < 3 → fieldAt x (18 + 2 * i) 2 ≤ 4095 ∨ fieldAt x (18 + 2 * i) 2 = 0xFFFF) ∧
    (d.tokp 0).bound.isSome = true ∧ tget (d.tokp 0).sets (fieldAt x 16 2) = none ∧
    (∀ i, i < 3 → (d.tokp 0).listOk (fieldAt x (18 + 2 * i) 2) i = true) := by decide +kernel

theorem witness_listFree : ∀ y ∈ [0, 1], let x := desc 0 [(16, y), (18, 4095)]
    Runs rich 0x56 x ∧ fieldAt x 18 2 ≤ 4095 ∧ fieldAt x 16 1 = y ∧
    ((rich.tokp 0).sets.any fun z => z.2.1 == fieldAt x 18 2 || z.2.2.1 == fieldAt x 18 2 || z.2.2.2 == fieldAt x 18 2) = false ∧
    rich.setArmed 0 (fieldAt x 18 2) = false := by decide +kernel

theorem witness_tokSeed : let d := ses { st := .idle }
    let x := desc h63 [(16, 2 ^ 64 - 1)]
    Runs d 0x57 x ∧ d.sessionStatus 0 x.target = stOk ∧ (d.ses 63).genArmed = false ∧ (d.tokp 0).bound.isSome = true := by decide +kernel

/-- The length-table entry of session 63. -/
def len63 : LenEntry :=
  { loc := 63, ctx := 1, new := 1, version := 1, root := 0, sample := true, linger := false, held := false, repeats := false, frames := 0 }

theorem witness_logits : let d := { ses { st := .resident } with kva := { len := [(0, [len63])] } }
    d.lenOf (d.sesPart 63) 63 = some len63 ∧ d.vocabOf (d.sesPart 63) (d.ses 63).cls = some vocab2 ∧ d.phase (d.sesPart 63) = 0 ∧
    len63.sample = true ∧ len63.held = false ∧ len63.tokens = [] ∧ 0 < vocab2.shards := by decide +kernel

/-- Layer 1 of partition 7. -/
def layer7 (y : Layer) : Dev :=
  { host7 with ari := [(7, { layer := [(1, y)] })],
               inForce := [((ARI_SHADOW_CFG_RATE_LOG2 7).off, (setFs {} [(ARI_SHADOW_CFG_RATE_LOG2 7, 20), (ARI_SHADOW_CFG_CONSEC 7, 15)]).reg
                 (ARI_SHADOW_CFG_RATE_LOG2 7).off)] }

theorem witness_shadow_select : let d := layer7 { jobs := 2 ^ 20 }
    d.getB (ARI_SHADOW_CFG_RATE_LOG2 7) ≠ 0 ∧ (d.layer 7 1).sampled = true ∧ 2 ^ d.getB (ARI_SHADOW_CFG_RATE_LOG2 7) ≤ (d.layer 7 1).jobs := by
  decide +kernel

theorem witness_shadow_done : let d := layer7 { shadow := 1 }
    (d.layer 7 1).shadow ≠ 0 ∧ d.getL (ARI_SHADOW_MAX_ERROR 7) < shadowError [0x7F800000] [0x3F800000] ∧
    shadowError [0x7F800000] [0x3F800000] < 2 ^ (ARI_SHADOW_MAX_ERROR 7).w := by decide +kernel

theorem witness_consec : let d := layer7 { run := 15 }
    d.getB (ARI_SHADOW_CFG_CONSEC 7) ≤ (d.layer 7 1).run ∧ (d.layer 7 1).level < (d.layer 7 1).top := by decide +kernel

/-- Partition 0 with two banks of semaphores, groups and descriptors. -/
def sems (gs : Tbl SemGroup) (ss : Tbl Sem) : Dev :=
  let d := setFs rich [(PLC_SEM_BANKS 0, 2)]
  { d with plc := { d.plc with group := gs, sem := ss } }

/-- A group of one semaphore, number 127. -/
def group127 (domain : Bool) : SemGroup := { part := 0, first := 127, count := 1, total := 4, domain := domain, home := 0 }

theorem witness_semGroupCreate : ∀ y ∈ [(0xFFFF, 64, 0x3FFFFFF), (127, 1, 0xFFFFFFFF)], let d := sems [] []
    let x := desc 0 [(16, y.1), (18, y.2.1), (20, y.2.2)]
    Runs d 0x43 x ∧ chkSemCreate d 0 x = stOk ∧ ((fieldAt x 16 2 = 0xFFFF ∧ d.freeSems 0 (fieldAt x 18 1) = some 0) ∨
      (fieldAt x 16 2 = 127 ∧ d.runFree 0 127 (fieldAt x 18 1) = true)) := by decide +kernel

theorem witness_semGroupDestroy : let d := sems [(127, group127 false)] [(127, { value := 4 })]
    let x := desc 0 [(16, 127)]
    Runs d 0x44 x ∧ d.semOwned 0 127 = true ∧ tget d.plc.group 127 = some (group127 false) ∧ (group127 false).job = none ∧
    (∀ i, i < 1 → (d.sem (127 + i)).held = [] ∧ (d.sem (127 + i)).queue = []) := by decide +kernel

theorem witness_semOp : ∀ y ∈ [(1, 1, 4), (2, 0, 4), (3, 0, 0)], let d := sems [(127, group127 false)] [(127, { value := 4 })]
    let x := desc 0 [(16, 127), (18, 0xFFFF), (20, y.1), (21, y.2.1), (24, y.2.2)]
    Runs d 0x45 x ∧ chkSemOp d 0 x = stOk ∧ semHome d x = none := by decide +kernel

/-- A message of device 1 about semaphore 127. -/
def semMsg : SemMsg := { dev := 1, part := 0, sem := 127, op := 1, n := 1, try_ := false, tag := 3, value := 3, applied := true, lost := false }

theorem witness_semaphoreOperation : let d := sems [(127, group127 true)] [(127, { value := 4 })]
    d.groupOf semMsg.sem = some (127, group127 true) ∧ (group127 true).domain = true ∧ (group127 true).home = d.id ∧
    (group127 true).part = semMsg.part := by decide +kernel

theorem witness_semaphoreReply : let x := desc 0 [(16, 127), (18, 1), (20, 1), (24, 1)]
    ∀ y ∈ tget (waits base 0x45 x (.semaphore 127)).rng.descs semMsg.tag.toNat, y.op = 0x45 ∧ y.st = .waiting (.semaphore 127) ∧
      semHome (waits base 0x45 x (.semaphore 127)) y.d = some semMsg.dev ∧ semMsg.lost = false ∧ semMsg.applied = true := by decide +kernel

theorem witness_semaphore_tokens : let d := sems [(127, group127 false)] [(127, { value := 4, held := [(.ring 0, 1)] })]
    let w : SemWait := { who := .ring 0, id := 3, n := 1 }
    (d.sem 127).queue = [] ∧ w.n ≤ (d.sem 127).value ∧ (d.sem 127).value < ({ w with n := 5 } : SemWait).n ∧
    d.groupOf 127 = some (127, group127 false) ∧ 127 ≤ 127 ∧ 127 < 127 + (group127 false).count ∧ w.n ≤ (d.sem 127).heldBy w.who := by
  decide +kernel


/-! ### Jobs, cores, the layer window -/

/-- A job of partition 0 whose slot is 3. -/
def job3 (st : JobState) : Job := { st := st, gen := 1, hdr := { devices := 1, layers := 3, w := 2 }, sect := some sect1, vocab := some vocab2 }

/-- The device of `rich` with that job. -/
def jobs (j : Job) : Dev := { rich with plc := { rich.plc with job := rich.plc.job ++ [(3, j)] } }

theorem witness_imageLoad : ∀ n ∈ [256, 268435456], let x := desc 0 [(16, 4096), (24, n)]
    Runs base 0x40 x ∧ fieldAt x 16 8 % 4096 = 0 ∧ 256 ≤ fieldAt x 24 8 ∧ fieldAt x 24 8 ≤ 268435456 := by decide +kernel

theorem witness_jobStop : let x := desc (mkJobHandle 0 0 1 0) [(16, 1)]
    Runs rich 0x41 x ∧ rich.jobStatus 0 x.target = stOk ∧ tget rich.plc.switch 0 = none ∧ (rich.job 0 (hSlot x.target)).ended = false ∧
    (∀ a ∈ rich.activeJob 0, rich.rootOf a = true) ∧ rich.activeJob 0 ≠ none ∧ (fieldAt x 16 1).testBit 0 = true ∧
    (rich.job 0 (hSlot x.target)).st = .active := by decide +kernel

theorem witness_jobSwitch : let x := desc (mkJobHandle 0 0 1 3) []
    let d := { jobs (job3 .loaded) with plc := { rich.plc with job := [(3, job3 .loaded)] } }
    Runs d 0x41 x ∧ d.jobStatus 0 x.target = stOk ∧ tget d.plc.switch 0 = none ∧ (job3 .loaded).ended = false ∧ d.activeJob 0 = none ∧
    d.job 0 (hSlot x.target) = job3 .loaded ∧ d.rootOf (job3 .loaded) = true ∧ (fieldAt x 16 1).testBit 0 = false ∧
    (job3 .loaded).vocab.isSome = true := by decide +kernel

theorem witness_jobUnload : let x := desc (mkJobHandle 0 0 1 3) []
    let d := { jobs (job3 .loaded) with tus := { slot := [(63, { st := .idle, cls := 63 })] } }
    Runs d 0x42 x ∧ d.jobStatus 0 x.target = stOk ∧ d.job 0 (hSlot x.target) = job3 .loaded ∧ (job3 .loaded).waiters = [] ∧
    (∀ e ∈ d.tus.slot, e.2.st = .free ∨ (job3 .loaded).hdr.classes.getLsbD e.2.cls = false) := by decide +kernel

/-- Partition 0 whose active job has three layers and a window of two. -/
def deep (w : Window) : Dev :=
  { rich with plc := { job := [(0, job3 .active)] }, tier := { rich.tier with window := [(0, w)] } }

theorem witness_layerFinished : let d := deep { holds := [(0, 2), (1, 1)] }
    d.activeJob 0 = some (job3 .active) ∧ d.phase 0 = 0 ∧ 2 < (job3 .active).hdr.layers ∧ (job3 .active).hdr.w < (job3 .active).hdr.layers ∧
    ((d.stallAt 0 3).window 0).holds.any (fun y => y.1 == 2 % (job3 .active).hdr.w && y.2 == 2) = true := by decide +kernel

theorem witness_layerFinished_whole : ∀ a ∈ rich.activeJob 0, a.sect = some sect1 ∧ rich.phase 0 = 0 ∧ 1 < a.hdr.layers ∧ a.hdr.w = a.hdr.layers := by
  decide +kernel

theorem witness_windowSlotFilled : let d := deep { holds := [(1, 1)], wanted := [(0, 2)], asked := [(0, 2)] }
    ((d.activeJob 0).bind fun j => j.sect) = some sect1 ∧ (d.window 0).asked.find? (fun y => y.1 == 0) = some (0, 2) ∧
    d.layerPresent sect1 2 = true := by decide +kernel

/-- The last core is partition 0's. -/
def core255 (d : Dev) : Dev := { d with regs := tput d.regs (PLC_PART_CORES 0 3) 0x8000000000000000 }

theorem witness_coreTileJob : let d := core255 (sems [(127, group127 false)] [])
    d.corePart 255 = some 0 ∧ d.locOwner 63 = some 0 ∧ modeOf 0x20 0x21 = some 0 ∧ modeOf 0x04 0x04 = some 5 ∧
    ((d.modCore 255 fun y => { y with jobs := y.jobs + 1 }).groupOf 127) = some (127, group127 false) ∧ (group127 false).part = 0 := by
  decide +kernel

/-! ### Reed -/

/-- A region that an index may take. -/
def reedRegion : Region := { t1Region 100000 with kind := 4 }

/-- Partition 0 with 64 index numbers, quotas, and two such regions. -/
def reedDev (xs : Tbl Index) (nums : Tbl Numbers) : Dev :=
  let d := setFs rich [(RED_PART_COUNT 0, 64), (RED_QUOTA_PAGES 0, 3072), (RED_QUOTA_REEDS 0, 4096)]
  { d with tier := { d.tier with region := [(9, reedRegion), (65535, reedRegion)] }, red := { index := xs, numbers := nums } }


def memIdx : Index :=
  { gen := 1, part := 0, memory := true, metric := 0, dim := 8, m := 0, r := 0, bits := 256, alpha := 0, mergeEf := 0, capacity := 4, sideMax := 1024,
    region := 65535, vecRegion := some 9 }

/-- Handle of index 63. -/
def hIdx : U64 := mkHandle 0 0 1 63

theorem witness_indexCreate : ∀ x ∈ [desc 0 [(16, (hReg 65535).toNat), (24, (hReg 9).toNat), (40, 1048576), (44, 1024), (48, 8), (50, 1), (51, 2), (56, 256)],
      desc 0 [(16, (hReg 65535).toNat), (32, 8), (40, 1), (44, 16777216), (48, 4096), (52, 256), (54, 64), (55, 128), (58, 1024)]],
    let d := reedDev [] [(0, { fresh := 63 })]
    Runs d 0x60 x ∧ chkIndexCreate d 0 x = stOk ∧
    (tgetD d.red.numbers 0 {}).take (d.getF (RED_PART_FIRST 0)) (d.getF (RED_PART_COUNT 0)) = some (63, { fresh := 64 }) := by decide +kernel

theorem witness_indexDestroy : let d := reedDev [(63, memIdx)] []
    Runs d 0x61 (desc hIdx []) ∧ d.indexStatus 0 hIdx = stOk ∧ d.index 63 = some memIdx ∧ memIdx.names = 0 := by decide +kernel

theorem witness_mutations : ∀ n ∈ [1, 4096], let d := reedDev [(63, memIdx)] []
    let x := desc hIdx [(16, 8), (24, 8), (32, n)]
    Runs d 0x62 x ∧ chkMutation d 0 x 32 4096 = stOk ∧ Runs d 0x63 (desc hIdx [(16, 8), (24, 16 * n)]) ∧
    chkMutation d 0 (desc hIdx [(16, 8), (24, 16 * n)]) 24 65536 = stOk ∧ Runs d 0x65 (desc hIdx []) ∧ Runs d 0x66 (desc hIdx []) ∧
    d.indexStatus 0 hIdx = stOk := by decide +kernel

def xQuery : Desc := desc hIdx [(16, 8), (24, 8), (32, 1024), (36, 4096)]

theorem witness_vecQuery : let d := reedDev [(63, memIdx)] []
    Runs d 0x64 xQuery ∧ chkVecQuery d 0 xQuery = stOk ∧ d.queryIndex xQuery = 63 ∧
    memIdx.pages (fieldAt xQuery 34 2) (fieldAt xQuery 36 2) (fieldAt xQuery 38 2) ≤ d.getF (RED_QUOTA_PAGES 0) := by decide +kernel

theorem witness_queryReedAssign : let d := waits (reedDev [(63, memIdx)] []) 0x64 xQuery (.query 63)
    d.queryWaits 0 = [3] ∧ (∀ z ∈ tget d.rng.descs 3, d.queryIndex z.d = 63) ∧ d.index 63 = some memIdx ∧ d.red.query = [] ∧
    0 < d.getF (RED_QUOTA_REEDS 0) ∧ memIdx.pages (fieldAt xQuery 34 2) (fieldAt xQuery 36 2) (fieldAt xQuery 38 2) ≤ d.getF (RED_QUOTA_PAGES 0) ∧
    d.mutationBefore 63 3 = false := by decide +kernel

theorem witness_mergeStart : let y := { memIdx with requested := true }
    let d := reedDev [(63, y)] []
    63 < 4194304 ∧ d.index 63 = some y ∧ y.mergeAt = none ∧ d.mergesBusy < 8 ∧
    (d.red.query.any fun q => q.index == 63 && decide (q.snap < y.lastCommit)) = false := by decide +kernel

theorem witness_mergeCommit : let y := { memIdx with mergeAt := some 1, epoch := 0xFFFFFFFD, region := 9 }
    let d := { reedDev [(63, y)] [] with tier := {} }
    d.index 63 = some y ∧ y.mergeAt = some 1 ∧ d.reedBad y.region (List.range y.tileCount) = stOk ∧ y.epoch + 1 < noEpoch := by decide +kernel

/-! ### Sluice -/

/-- Partition 0 with every shaper, its first DXL port its own. -/
def sluice (t : Tbl Shaper) (q : Tbl Policer) : Dev :=
  let d := setFs rich [(SLU_PART_SHAPER_COUNT 0, 16384), (SEC_PART_PORT_MASK 0, 1), (GLB_ASSEMBLY_L_DIES, 4)]
  { d with slu := { shaper := t, policer := q } }

/-- A shaper of partition 0. -/
def shaper0 : Shaper := { part := 0, egress := 0, classes := 1, rate := 1, burst := 256, tokens := 0, at_ := 0, held := [{ tag := 0, wire := 256, dst := 1, cls := 0 }] }

theorem witness_shaperSet : ∀ y ∈ [(1, 256, 0), (1600000, 67108864, 1)], let d := sluice [(16383, shaper0)] []
    let x := desc 0 [(16, 16383), (19, 255), (20, y.1), (24, y.2.1), (28, y.2.2)]
    Runs d 0x80 x ∧ chkShaperSet d 0 x = stOk ∧ d.overlaps 0 16383 (fieldAt x 18 1) (BitVec.ofNat 8 (fieldAt x 19 1)) = false := by decide +kernel

theorem witness_shaperClear : let d := sluice [(16383, shaper0)] []
    Runs d 0x81 (desc 0 [(16, 16383)]) ∧ d.shaperOwned 0 16383 = true ∧ tget d.slu.shaper 16383 = some shaper0 ∧
    Runs d 0x81 (desc 0 []) ∧ d.shaperOwned 0 0 = true ∧ tget d.slu.shaper 0 = none := by decide +kernel

theorem witness_policers : ∀ y ∈ [(1, 1, 0, 0, 0), (40000000, 65536, 1600000, 67108864, 1)], let d := sluice [] []
    let x := desc 0 [(16, 15), (20, y.1), (24, y.2.1), (28, y.2.2.1), (32, y.2.2.2.1), (36, y.2.2.2.2)]
    Runs d 0x82 x ∧ chkPolicerSet d 0 x = stOk ∧ Runs d 0x83 (desc 0 [(16, 15)]) ∧ d.policerOwned 0 15 = true := by decide +kernel

theorem witness_policer_decides : let q : Policer := { descRate := 1, descBurst := 2, byteRate := 1, byteBurst := 256, descTok := descToken, byteTok := 8000, at_ := 0 }
    (q.decide 0 1).1 = true ∧ (q.decide 0 2).1 = false ∧ q.byteRate ≠ 0 := by decide +kernel


/-! ### Frames, requests and ports of the fabric -/

/-- An extent of two pages granted to partition 7 of device 1. -/
def ext5 : Extent :=
  { gen := 1, dev := 1, part := 7, window := none, space := 0, base := 0, pages := 2, shared := false, park := false, cls := 0, epoch := 1 }

/-- A device that lends memory, with that extent and requests outstanding. -/
def home (rs : Tbl Req) : Dev :=
  let d := setFs rich [(FAB_LEND_LENT_FRAMES, 65536), (GLB_ASSEMBLY_L_DIES, 4)]
  { d with fab := { d.fab with extent := [(5, ext5)], req := rs, numbers := { fresh := 6 } } }

/-- A frame from partition 7 of device 1, unencrypted, on the last channel. -/
def frm (addr : U64) (payload : List Byte) : Frame :=
  { type := 0, chan := 35, enc := false, shared := false, src := 1, dst := 0, master := 0, status := 0x20, sub := 0, keyId := 0, keyGen := 0, tag := 9,
    addr := addr, epoch := 1, nonce := 0, payload := payload, gtag := 0 }

theorem witness_frame : ∀ t ∈ [(1 : Byte), 2, 3, 4, 5, 15], (frm 0 []).wf = true ∧ (frm 0 []).chan < 36 ∧ (frm 0 []).dst = (home []).id ∧
    (home []).openFrame { frm 0 [] with type := t } = (home [], some { frm 0 [] with type := t }) := by decide +kernel

theorem witness_write_stored : let f := { frm 0xFFFF [1, 2] with type := 3 }
    (home []).openFrame f = (home [], some f) ∧ (home []).homeStatus f true f.payload.length = stOk ∧ poolSpace f.addr = 0 ∧
    Memory.wf (st (home [])).mem = true := by decide +kernel

theorem witness_write_refused : (home []).homeStatus { frm 0 [] with type := 3 } true 0 ≠ stOk ∧
    poolSpace (frm 0x1000000000000 [1]).addr ≠ 0 := by decide +kernel

theorem witness_read : ∀ n ∈ [1, 65536], let f := { frm 0 (leBytes 8 n) with type := 1 }
    (home []).homeStatus f false (leAt f.payload 0 8) = stOk ∧
    ((pagesOf (poolOffset f.addr) (leAt f.payload 0 8)).any fun a => ((home []).dirOf (poolSpace f.addr) a).st == .frozen) = false := by
  decide +kernel

/-- A request of this device under TAG 9 to device 1. -/
def req9 (p : Purpose) (w : Bool) : Req := { purpose := p, addr := 0x10000000000000, len := 1, isWrite := w, home := 1, part := 0, refusals := 3, stuck := true }

theorem witness_answers : ∀ w : Bool, (home [(9, req9 (.fetchPage 63 0) w)]).answers (frm 0 []) w = true := by decide +kernel

theorem witness_tile : Frame.part (frm 0 []) = some 7 := by decide +kernel

theorem witness_error : (home [(9, req9 (.fetchPage 63 0) false)]).offerTag (frm 0 []).tag = none ∧
    (((home [(9, req9 (.fetchPage 63 0) false)]).req (frm 0 []).tag.toNat).any fun r => r.home == (frm 0 []).src) = true := by decide +kernel

/-- A hand-over message from device 0 to device 1 of one page of device 2. -/
def msg2 : DirMsg := { txn := 9, src := 0, srcPart := 0, dst := 1, dstPart := 7, anchor := 0x20000000000000, pages := [0x20000000000000], deadline := 60000, outcome := 0, handle := 0 }

def offer9 : OfferTxn := { desc := 3, isSession := false, obj := 65535, msg := msg2, homes := [2] }

theorem witness_error_offer : let d := { home [] with fab := { (home []).fab with offer := [(9, offer9)] } }
    (frm 0 []).dst = d.id ∧ d.offerTag (frm 0 []).tag = some offer9 ∧ offer9.msg.dst = (frm 0 []).src := by decide +kernel

theorem witness_forward : ({ frm 0 [] with dst := 4095 } : Frame).wf = true ∧ ({ frm 0 [] with dst := 4095 } : Frame).dst ≠ (home []).id := by decide +kernel

theorem witness_requests_end : (home [(9, req9 (.peer (frm 0 [])) false)]).req (9 : U32).toNat = some (req9 (.peer (frm 0 [])) false) ∧
    (home [(9, req9 (.fetchPage 63 0) false)]).req (9 : U32).toNat = some (req9 (.fetchPage 63 0) false) ∧
    3 ≤ (req9 (.fetchPage 63 0) false).refusals := by decide +kernel

theorem witness_not_a_peer : ∀ f, (req9 (.fetchPage 63 0) false).purpose ≠ .peer f := fun _ h => nomatch h

theorem witness_nonces : ∀ n ∈ [nonceLimit, 2 ^ 38, nonceLimit - 1],
    let d := { home [] with fab := { (home []).fab with nonce := [(nonceIndex (chanSet (some 7)) 5 1, n)] } }
    tgetD d.fab.nonce (nonceIndex (chanSet (some 7)) (5 : U16).toNat (1 : U16).toNat) 0 = n ∧
    d.fab.nonceLow.contains (nonceIndex (chanSet (some 7)) (5 : U16).toNat (1 : U16).toNat) = false := by decide +kernel

/-- DXL port 31 of four L-dies in a state. -/
def port31 (state : Nat) (x : Port) : Dev :=
  let d := setFs rich [(GLB_ASSEMBLY_L_DIES, 4), (FAB_PORT_STATE 31, state)]
  { d with fab := { d.fab with port := [(31, x)] } }

set_option maxRecDepth 100000 in
theorem witness_dataFlit : let b := leBytes 256 (mkFlit 1 0 0 35 0 true 0 0 0 [1]).toNat
    (port31 3 {}).portUp 31 = true ∧ (port31 3 {}).flitGood 31 b = true ∧ flitType b = 1 ∧
    BitVec.ofNat 12 (leAt b 0 2) = ((port31 3 {}).port 31).rxSeq + 1 := by decide +kernel

set_option maxRecDepth 100000 in
theorem witness_idleFlit : let b := leBytes 256 (mkFlit 0 0 0 0 0 false 0 0 0 []).toNat
    (port31 3 {}).flitGood 31 b = true ∧ flitType b = 0 ∧ (port31 3 {}).flitGood 31 (leBytes 256 1) = false := by decide +kernel

theorem witness_ports : (port31 3 { unacked := 1, nakRun := 8 }).portUp 31 = true ∧ 0 < ((port31 3 { unacked := 1, nakRun := 8 }).port 31).unacked ∧
    8 ≤ ((port31 3 { unacked := 1, nakRun := 8 }).port 31).nakRun ∧ (port31 4 {}).getF (FAB_PORT_STATE 31) = 4 := by decide +kernel

theorem witness_training : ∀ pairs ∈ [(1 : BitVec 4), 15], 31 / 8 < (port31 1 {}).getF GLB_ASSEMBLY_L_DIES ∧ (port31 1 {}).portUp 31 = false ∧
    trainedWidth (pairs &&& ~~~((port31 1 {}).markedPairs 31)) ≠ 0 := by decide +kernel


/-! ### Extents and the memory pool -/

def xExtent (dest pages flags : Nat) : Desc := desc 0 [(16, dest), (19, flags), (20, pages), (25, if flags.testBit 1 then 15 else 0)]

theorem witness_extentRequest : Runs (home []) 0x70 (xExtent 0 65534 7) ∧ chkExtentRequest (home []) 0 (xExtent 0 65534 7) = stOk ∧
    tget (home []).fab.window (16 * 0 + fieldAt (xExtent 0 65534 7) 25 1) = none ∧ fieldAt (xExtent 0 65534 7) 16 2 % 4096 = (home []).id ∧
    Runs (home []) 0x70 (xExtent 4095 16777216 0) ∧ chkExtentRequest (home []) 0 (xExtent 4095 16777216 0) = stOk ∧
    fieldAt (xExtent 4095 16777216 0) 16 2 % 4096 ≠ (home []).id := by decide +kernel

theorem witness_extentRequest_fields : let x := xExtent 0 65534 7
    fieldAt x 18 1 = 0 ∧ fieldAt x 20 4 = 65534 ∧ fieldAt x 24 1 = 0 ∧ fieldAt x 25 1 = 15 := by decide +kernel

theorem witness_extentRequest_granted : ∃ t h cls, (home []).grant (home []).id 0 0 65534 0 true true (some 15) = .ok (t, h, cls) := ⟨_, _, _, rfl⟩

/-- An extent that partition 0 holds of this device, and one of device 1. -/
def extents (rev : Tbl Revoking) : Dev :=
  let i : ExtentInfo := { ext0 with handle := mkExtHandle 0 6 1 }
  let j : ExtentInfo := { ext0 with handle := mkExtHandle 1 6 1 }
  { home [] with fab := { (home []).fab with
      extent := [(6, { ext5 with dev := 0, part := 0 })], map := [((mkExtHandle 0 6 1).toNat, i), ((mkExtHandle 1 6 1).toNat, j)], revoke := rev } }

theorem witness_extentReturn : ∀ y ∈ [0, 1], let d := extents []
    let h := mkExtHandle y 6 1
    Runs d 0x71 (desc h []) ∧ d.extentStatus 0 h = stOk ∧ (d.takenPages h).isEmpty = true ∧ hExtHome h = d.id + y ∧
    ∀ y ∈ tget d.fab.extent (hExtNum h), ∀ z ∈ d.dirIn y, z.2.st = .owned ∧ z.2.dev = y.dev ∧ z.2.part = y.owner := by decide +kernel

theorem witness_extentRevoke : let d := extents []
    Runs d 0x72 (desc (mkExtHandle 0 6 1) []) ∧ hExtHome (mkExtHandle 0 6 1) = d.id ∧
    (∀ y ∈ tget d.fab.extent (hExtNum (mkExtHandle 0 6 1)), y.gen = hExtGen (mkExtHandle 0 6 1)) ∧
    (tget d.fab.extent (hExtNum (mkExtHandle 0 6 1))).isSome = true := by decide +kernel

theorem witness_revoke : 4095 < 4096 ∧ hExtHome (mkExtHandle 4095 6 1) = 4095 := by decide +kernel

theorem witness_revokeAck : let h := mkExtHandle 0 6 1
    let r : Revoking := { descs := [3], waiting := [4095] }
    let d := extents [(h.toNat, r)]
    tget d.fab.revoke h.toNat = some r ∧ 4095 ∈ r.waiting ∧ (tget d.fab.extent (hExtNum h)).isSome = true := by decide +kernel

theorem witness_mapUpdate : let i : ExtentInfo := { ext0 with handle := mkExtHandle 4095 1 1, pages := 0 }
    let d := extents []
    hExtHome i.handle = 4095 ∧ i.pages = 0 ∧ (tkeys d.rng.descs fun _ z => z.op == 0x71 && z.st == .waiting (.extent i.handle)) = [] ∧
    ({ i with pages := 1 } : ExtentInfo).pages ≠ 0 ∧ d.grantedTo 4095 { i with pages := 1 } = none := by decide +kernel

theorem witness_mapUpdate_grants : let i : ExtentInfo := { ext0 with handle := mkExtHandle 1 1 1 }
    let d := waits (home []) 0x70 (xExtent 1 2 0) (.extent 0)
    i.pages ≠ 0 ∧ d.grantedTo 1 i = some 3 ∧ (∀ e ∈ tget d.rng.descs 3, (fieldAt e.d 19 1).testBit 1 = false) ∧
    (tget d.rng.descs 3).isSome = true := by decide +kernel

theorem witness_poolPages : ∀ n ∈ [1, 1024], ∀ op ∈ [(0x74 : Byte), 0x75], let x := desc 0 [(16, 4096), (24, 65536), (32, n)]
    Runs base op x ∧ chkPoolPage base 0 x = stOk := by decide +kernel

/-- The host's device with window 15 on an extent. -/
def windowed : Dev := { host with fab := { map := [(0x10, ext0)], window := [(15, { extent := 0x10 })] } }

theorem witness_poolFlush : let x := desc 0 [(16, 15)]
    Runs base 0x73 x ∧ fieldAt x 16 1 ≤ 15 ∧ tget base.fab.window (16 * 0 + fieldAt x 16 1) = none ∧ Runs windowed 0x73 x ∧
    tget windowed.fab.window (16 * 0 + fieldAt x 16 1) = some { extent := 0x10 } ∧ (windowed.extentInfo 0x10).any (fun z => z.live) = true := by
  decide +kernel

theorem witness_hostLineAccess : acc.wf = true ∧ 15 < 16 ∧ windowed.fnReaches acc = some 0 ∧ tget windowed.fab.window (16 * 0 + 15) = some { extent := 0x10 } ∧
    windowed.extentInfo 0x10 = some ext0 ∧ ext0.live = true ∧ 131071 < ext0.pages * pageBytes ∧ 131071 < 2 ^ 40 ∧
    (windowed.rng.descs.any fun z => z.2.part == 0 && (match z.2.st with | .waiting (.lines w' _ _) => w' == 15 | _ => false)) = false := by
  decide +kernel

theorem witness_hostLinkLost : let d := setFs base [(GLB_ASSEMBLY_HOST_ROLE, 8)]
    3 < 4 ∧ (d.getF GLB_ASSEMBLY_HOST_ROLE).testBit 3 = true := by decide +kernel

/-- A device whose last L-die has the pool role, with pages of an appliance behind it. -/
def appliance : Dev :=
  let d := setFs base [(GLB_ASSEMBLY_L_DIES, 4), (GLB_ASSEMBLY_HOST_ROLE, 1)]
  { d with fab := { added := [(4, 0, 8)] } }

theorem witness_dcd : appliance.poolPort 4 = true ∧ (∀ r ∈ appliance.spaceRanges 4, overlap r (8, 1) = 0) ∧
    (∀ z ∈ appliance.fab.extent, z.2.space = 4 → z.2.base / pageBytes + z.2.pages ≤ 0 ∨ 0 + 8 ≤ z.2.base / pageBytes) := by decide +kernel

/-! ### Handing over ownership -/

/-- A region homed in the pool of device 2. -/
def poolRegion : Region := { t1Region 1 with homeTier := 2, extent := mkExtHandle 2 1 1 }

/-- A device that may offer it. -/
def offers (t : Tbl OfferTxn) : Dev :=
  let d := reg poolRegion
  { d with fab := { d.fab with offer := t, map := [((mkExtHandle 2 1 1).toNat, { ext0 with handle := mkExtHandle 2 1 1 })] } }

def xOffer (txn : Nat) : Desc := desc (hReg 65535) [(16, 1), (18, 7), (20, txn), (24, 60000)]

theorem witness_ownOffer : Runs (offers []) 0x76 (xOffer 9) ∧ chkOwnOffer (offers []) 0 (xOffer 9) = stOk ∧ (offers []).fab.offer.length < offerLimit ∧
    (offers []).offerObject 0 (hReg 65535) = some (false, 65535, [0x20000000000000]) ∧
    tget (offers []).fab.offer (BitVec.ofNat 32 (fieldAt (xOffer 9) 20 4)).toNat = none ∧ msg2.wf = true := by decide +kernel

theorem witness_ownOffer_waits : let d := offers ((List.range 64).map fun i => (i, offer9))
    Runs d 0x76 (xOffer 64) ∧ chkOwnOffer d 0 (xOffer 64) = stOk ∧ offerLimit ≤ d.fab.offer.length := by decide +kernel

theorem witness_prepared : let d := offers [(9, offer9)]
    let y := { offer9 with prepared := [2] }
    tget d.fab.offer msg2.txn.toNat = some offer9 ∧ msg2.src = d.id ∧ offer9.offered = false ∧ (y.homes.all fun h => y.prepared.contains h) = true ∧
    (({ offer9 with homes := [2, 3] } : OfferTxn).homes.all fun h => [2].contains h) = false := by decide +kernel

/-- A region offered with its only tile. -/
def objRegion : OfferObj := .region 0 2 0 5 false false [(0x20000000000000, 0)]

/-- The offer's message at its destination, this device. -/
def msgIn : DirMsg := { msg2 with src := 1, srcPart := 7, dst := 0, dstPart := 0 }

def accept9 : AcceptTxn := { desc := 3, part := 0, memIdx := 0xFFFFFFFF }

/-- The destination with what has been accepted and what is held. -/
def dest (a : Tbl AcceptTxn) (hs : List (DirMsg × OfferObj)) : Dev :=
  { rich with fab := { rich.fab with accept := a, hold := hs }, tier := { rich.tier with numbers := [(0, { fresh := 65535 })] } }

theorem witness_offer_held : msgIn.wf = true ∧ tget (dest [] []).fab.accept (acceptKey msgIn.src msgIn.txn) = none ∧ (dest [] []).fab.hold.length < 64 := by
  decide +kernel

theorem witness_offer_accepted : let d := dest [(acceptKey 1 9, accept9)] []
    tget d.fab.accept (acceptKey msgIn.src msgIn.txn) = some accept9 ∧ accept9.part = msgIn.dstPart ∧ accept9.offer = none ∧
    (d.storeKey accept9.part (OfferObj.keyId objRegion)).isSome = true ∧ (OfferObj.frames objRegion).1 ≤ d.freeFrames accept9.part ∧
    (d.setAside accept9.part objRegion).map (fun x => (x.1, x.2.1)) = some (65535, 1) := by decide +kernel

def xAccept : Desc := desc 0 [(16, 1), (20, 9), (24, 60000), (28, 0xFFFFFFFF)]

theorem witness_ownAccept : ∀ hs ∈ [[], [(msgIn, objRegion)]], let d := dest [] hs
    Runs d 0x77 xAccept ∧ 1 ≤ fieldAt xAccept 24 2 ∧ fieldAt xAccept 24 2 ≤ 60000 ∧ d.memIndexOk 0 (fieldAt xAccept 28 4) = true ∧
    tget d.fab.accept (acceptKey (fieldAt xAccept 16 2 % 4096) (BitVec.ofNat 32 (fieldAt xAccept 20 4))) = none ∧
    (d.fab.hold.find? fun z => (z.1.src == 1 && z.1.txn == 9) && z.1.dstPart == 0) = hs.head? := by decide +kernel

theorem witness_ownAcceptTimeout : let d := dest [(acceptKey 4095 9, accept9)] []
    4095 < 4096 ∧ tget d.fab.accept (acceptKey 4095 9) = some accept9 ∧ accept9.offer = none := by decide +kernel

theorem witness_committed_here : let a := { accept9 with offer := some (msgIn, objRegion, 65535, 1) }
    let d := dest [(acceptKey 1 9, a)] []
    msgIn.dst = d.id ∧ msgIn.src ≠ d.id ∧ tget d.fab.accept (acceptKey msgIn.src msgIn.txn) = some a ∧
    a.offer = some (msgIn, objRegion, 65535, 1) := by decide +kernel

theorem witness_committed_away : let t := { offer9 with isSession := true, obj := 63 }
    let d := offers [(9, t)]
    msg2.src = d.id ∧ msg2.dst ≠ d.id ∧ tget d.fab.offer msg2.txn.toNat = some t ∧ t.isSession = true := by decide +kernel

/-! ### Homes -/

/-- A hand-over of this home's page 1 by partition 7 of device 1 to device 2, anchored at device `a`. -/
def msgHome (a : Nat) (txn : U32) : DirMsg :=
  { txn := txn, src := 1, srcPart := 7, dst := 2, dstPart := 0, anchor := BitVec.ofNat 64 (a * 2 ^ 52), pages := [0x10000], deadline := 1, outcome := 0, handle := 0 }

/-- This home with page 1 in a state, and decided hand-overs. -/
def homes (s : PageState) (a : Nat) (dec : List (Nat × U32 × Nat)) : Dev :=
  { home [] with fab := { (home []).fab with
      dir := [(1, { dev := 1, part := 7, st := s, hand := if s = .owned then none else some (DirMsg.hand (msgHome a 9)) })], decided := dec } }

theorem witness_prepare : (msgHome 0 9).pages = [0x10000] ∧ (homes .owned 0 []).handable (msgHome 0 9) 0x10000 = true ∧
    (homes .frozen 0 []).handable (msgHome 0 9) 0x10000 = false ∧ (msgHome 0 9).wf = true := by decide +kernel

theorem witness_commit : poolHome (msgHome 3 9).anchor ≠ (homes .pending 3 []).id ∧ poolHome (msgHome 0 9).anchor = (homes .pending 0 []).id ∧
    (homes .pending 0 []).verdict (msgHome 0 9) = none ∧ ((homes .pending 0 []).heldBy (msgHome 0 9)).isEmpty = false ∧
    (homes .pending 0 [(1, 9, 2)]).verdict (msgHome 0 9) = some 2 ∧ (homes .pending 0 [(1, 9, 1)]).verdict (msgHome 0 9) = some 1 := by decide +kernel

theorem witness_abort : (msgHome 0 9).src ≠ (homes .pending 0 []).id ∧ (msgHome 0 9).dst ≠ (homes .pending 0 []).id ∧
    ({ msgHome 3 9 with src := 0 } : DirMsg).src = (homes .pending 3 []).id ∧ (msgHome 3 9).outcome = 0 ∧
    ({ msgHome 3 9 with dst := 0 } : DirMsg).dst = (homes .pending 3 []).id := by decide +kernel

theorem witness_pendingPageDeadline : poolHome 0x10000 = (homes .pending 3 []).id ∧
    ((homes .pending 3 []).dirOf (poolSpace 0x10000) (poolOffset 0x10000 / pageBytes)).st = .pending ∧
    ((homes .pending 3 []).dirOf (poolSpace 0x10000) (poolOffset 0x10000 / pageBytes)).hand = some (DirMsg.hand (msgHome 3 9)) := by decide +kernel

theorem witness_query : let m := { msgHome 0 9 with pages := [0x20000000000000] }
    poolHome m.anchor = (homes .pending 0 []).id ∧ poolHome 0x20000000000000 ≠ (homes .pending 0 []).id ∧ m.wf = true ∧
    (homes .pending 0 [(1, 9, 1)]).verdict m = some 1 ∧ (homes .pending 0 [(1, 9, 2)]).verdict m = some 2 ∧ (homes .pending 0 []).verdict m = none := by
  decide +kernel

theorem witness_ownResolve : ∀ side ∈ [0, 1], let d := homes .frozen 3 []
    let x := desc 0 [(16, 0x10000), (24, 1), (28, side)]
    Runs d 0x78 x ∧ chkOwnResolve d 0 x = stOk ∧ resolvePages x = [0x10000] ∧
    (d.dirOf (poolSpace 0x10000) (poolOffset 0x10000 / pageBytes)).st = .frozen ∧
    (d.dirOf (poolSpace 0x10000) (poolOffset 0x10000 / pageBytes)).hand = some (DirMsg.hand (msgHome 3 9)) ∧
    d.reaches (poolHome (msgHome 3 9).anchor) = false := by decide +kernel


/-! ### Keys and TDI states -/

/-- Partition 0's key 65535 with generations, under a KEK. -/
def keys (gens : List KeyGen) (drains : List Drain) : Dev :=
  let d := setFs base [(SEC_PART_KEY_QUOTA 0, 2)]
  { d with sec := { kek := [(0, 7)], key := [(65535, { store := false, tenant := 3, gens := gens, highest := 65534 })], drain := drains } }

def genA : KeyGen := { gen := 65534, st := .current, key := 1 }

theorem witness_keyInstall : ∀ kind ∈ [1, 2], let d := keys (if kind = 1 then [genA] else []) []
    let id := if kind = 1 then 65535 else 1
    let x := desc 0 [(16, id), (18, 65535), (20, kind), (22, 3), (24, 1)]
    Runs d 0x90 x ∧ fieldAt x 16 2 = id ∧ id ≠ 0 ∧ fieldAt x 18 2 = 65535 ∧ fieldAt x 20 1 = kind ∧ tget d.sec.kek 0 = some 7 ∧
    ((d.key 0 id).any fun y => y.store != (kind == 2) || decide (65535 ≤ y.highest) || decide (2 ≤ y.gens.length) ||
      (y.genIn .retiring).isSome || ((kind == 2) && !y.gens.isEmpty)) = false ∧
    d.keysLive 0 < d.getF (SEC_PART_KEY_QUOTA 0) := by decide +kernel

theorem witness_keyActivate : let d := keys [genA, { gen := 65535, st := .next, key := 2 }] []
    let x := desc 0 [(16, 65535), (18, 65535)]
    Runs d 0x91 x ∧ (∀ y ∈ tget d.sec.key (keyIndex 0 65535), y.genIn .retiring = none ∧ y.genIn .current = some genA ∧
      (y.gens.any fun g => g.gen == 65535 && g.st == .next) = true) ∧ (tget d.sec.key (keyIndex 0 65535)).isSome = true := by decide +kernel

theorem witness_keyRetire : ∀ n ∈ [1, 50], let d := keys [genA] []
    let x := desc 0 [(16, 65535), (18, 65534), (20, n)]
    Runs d 0x92 x ∧ 1 ≤ fieldAt x 20 2 ∧ fieldAt x 20 2 ≤ 50 ∧ (tget d.sec.key (keyIndex 0 65535)).any (fun y => y.retirable 65534) = true := by
  decide +kernel

theorem witness_tenantRemove : ∀ n ∈ [1, 50], let d := keys [genA] []
    let x := desc 0 [(16, 3), (18, n)]
    Runs d 0x93 x ∧ 1 ≤ fieldAt x 18 2 ∧ fieldAt x 18 2 ≤ 50 ∧ d.removingTenant 0 3 = false := by decide +kernel

/-- A drain of generation 65535 of partition 7's key 65535. -/
def drain7 (store : Bool) (x : Bool) : Dev :=
  let y : Drain := { descs := [3], key := 7 * 65536 + 65535, gen := 65535, expired := x }
  let key : Key := { store := store, tenant := 3, gens := [{ gen := 65535, st := .retiring, key := 1 }], highest := 65535 }
  { host7 with sec := { key := [(7 * 65536 + 65535, key)], drain := [y] } }

theorem witness_keyDrainComplete : ((drain7 true false).drainOf 7 65535 65535).isSome = true ∧
    (drain7 true false).keyBusy 7 (65535 : U16).toNat (65535 : U16).toNat = false ∧
    ((drain7 false true).drainOf 7 65535 65535).any (fun y => y.expired) = true := by decide +kernel

theorem witness_keyDrainTimeout : let d := drain7 true false
    let r : Region := { t1Region 1 with part := 7, keyId := 65535 }
    let d := { d with tier := { region := [(65535, r)] },
                      fab := { req := [(1, { purpose := .tileRead 3 65535 0, addr := 0, len := 1, isWrite := false, home := 1, part := 7 })] } }
    (d.drainOf 7 65535 65535).isSome = true ∧ d.keyBusy 7 (65535 : U16).toNat (65535 : U16).toNat = true := by decide +kernel

theorem witness_aclRead : ∀ y ∈ [(0, 4096), (4095, 1)], let x := desc 0 [(16, 8), (24, 0x0FFF), (26, y.1), (28, y.2)]
    Runs base 0x94 x ∧ fieldAt x 16 8 % 8 = 0 ∧ targetOk base (fieldAt x 24 2) = true ∧ 1 ≤ fieldAt x 28 2 ∧ fieldAt x 26 2 + fieldAt x 28 2 ≤ 4096 := by
  decide +kernel

/-- Partition 7's TDI in a state. -/
def tdi7 (t : TdiState) : Dev := { host7 with sec := { tdi := [(7, t)] } }

theorem witness_tdi_states : ∀ t ∈ [TdiState.unlocked, .locked, .run, .error, .scrubbing], (tdi7 t).funcUp 7 = true ∧ (tdi7 t).tdi 7 = t := by
  decide +kernel

/-! ### Checkpoints -/

/-- Job 0 of partition 0 holds a ladder; a checkpoint of it is kept. -/
def ladderDev (now : Tbl Ckpt) (kept : List Kept) (step : Tbl StepP) : Dev := { rich with ckp := { now := now, kept := kept }, step := step }

def hJob : U64 := mkJobHandle 0 0 1 0

theorem witness_ckptStart : ∀ n ∈ [0, 16], let d := ladderDev [] [] []
    let x := desc hJob [(16, 0xFFFFFFFF), (20, 2), (21, 2), (22, 5), (24, 8), (32, 64), (40, 8), (48, n)]
    Runs d 0xA0 x ∧ chkCkptStart d 0 x = stOk ∧ d.ckptStatus 0 (hSlot x.target) (fieldAt x 16 4) = stOk := by decide +kernel

theorem witness_ckptRelease : let d := ladderDev [] [{ part := 0, ladder := 0, id := 0xFFFFFFFF, held := [] }] []
    let x := desc hJob [(16, 0xFFFFFFFF)]
    Runs d 0xA1 x ∧ d.jobStatus 0 x.target = stOk ∧ fieldAt x 20 1 % 2 = 0 ∧ d.ckp.now = [] ∧
    (d.ckp.kept.any fun z => z.part == 0 && z.ladder == (d.job 0 0).hdr.ladder && z.id == fieldAt x 16 4) = true := by decide +kernel

theorem witness_ckptRestore : let d := ladderDev [] [] [(0, { lossHeld := true })]
    let x := desc hJob [(30, 8)]
    Runs d 0xA2 x ∧ chkCkptRestore d 0 x = stOk ∧ fieldAt x 30 1 = 8 ∧ fieldAt x 48 4 = 0 ∧ (d.job 0 (hSlot x.target)).st = .active ∧
    (d.stepP 0).lossHeld = true := by decide +kernel

theorem witness_ckptRestore_reads : ∀ y ∈ [(256, 15, 0), (20656, 8, 65536)], let d := ladderDev [] [] [(0, { lossHeld := true })]
    let x := desc hJob [(24, y.1), (30, y.2.1), (32, 8), (48, y.2.2)]
    Runs d 0xA2 x ∧ chkCkptRestore d 0 x = stOk ∧ (fieldAt x 30 1 ≠ 8 ∨ fieldAt x 48 4 ≠ 0) ∧ d.restorable 0 (hSlot x.target) = true := by
  decide +kernel

theorem witness_manifestSeal : ∀ n ∈ [256, 20656], let x := desc 0 [(24, n)]
    Runs base 0xA3 x ∧ 256 ≤ fieldAt x 24 4 ∧ fieldAt x 24 4 ≤ 20656 := by decide +kernel

/-- Partition 7 with a job in slot 3 and a checkpoint. -/
def ckpt7 (st : JobState) (c : Tbl Ckpt) : Dev :=
  { host7 with plc := { job := [(31, { st := st, gen := 1, full := 5, sect := some sect1 })] }, ckp := { now := c } }

theorem witness_switchProbe : ((List.range 4).find? fun i => ((ckpt7 .loaded []).job 7 i).st == .loaded && ((ckpt7 .loaded []).job 7 i).full == 5) = some 3 := by
  decide +kernel

/-- A region of partition 7 that may take a shard, in an extent of device 1. -/
def shard7 : Dev :=
  let h := mkExtHandle 1 1 1
  let r : Region := { t1Region 1048576 with part := 7, homeTier := 2, extent := h }
  let d := ckpt7 .active []
  { d with tier := { region := [(65535, r)] }, fab := { map := [(h.toNat, { ext0 with handle := h })] },
           sec := { key := [(7 * 65536 + 5, { store := true, tenant := 3, gens := [genA] })] } }

/-- The checkpoint that a probe asks of it. -/
def probe7 : Ckpt := { desc := none, job := 3, id := 1, mode := 2, peat := 2, extra := [], pos := 0, region := 65535 }

theorem length_padTo (n : Nat) (bs : List Byte) : (padTo n bs).length = n := by
  simp only [padTo, List.length_take, List.length_append, List.length_replicate]; omega

theorem shard7_token : (shard7.secToken 7).length = 6 * tileSize := by
  have h : ∀ t, (shard7.tokTile 7 t).length = tileSize := fun _ => length_padTo _ _
  have hl : (shard7.tokp 7).lists = [] := rfl
  rw [Dev.secToken, hl, List.flatMap_nil, List.append_nil, List.length_flatMap]
  simp only [h]; decide +kernel

theorem two_sections {A T : List Byte} (e1 : A.isEmpty = false) (e2 : T.isEmpty = false) :
    ([(1, A), (2, []), (3, []), (4, []), (5, []), (6, T), (7, [])] : List (Nat × List Byte)).filter (fun x => !x.2.isEmpty) = [(1, A), (6, T)] := by
  simp [e1, e2]

theorem shard7_tiles : shard7.shardTiles 7 probe7 = 8 := by
  have hj : (shard7.secJob 7 probe7).length = 52 := by decide +kernel
  have hs : shard7.shardSessions 7 probe7 = [] := by decide +kernel
  have hr : shard7.secRegions 7 probe7 = [] := by decide +kernel
  have ht := shard7_token
  have e1 : (shard7.secJob 7 probe7).isEmpty = false := by decide +kernel
  have e2 : (shard7.secToken 7).isEmpty = false := by
    rw [List.isEmpty_eq_false_iff_exists_mem]; exact List.exists_mem_of_length_pos (by rw [ht]; decide)
  generalize hA : shard7.secJob 7 probe7 = A at hj e1
  generalize hT : shard7.secToken 7 = T at ht e2
  rw [Dev.shardTiles, Dev.shardPlan, ShardPlan.body, hA, hT, hs, hr]
  have h0 : shard7.secTables probe7 [] = ([], {}) := rfl
  rw [h0]
  simp only [List.flatMap_nil]
  rw [two_sections e1 e2]
  simp only [List.map_cons, List.map_nil, List.flatMap_cons, List.flatMap_nil, List.append_nil, List.length_append]
  rw [tilePad, tilePad, length_padTo, length_padTo, hj, ht]
  rfl

theorem witness_switchProbe_ckpt : let h := mkRegionHandle 0 7 1 65535
    shard7.activeSlot 7 = some 3 ∧ shard7.ckpt 7 = none ∧ probe7.region = hRegion h ∧ probe7.pos = shard7.posIn 7 3 := by decide +kernel

theorem witness_shardFit : shard7.shardFit 7 probe7 (mkRegionHandle 0 7 1 65535) = true := by
  have h1 : shard7.regionStatus 7 (mkRegionHandle 0 7 1 65535) = stOk := by decide +kernel
  have h2 : shard7.region (hRegion (mkRegionHandle 0 7 1 65535)) =
      some { t1Region 1048576 with part := 7, homeTier := 2, extent := mkExtHandle 1 1 1 } := by decide +kernel
  have h3 : (shard7.extentInfo (mkExtHandle 1 1 1)).any (fun e => hExtHome e.handle != shard7.id) = true := by decide +kernel
  have h4 : (shard7.storeKey 7 (5 : U16).toNat).isSome = true := by decide +kernel
  simp only [Dev.shardFit, h1, h2, shard7_tiles, t1Region, Option.any_some, h3, h4]
  decide

def ckptA (asked : List Nat) (phase : Nat) : Ckpt :=
  { desc := some 3, job := 3, id := 1, mode := 2, peat := 2, extra := [], asked := asked, pos := 0, region := 0, phase := phase }

theorem witness_probeAnswer : let d := ckpt7 .active [(7, ckptA [255] 1)]
    d.probing 7 = none ∧ d.ckpt 7 = some (ckptA [255] 1) ∧ (ckptA [255] 1).desc = some 3 ∧ (ckptA [255] 1).asked.contains 255 = true ∧
    (ckptA [255] 1).asked ≠ [] := by decide +kernel

theorem witness_holdupWait : (ckpt7 .active [(7, ckptA [] 3)]).ckpt 7 = some (ckptA [] 3) ∧ (ckptA [] 3).phase = 3 := by decide +kernel

/-! ### Power, stops, power-up, sideband -/

/-- The device of `host` at a point of a sequence. -/
def at_ (q : SeqPoint) : Dev := { host with pwr := { host.pwr with seq := q } }

theorem witness_running : (∀ q ∈ [SeqPoint.u5, .u6, .x1, .x5], (at_ q).running = true) ∧
    (let d : Dev := { host with pwr := { host.pwr with hotDie := [8], veryHot := [0] } }
     d.running = true ∧ d.pwr.hotDie ≠ [] ∧ d.pwr.veryHot ≠ [] ∧ (List.replicate 9 (95 : Nat)).length ≤ 9 ∧
       (List.replicate 12 (95 : Nat)).length ≤ 12) := by decide +kernel

theorem witness_shutdown : (∀ q ∈ [SeqPoint.x1, .x5, .y5, .z2, .z3, .z4, .z5, .z6, .z7], (at_ q).pwr.seq = q) ∧
    (∀ w ∈ [true, false], ({ at_ .x5 with pwr := { (at_ .x5).pwr with waitCharge := w } } : Dev).pwr.waitCharge = w) ∧
    (∀ z ∈ [true, false], ({ ms := 0, readbackZero := z, passed := [], failed := [] } : PhaseResult).readbackZero = z) ∧
    host.ckp.now = [] ∧ host.pwr.seq ≠ .x5 ∧ (at_ .x5).ckp.now = [] ∧ (at_ .x5).pwr.waitCharge = false := by decide +kernel

theorem witness_manifestWrite : (ckpt7 .active [(7, ckptA [] 4)]).ckpt 7 = some (ckptA [] 4) ∧ (ckptA [] 4).desc = some 3 ∧
    (ckptA [] 4).phase = 4 := by decide +kernel

theorem witness_triggers : host.running = true ∧ host.pwr.seq ≠ .off ∧ host.pwr.excursion = false ∧
    (let d : Dev := { host with pwr := { host.pwr with trip := [8, 27], lowFlow := true, hotInlet := true, reversed := true } }
     (∀ y ∈ [(false, 8), (true, 11)], y.2 < (if y.1 then 12 else 9) ∧ d.pwr.trip.contains (if y.1 then 16 + y.2 else y.2) = true) ∧
       d.pwr.lowFlow = true ∧ d.pwr.hotInlet = true ∧ d.pwr.reversed = true) ∧
    (∀ mv ∈ [43999, 58001], mv < 44000 ∨ 58000 < mv) ∧ (∀ mv ∈ [44000, 47999], 44000 ≤ mv ∧ mv < 48000) ∧
    (∀ n ∈ [0, 4], n < 5 ∧ host.pwr.ignored.contains n = false) := by decide +kernel

theorem witness_powerUp : (∀ q ∈ [SeqPoint.off, .u1, .u4, .u5], (at_ q).pwr.seq = q) ∧
    (∀ mv ∈ [46001, 58000], 46000 < mv ∧ mv ≤ 58000) ∧ (∀ mv ∈ [46001, 55999], 46000 < mv ∧ mv < 56000) ∧
    (∀ us ∈ [10000, 5000000], 10000 ≤ us ∧ us ≤ 5000000) := by decide +kernel

theorem witness_coolantCheck : ∀ y ∈ [(150, 200), (450, 3276)], let d := at_ .u2
    let c : Coolant := { inlet := y.1, outlet := 500, flow := y.2, pressure := 0, leak := false }
    d.pwr.seq = .u2 ∧ (d.showCoolant c).coolantOk State.reset.hw c = true := by decide +kernel

theorem witness_sideband : (∀ q ∈ [SeqPoint.u2, .y5, .z7], (at_ q).sideband = true) ∧
    (∀ id ∈ [0x0001, 0x0021], (tget host.sensors id).isSome = true) ∧ host.pwr.seq = .u6 ∧
    (1200 ≤ 1200 ∧ 1200 ≤ State.reset.hw.maxW) ∧ (1199 < 1200 ∧ State.reset.hw.maxW < State.reset.hw.maxW + 1) ∧
    (∀ off ∈ [0x00000, 0xF0000], (regAt off).isSome = true ∧ (off / 0x10000 = 0 ∨ off / 0x10000 = 0xF)) := by decide +kernel

/-- A done session of the module's owner. -/
def owner0 : SpdmSession := { mb := .mctp, done := true, owner := true }

theorem witness_override : tget ({ host with sec := { host.sec with spdm := [(0, owner0)] } } : Dev).sec.spdm 0 = some owner0 ∧
    owner0.done = true ∧ owner0.owner = true := by decide +kernel

/-- A signed firmware image. -/
def fw1 : FwImage := { version := 2, sec := 1, prod := true, sigOk := true, digest := 0 }

theorem witness_update : ∀ v ∈ [2, 3], let d := host.setF PWR_STATE_STATE v
    d.sideband = true ∧ (d.getF PWR_STATE_STATE = 2 ∨ d.getF PWR_STATE_STATE = 3) ∧ d.mapSigned State.resetMap = true ∧
    mapOk State.resetMap State.reset.hw = true ∧ d.flash.running = false ∧ fw1.sigOk = true ∧ d.flash.fuseSec.toNat ≤ fw1.sec.toNat := by
  decide +kernel

theorem witness_badLanes : let d := setFs host [(GLB_ASSEMBLY_L_DIES, 4)]
    d.sideband = true ∧ d.running = true ∧ 3 < d.getF GLB_ASSEMBLY_L_DIES := by decide +kernel

/-! ### Boundaries, held steps -/

/-- A job of devices 0 and 1 with a root. -/
def job01 (root : Nat) : Job :=
  { st := .active, gen := 1, hdr := { devices := 2, layers := 3, w := 2, syncRoot := root }, sect := some { sect1 with devices := [0, 1] } }

/-- Partition 7 in a phase; its active job, where there is one, has devices 0 and 1 and a root. -/
def phase7 (v : Nat) (root : Option Nat) (x : StepP) : Dev :=
  { setFs host7 [(GLB_STEP_STATUS_PHASE 7, v)] with step := [(7, x)], plc := { job := root.elim [] fun n => [(31, job01 n)] } }

theorem witness_localSafePoint : ∀ y ∈ [(some 0, true), (none, true), (some 1, false)], ∀ f ∈ [true, false], let d := phase7 0 y.1 { failed := f }
    d.present 7 = true ∧ d.phase 7 = 0 ∧ tget d.sec.tdi 7 ≠ some .error ∧ ((d.stepP 7).failed = true ∨ d.stepDone 7 = true) ∧ d.isRoot 7 = y.2 := by
  decide +kernel

theorem witness_safeReport : ∀ pos ∈ [0, 1], let d := phase7 1 (some 0) {}
    d.present 7 = true ∧ pos < 256 ∧ d.isRoot 7 = true ∧ pos < (d.jobDevices 7).length ∧ d.phase 7 ≠ 5 ∧ d.phase 7 ≠ 2 := by decide +kernel

theorem witness_root_phases : ∀ v ∈ [2, 6], (phase7 v (some 0) {}).present 7 = true ∧ (phase7 v (some 0) {}).isRoot 7 = true ∧
    (phase7 v (some 0) {}).phase 7 = v := by decide +kernel

/-- Partition 7 with SYNC MODE 1. -/
def synced7 (v : Nat) (x : StepP) : Dev :=
  { phase7 v none x with inForce := [((GLB_SYNC_CFG_MODE 7).off, (setFs {} [(GLB_SYNC_CFG_MODE 7, 1)]).reg (GLB_SYNC_CFG_MODE 7).off)] }

theorem witness_stepSyncEdge : (synced7 2 {}).synced 1 = [7] ∧ (synced7 2 {}).phase 7 = 2 ∧
    (∀ y ∈ [true, false], (synced7 0 { early := y }).synced 1 = [7] ∧ (synced7 0 { early := y }).phase 7 = 0 ∧
      ((synced7 0 { early := y }).stepP 7).early = y) := by decide +kernel

theorem witness_stuckCount : 16 ≤ ((phase7 0 none { late := 16 }).stepP 7).late ∧ (phase7 0 none { late := 16 }).present 7 = true := by decide +kernel

theorem witness_away : (phase7 7 (some 1) {}).present 7 = true ∧ (phase7 7 (some 1) {}).isRoot 7 = false ∧ (phase7 7 (some 1) {}).phase 7 = 7 := by
  decide +kernel

theorem witness_stages : ((phase7 3 none { stage := .drain }).stepP 7).stage = .drain ∧ ((phase7 3 none { stage := .mirror }).stepP 7).stage = .mirror ∧
    (((phase7 3 none { stage := .mirror }).mirrorHeard 7).stepP 7).stage = .mirror := by decide +kernel

theorem witness_rebuildTimeout :
    let d := { phase7 2 none { held := true } with
                 inForce := [((TIER_REBUILD_CFG_TIMEOUT_S 7).off, (setFs {} [(TIER_REBUILD_CFG_TIMEOUT_S 7, 1)]).reg (TIER_REBUILD_CFG_TIMEOUT_S 7).off)],
                 tier := { window := [(7, { degraded := [(9, 0)] })] } }
    d.getB (TIER_REBUILD_CFG_TIMEOUT_S 7) ≠ 0 ∧ (d.stepP 7).held = true ∧ (d.window 7).degraded ≠ [] := by decide +kernel

theorem witness_peerLoss : let d := phase7 1 (some 0) { reports := [0] }
    let c : Sections := { sect1 with devices := [0, 1] }
    d.activeJob 7 = some (job01 0) ∧ (job01 0).sect = some c ∧ (job01 0).fullImage = some ((job01 0).hdr, c) ∧ d.isRoot 7 = true ∧ d.phase 7 = 1 ∧
    (d.stepP 7).held = false ∧ 1 < c.devices.length ∧ (d.stepP 7).reports.contains 1 = false := by decide +kernel

theorem witness_mirrorFrame : (frm 0 []).wf = true := by decide +kernel

theorem witness_beat : let d := setFs host [(GLB_ASSEMBLY_L_DIES, 4)]
    8 < 9 ∧ 8 < 5 + d.getF GLB_ASSEMBLY_L_DIES ∧ d.running = true := by decide +kernel

/-! ### Ledger -/

/-- A delta of step 5 of partition 0. -/
def delta5 : Delta := { cls := 0, inst := 0, fromP := 0, toP := 1, amount := 1, step := 5, part := 0 }

theorem witness_delta : delta5.step > (({ base with step := [(0, { number := 4 })] } : Dev).stepP delta5.part).number.toNat ∧
    delta5.step ≤ (({ base with step := [(0, { number := 5 })] } : Dev).stepP delta5.part).number.toNat := by decide +kernel

theorem witness_logRead : ∀ n ∈ [1, 65536], let x := desc 0 [(16, 8), (28, n)]
    Runs base 0xB0 x ∧ fieldAt x 16 8 % 8 = 0 ∧ 1 ≤ fieldAt x 28 4 ∧ fieldAt x 28 4 ≤ 65536 := by decide +kernel

theorem witness_overlayRead : ∀ n ∈ [1, 65536], let x := desc 0 [(16, 8), (24, n)]
    let d := { base with flash := { base.flash with overlay := [{ kind := 7, source := 1, passes := 0, unit := 4, epoch := 1 }] } }
    Runs d 0xB3 x ∧ 1 ≤ fieldAt x 24 4 ∧ fieldAt x 24 4 ≤ 65536 ∧ d.flash.overlay ≠ [] := by decide +kernel

theorem witness_partReset : (let d := setFs base [(GLB_STEP_STATUS_PHASE 0, 5)]
      Runs d 0xB1 (desc 0 []) ∧ d.phase 0 = 5) ∧
    (Runs base 0xB1 (desc 0 []) ∧ base.activeSlot 0 = none) := by decide +kernel

theorem witness_faultInject : ∀ y ∈ [(1, 0, 0), (1, 3, 0), (2, 0, 2 ^ 40), (4, 0, 7)], let x := desc 0 [(16, y.1), (17, y.2.1), (24, y.2.2)]
    let d := setFs base [(GLB_ASSEMBLY_L_DIES, 1)]
    Runs d 0xB2 x ∧ chkFaultInject d 0 x = stOk ∧ fieldAt x 16 1 = y.1 := by decide +kernel

theorem witness_frameRetire : ∃ d : Dev, d.wornOut 0 = true := by
  refine ⟨{ host with ldg := { ecc := [((host.frameAddr 0).toNat / 64, (65535, 0))] } }, ?_⟩
  have h : ({ host with ldg := { ecc := [((host.frameAddr 0).toNat / 64, (65535, 0))] } } : Dev).frameAddr 0 = host.frameAddr 0 := rfl
  have g : ({ host with ldg := { ecc := [((host.frameAddr 0).toNat / 64, (65535, 0))] } } : Dev).getF LDG_SCRUB_CFG_RETIRE_LIMIT ≤ 65535 := by
    decide +kernel
  simp only [Dev.wornOut, h, List.any_cons, List.any_nil, Bool.or_false, decide_eq_true_eq]
  exact ⟨Nat.le_refl _, by omega, g⟩

/-! ### Mailboxes -/

/-- The device of `host7`, in partitioned mode, with an SPDM session. -/
def spdm7 (mb : Mailbox) (done : Bool) : Dev := { host7 with sec := { spdm := [(0, { mb := mb, done := done })] } }

theorem witness_mailbox : (∀ mb ∈ [Mailbox.func 7, .mctp, .pf0], mb.wf = true ∧ host7.mailbox mb = true) ∧
    (∀ mb ∈ [Mailbox.func 7, .mctp], ∀ b ∈ [true, false], (spdm7 mb b).mailbox mb = true ∧
      (spdm7 mb b).spdmSes mb 0 = some { mb := mb, done := b } ∧ (spdm7 mb b).spdmSes mb 1 = none) ∧
    (spdm7 (.func 7) true).mailPart (.func 7) = some 7 ∧ (spdm7 (.func 7) true).tdi 7 ≠ .scrubbing ∧
    (spdm7 (.func 7) true).mayKey (.func 7) 0 8 = true ∧ (∀ n ∈ [0, 8], (spdm7 .mctp true).mayKey .mctp 0 n = true) ∧
    host7.funcUp 7 = true := by decide +kernel

theorem witness_measures : ∀ i ∈ [1, 255], (host7.measures none i).isSome = true := by decide +kernel

/-! ### Rules of the whole device -/

theorem witness_reserved : ∀ x ∈ [{ desc 0 [] with flags := 8 }, { desc 0 [] with rsv := 1 }, desc 0 [(63, 128)]],
    (run base 0x00 x).Named 0x00 0 x 3 (entry 0x00 x) ∧ (opRow 0x00).isSome = true ∧
    (8 ≤ x.flags.toNat ∨ x.rsv ≠ 0 ∨ bodyBad (entry 0x00 x) = true) ∧ (run base 0x00 x).Hears (entry 0x00 x) := by decide +kernel

theorem witness_refused_bad : let x := desc 1 []
    (run base 0x00 x).Named 0x00 0 x 3 (entry 0x00 x) ∧ bodyBad (entry 0x00 x) = false ∧
    (run base 0x00 x).headerStatus (entry 0x00 x) = stBad := by decide +kernel

/-- A descriptor on ring 1, which is not the admin ring. -/
def entry1 (op : Byte) (x : Desc) : DescEntry := { entry op x with ring := 1 }

theorem witness_refused_denied : let x := desc 0 []
    let d : Dev := { base with rng := { base.rng with ring := base.rng.ring ++ [(1, { st := .active, sqLog2 := 6 })], descs := [(3, entry1 0x01 x)] } }
    d.Named 0x01 1 x 3 (entry1 0x01 x) ∧ bodyBad (entry1 0x01 x) = false ∧ d.headerStatus (entry1 0x01 x) = stDenied := by decide +kernel

theorem witness_refused_check : let x := desc 0 []
    (run base 0xB2 x).Named 0xB2 0 x 3 (entry 0xB2 x) ∧ bodyBad (entry 0xB2 x) = false ∧ (run base 0xB2 x).headerStatus (entry 0xB2 x) = stOk ∧
    chkFaultInject (run base 0xB2 x) 0 x ≠ stOk := by decide +kernel

theorem witness_refused_halted : let x := desc h63 []
    let d := run (setFs base [(GLB_STEP_STATUS_PHASE 0, 5)]) 0x12 x
    d.Named 0x12 0 x 3 (entry 0x12 x) ∧ bodyBad (entry 0x12 x) = false ∧ d.headerStatus (entry 0x12 x) = stOk ∧ d.halted 0 = true ∧
    (d.stepP 0).noRung = false ∧ haltRefuses 0x12 x = true := by decide +kernel

theorem witness_completion : base.dmaStopped 0 = false ∧ (∀ n ∈ [6, 31], n < 32 ∧ (0 : U32).toNat < 2 ^ n ∧ (63 : U32).toNat < 2 ^ n) := by decide +kernel

theorem witness_flag : let f := GLB_STEP_STATUS_SYNC_EXTRA 7
    let c := GLB_STEP_STATUS_EXTRA_COUNT 7
    f.w = 1 ∧ f.lo < 64 ∧ 0 < c.w ∧ c.lo + c.w ≤ 64 ∧ (f.off ≠ c.off ∨ f.lo < c.lo ∨ c.lo + c.w ≤ f.lo) := by decide +kernel

theorem witness_brake : let d := { host with pins := { host.pins with pwrBrake := false } }
    ∀ r ∈ [0, 5], d.pins.pwrBrake = false ∧ d.railOn r = true := by decide +kernel

theorem witness_early : ∀ v ∈ [0, 1], ∀ y ∈ [true, false], let d := phase7 v none { early := y }
    (d.phase 7 = 0 ∨ d.phase 7 = 1) ∧ (d.stepP 7).early = y ∧ (d.stepP 7).failed = false := by decide +kernel

/-! ### A vocabulary image -/

/-- The header of an image of the 256 one-byte tokens without merges: its table at 64, its bytes at 2,112, roles at 2,368, classes at 8,192. -/
def vocHdr : List Byte :=
  leBytes 4 0x42434F56 ++ leBytes 4 1 ++ leBytes 4 256 ++ leBytes 4 0 ++ leBytes 4 0 ++ leBytes 4 16 ++ leBytes 8 64 ++ leBytes 8 2112 ++
    leBytes 8 2112 ++ leBytes 8 2368 ++ leBytes 8 8192

/-- Entry of a token. -/
def vocEntry (i : Nat) : List Byte := leBytes 5 i ++ [1, 0, 0]

/-- Header, token table and the tokens' bytes. -/
def vocHead : List Byte := vocHdr ++ ((List.range' 0 256).flatMap vocEntry ++ (List.range 256).map (BitVec.ofNat 8))

/-- The image, tile by tile. -/
def vocRegion : Region := { t1Region 9 with isSealed := true, tile := [(0, { gen := 1, data := vocHead })] }

theorem vocHead_length : vocHead.length = 2368 := by decide +kernel

theorem vocHead_header : leAt vocHead 0 4 = 0x42434F56 ∧ leAt vocHead 4 2 = 1 ∧ leAt vocHead 6 1 = 0 ∧ leAt vocHead 7 1 = 0 ∧ leAt vocHead 8 4 = 256 ∧
    leAt vocHead 12 4 = 0 ∧ leAt vocHead 16 4 = 0 ∧ leAt vocHead 20 2 = 16 ∧ leAt vocHead 22 2 = 0 ∧ leAt vocHead 24 8 = 64 ∧
    leAt vocHead 32 8 = 2112 ∧ leAt vocHead 40 8 = 2112 ∧ leAt vocHead 48 8 = 2368 ∧ leAt vocHead 56 8 = 8192 := by decide +kernel

theorem drop_flatMap8 (f : Nat → List Byte) (hf : ∀ i, (f i).length = 8) (n s i : Nat) (h : i < n) :
    ∃ t, ((List.range' s n).flatMap f).drop (8 * i) = f (s + i) ++ t := by
  induction n generalizing s i with
  | zero => omega
  | succ n ih =>
    rw [List.range'_succ, List.flatMap_cons]
    cases i with
    | zero => exact ⟨_, rfl⟩
    | succ i =>
      obtain ⟨t, ht⟩ := ih (s + 1) i (by omega)
      refine ⟨t, ?_⟩
      rw [List.drop_append, List.drop_eq_nil_of_le (by rw [hf]; omega), List.nil_append, hf, show 8 * (i + 1) - 8 = 8 * i by omega, ht,
        show s + 1 + i = s + (i + 1) by omega]

theorem vocEntry_values : ∀ i, i < 256 → leAt (vocEntry i) 0 5 = i ∧ leAt (vocEntry i) 5 1 = 1 ∧ leAt (vocEntry i) 6 1 = 0 ∧ leAt (vocEntry i) 7 1 = 0 ∧
    leAt ((List.range 256).map (BitVec.ofNat 8)) i 1 = i := by decide +kernel

theorem leAt_entry {i j n : Nat} (h : i < 256) (g : j + n ≤ 8) : leAt vocHead (64 + 8 * i + j) n = leAt (vocEntry i) j n := by
  have h64 : vocHdr.length = 64 := by decide +kernel
  have h8 : ∀ i, (vocEntry i).length = 8 := fun _ => rfl
  have hlen : 8 * i ≤ ((List.range' 0 256).flatMap vocEntry).length := by
    rw [List.length_flatMap]
    simp only [h8, List.map_const', List.length_range', List.sum_replicate_nat]
    omega
  obtain ⟨t, ht⟩ := drop_flatMap8 vocEntry h8 256 0 i h
  rw [leAt, leAt, vocHead, show 64 + 8 * i + j = 64 + (8 * i + j) by omega, ← List.drop_drop, List.drop_left' h64,
    ← List.drop_drop, List.drop_append_of_le_length hlen, ht, Nat.zero_add, List.append_assoc,
    List.drop_append_of_le_length (by rw [h8]; omega), List.take_append_of_le_length (by rw [List.length_drop, h8]; omega)]

theorem leAt_blob {i : Nat} : leAt vocHead (2112 + i) 1 = leAt ((List.range 256).map (BitVec.ofNat 8)) i 1 := by
  have hl : (vocHdr ++ (List.range' 0 256).flatMap vocEntry).length = 2112 := by decide +kernel
  rw [leAt, leAt, vocHead, ← List.append_assoc, ← List.drop_drop, List.drop_left' hl]

theorem vocHead_table : ∀ i, i < 256 → leAt vocHead (64 + 8 * i) 5 = i ∧ leAt vocHead (64 + 8 * i + 5) 1 = 1 ∧ leAt vocHead (64 + 8 * i + 6) 1 = 0 ∧
    leAt vocHead (64 + 8 * i + 7) 1 = 0 ∧ leAt vocHead (2112 + i) 1 = i := fun i h => by
  have h0 := leAt_entry (j := 0) (n := 5) h (by decide)
  rw [Nat.add_zero] at h0
  rw [h0, leAt_entry h (by decide), leAt_entry h (by decide), leAt_entry h (by decide), leAt_blob]
  exact vocEntry_values i h

theorem vocRegion_bytes : vocRegion.bytes = vocHead ++ List.replicate 587456 0 := by
  have h0 : padTo tileSize (vocRegion.at 0).data = vocHead ++ List.replicate 63168 0 := by
    have : (vocRegion.at 0).data = vocHead := rfl
    rw [this, padTo, vocHead_length, List.take_of_length_le (by rw [List.length_append, vocHead_length, List.length_replicate]; decide)]
    rfl
  have hn : ∀ t, (vocRegion.at (t + 1)).data = [] := fun t => rfl
  have hz : ∀ t, padTo tileSize (vocRegion.at (t + 1)).data = List.replicate 65536 0 := fun t => by
    rw [hn t, padTo, List.nil_append, List.take_of_length_le (by rw [List.length_replicate]; decide)]
    rfl
  have hr : List.range vocRegion.tiles = [0, 1, 2, 3, 4, 5, 6, 7, 8] := by decide +kernel
  rw [Region.bytes, hr]
  simp only [List.flatMap_cons, List.flatMap_nil, h0, hz 0, hz 1, hz 2, hz 3, hz 4, hz 5, hz 6, hz 7, List.append_assoc, List.append_nil,
    List.replicate_append_replicate, Nat.reduceAdd]

theorem leAt_head {a : List Byte} {o n : Nat} (z : Nat) (h : o + n ≤ a.length) : leAt (a ++ List.replicate z 0) o n = leAt a o n := by
  rw [leAt, leAt, List.drop_append_of_le_length (by omega), List.take_append_of_le_length (by rw [List.length_drop]; omega)]

theorem leNat_zeros (n : Nat) : leNat (List.replicate n 0) = 0 := by
  induction n with
  | zero => rfl
  | succ n ih => rw [List.replicate_succ, leNat, ih]; rfl

theorem leAt_tail {a : List Byte} {o n z : Nat} (h : a.length ≤ o) : leAt (a ++ List.replicate z 0) o n = 0 := by
  rw [leAt, List.drop_append, List.drop_eq_nil_of_le h, List.nil_append, List.drop_replicate, List.take_replicate, leNat_zeros]

theorem vocRegion_faults : vocabFaults (vocHead ++ List.replicate 587456 0) = [] := by
  have hl := vocHead_length
  have h : ∀ o n, o + n ≤ 2368 → leAt (vocHead ++ List.replicate 587456 0) o n = leAt vocHead o n := fun o n g => leAt_head _ (by rw [hl]; exact g)
  have z : ∀ o n, 2368 ≤ o → leAt (vocHead ++ List.replicate 587456 0) o n = 0 := fun o n g => leAt_tail (by rw [hl]; exact g)
  have len : (vocHead ++ List.replicate 587456 (0 : Byte)).length = 589824 := by
    rw [List.length_append, hl, List.length_replicate]
  obtain ⟨a, b, c, e, f, g, i, j, k, l, m, n, o, p⟩ := vocHead_header
  have tok : ∀ x, x < 256 → leAt (vocHead ++ List.replicate 587456 0) (64 + 8 * x) 5 = x ∧
      leAt (vocHead ++ List.replicate 587456 0) (64 + 8 * x + 5) 1 = 1 ∧ leAt (vocHead ++ List.replicate 587456 0) (64 + 8 * x + 6) 1 = 0 ∧
      leAt (vocHead ++ List.replicate 587456 0) (64 + 8 * x + 7) 1 = 0 ∧ leAt (vocHead ++ List.replicate 587456 0) (2112 + x) 1 = x := fun x hx => by
    rw [h _ _ (by omega), h _ _ (by omega), h _ _ (by omega), h _ _ (by omega), h _ _ (by omega)]
    exact vocHead_table x hx
  rw [← h 0 4 (by decide)] at a
  rw [← h 4 2 (by decide)] at b
  rw [← h 6 1 (by decide)] at c
  rw [← h 7 1 (by decide)] at e
  rw [← h 8 4 (by decide)] at f
  rw [← h 12 4 (by decide)] at g
  rw [← h 16 4 (by decide)] at i
  rw [← h 20 2 (by decide)] at j
  rw [← h 22 2 (by decide)] at k
  rw [← h 24 8 (by decide)] at l
  rw [← h 32 8 (by decide)] at m
  rw [← h 40 8 (by decide)] at n
  rw [← h 48 8 (by decide)] at o
  rw [← h 56 8 (by decide)] at p
  generalize vocHead ++ List.replicate 587456 0 = bs at *
  rw [vocabFaults]
  simp only [a, b, c, e, f, g, i, j, k, l, m, n, o, p, len]
  have t1 : ∀ x ∈ List.range 256, (if 2112 + leAt bs (64 + 8 * x) 5 + leAt bs (64 + 8 * x + 5) 1 > 589824 ∨
        (x < 256 ∧ leAt bs (2112 + leAt bs (64 + 8 * x) 5) 1 ≠ x) then [64 + 8 * x] else []) ++
      (if x < 256 ∧ leAt bs (64 + 8 * x + 5) 1 ≠ 1 then [64 + 8 * x + 5] else []) ++
      (if leAt bs (64 + 8 * x + 6) 1 ≥ 4 ∨ (x < 256 ∧ leAt bs (64 + 8 * x + 6) 1 % 2 = 1) then [64 + 8 * x + 6] else []) ++
      (if leAt bs (64 + 8 * x + 7) 1 ≠ 0 then [64 + 8 * x + 7] else []) = [] := fun x hx => by
    obtain ⟨t5, u, v, w, y⟩ := tok x (List.mem_range.1 hx)
    have q : x < 256 := List.mem_range.1 hx
    rw [t5, u, v, w, y, if_neg (by omega), if_neg (by omega), if_neg (by omega), if_neg (by omega)]
    rfl
  have t2 : ∀ x ∈ List.range 16, ((List.range 2).filterMap fun y => if leAt bs (2368 + 64 * x + y) 1 > 7 then some (2368 + 64 * x + y) else none) = [] :=
    fun x _ => by
      rw [List.filterMap_eq_nil_iff]
      intro y _
      rw [z _ _ (by omega)]
      rfl
  rw [if_neg (by decide), List.flatMap_eq_nil_iff.2 t1, List.flatMap_eq_nil_iff.2 t2]
  rfl

theorem length_chunks {α : Type} (n f : Nat) (l : List α) : (chunks n f l).length ≤ f := by
  induction f generalizing l with
  | zero => exact Nat.le_refl _
  | succ f ih =>
    rw [chunks]
    split
    · exact Nat.zero_le _
    · exact Nat.succ_le_succ (ih _)

/-- A job of partition 0 in slot 3 without a vocabulary. -/
def vocDev : Dev :=
  { reg vocRegion with plc := { job := rich.plc.job ++ [(3, { job3 .loaded with vocab := none })] } }

theorem witness_vocabLoad : let x := desc (mkJobHandle 0 0 1 3) [(16, (hReg 65535).toNat), (24, 589824)]
    let bs := vocRegion.bytes.take (fieldAt x 24 8)
    let j := vocDev.job 0 (hSlot x.target)
    Runs vocDev 0x51 x ∧ vocDev.jobStatus 0 x.target = stOk ∧ vocDev.regionStatus 0 (BitVec.ofNat 64 (fieldAt x 16 8)) = stOk ∧
    vocDev.region (hRegion (BitVec.ofNat 64 (fieldAt x 16 8))) = some vocRegion ∧ vocRegion.isSealed = true ∧ vocRegion.homeTier = 1 ∧
    vocRegion.wback = false ∧ (∀ t, t < vocRegion.tiles → (vocRegion.at t).bad = 0) ∧ fieldAt x 24 8 ≤ tileSize * vocRegion.tiles ∧
    j.st = .loaded ∧ j.vocab = none ∧ vocabFaults bs = [] ∧ (parseVocab bs).shards ≤ (j.sect.elim 0 fun c => c.shards) ∧
    (∀ c, c < 64 → j.hdr.classes.getLsbD c = true → ∀ q, tget (vocDev.tokp 0).cls c = some q → q.contextMax = 0 ∨ q.elision < (parseVocab bs).tokens.length) ∧
    (parseVocab bs).frames ≤ vocDev.freeFrames 0 := by
  intro x bs j
  have hl := vocHead_length
  have hb : bs = vocHead ++ List.replicate 587456 0 := by
    have h8 : fieldAt x 24 8 = 589824 := by decide +kernel
    have : bs = vocRegion.bytes.take (fieldAt x 24 8) := rfl
    rw [this, h8, vocRegion_bytes, List.take_of_length_le]
    rw [List.length_append, hl, List.length_replicate]
  have h1 : Runs vocDev 0x51 x ∧ vocDev.jobStatus 0 x.target = stOk ∧ vocDev.regionStatus 0 (BitVec.ofNat 64 (fieldAt x 16 8)) = stOk := by decide +kernel
  have h2 : vocDev.region (hRegion (BitVec.ofNat 64 (fieldAt x 16 8))) = some vocRegion ∧ vocRegion.isSealed = true ∧ vocRegion.homeTier = 1 ∧
    vocRegion.wback = false ∧ (∀ t, t < vocRegion.tiles → (vocRegion.at t).bad = 0) ∧ fieldAt x 24 8 ≤ tileSize * vocRegion.tiles ∧
    j.st = .loaded ∧ j.vocab = none := by decide +kernel
  have h3 : (j.sect.elim 0 fun c => c.shards) = 1 ∧ j.hdr.classes = 0 ∧ vocDev.freeFrames 0 = 100 := by decide +kernel
  have h8 : leAt bs 8 4 = 256 := by
    rw [hb, leAt_head _ (by rw [hl]; decide)]
    exact vocHead_header.2.2.2.2.1
  have hn : (parseVocab bs).tokens.length ≤ 256 := by
    rw [parseVocab, List.length_map]
    exact Nat.le_trans (length_chunks _ _ _) (Nat.le_of_eq h8)
  have hf : (parseVocab bs).frames = 9 := by
    have : bs.length = 589824 := by rw [hb, List.length_append, hl, List.length_replicate]
    rw [parseVocab, this]
    decide
  refine ⟨h1.1, h1.2.1, h1.2.2, h2.1, h2.2.1, h2.2.2.1, h2.2.2.2.1, h2.2.2.2.2.1, h2.2.2.2.2.2.1, h2.2.2.2.2.2.2.1, h2.2.2.2.2.2.2.2, ?_, ?_, ?_, ?_⟩
  · rw [hb]; exact vocRegion_faults
  · rw [h3.1, Vocab.shards, ceilDiv, shardIds]; omega
  · intro c _ hc
    rw [h3.2.1] at hc
    simp at hc
  · rw [hf, h3.2.2]; decide

/-! ### Ill-formed commands -/

/-- A frame between two devices on a channel. -/
def frame0 (src dst chan : Nat) : Frame := { frm 0 [] with src := src, dst := dst, chan := chan }

/-- A DIR message between partitions of devices. -/
def dir0 (src dst sp dp : Nat) : DirMsg := { msg2 with src := src, dst := dst, srcPart := sp, dstPart := dp }

theorem test_wf_ring_a : ((
   [.nop, .ringCreate, .ringDestroy, .ringReset, .irqCfg, .telemCfg, .stateRead, .sessionOpen, .append, .stepRequest,
     .toolWait, .park, .revive, .close, .regionCreate, .regionDestroy, .regionAttr, .regionFlush, .regionMove, .tileWrite, .tileRead,
     .replicaSet, .replicaRebuild, .bgCopy, .ptShare, .ptTruncate, .kvDrop, .imageLoad, .jobSwitch, .jobUnload, .semGroupCreate,
     .semGroupDestroy, .semOp, .tokBind, .vocabLoad, .classSet] : List (Nat → Desc → Instr)).all fun c =>
    (c 4095 (desc 0 [])).wf && !(c 4096 (desc 0 [])).wf) = true := by decide +kernel

theorem test_wf_ring_b : ((
   [.profileSet, .listLoad, .listsetDefine, .listFree, .tokSeed, .indexCreate, .indexDestroy, .vecInsert, .vecDelete, .vecQuery,
     .indexMerge, .indexStat, .extentRequest, .extentReturn, .extentRevoke, .poolFlush, .poolPageWrite, .poolPageRead, .ownOffer,
     .ownAccept, .ownResolve, .shaperSet, .shaperClear, .policerSet, .policerClear, .keyInstall, .keyActivate, .keyRetire, .tenantRemove,
     .aclRead, .ckptStart, .ckptRelease, .ckptRestore, .manifestSeal, .logRead, .partReset, .faultInject, .overlayRead] : List (Nat → Desc → Instr)).all fun c =>
    (c 4095 (desc 0 [])).wf && !(c 4096 (desc 0 [])).wf) = true := by decide +kernel

theorem test_wf_partition : (([.scanTimerExpiry, .errlogBufferDrain, .queryReedAssign, .holdupWaitExpiry, .manifestWriteDone, .localSafePoint,
    .syncWindowExpiry, .stepSyncStuckCount, .idleBoundaryTimer, .linkCreditDrained, .retryToken, .rebuildTimeout, .switchProbeTimeout, .mirrorAck,
    .mirrorAckTimeout, .lockInterfaceRequest, .startInterfaceRequest, .stopInterfaceRequest, .scrubComplete, .getDeviceInterfaceReport,
    fun p => .rngWake acc p, fun p => .rngDbBaseWrite acc p 0, fun p => .rngAdminRingWrite acc p true 0, fun p => .rngErrlogWrite acc p 0,
    fun p => .rngTelemWrite acc p 0, fun p => .escClearLayer acc p 0, fun p => .escClearAll acc p, fun p => .doorbellRecordArrival p 0 none,
    fun p => .keyDrainComplete p 0 0, fun p => .keyDrainTimeout p 0 0, fun p => .shardReport p 0 0 0 0 0 0, fun p => .safeReport p 0 false [],
    fun p => .drainTimeout p [], fun p => .peerLossTimeout p 0, fun p => .shrinkToken p [], fun p => .switchProbe p 0 (.job 0),
    fun p => .probeAnswer p 0 true, fun p => .layerFinished p 0, fun p => .windowSlotFilled p 0, fun p => .shadowSampleSelect p 0 0,
    fun p => .shadowJobDone p 0 [] [], fun p => .consecSamplesExceeded p 0, fun p => .nonceThreshold p 0 0, fun p => .tdiErrorTrigger p .linkDown,
    fun p => .getVersion (.func p)] : List (Nat → Instr)).all fun c => (c 7).wf && !(c 8).wf) = true := by decide +kernel

theorem test_wf_functions : (([.vf 0 0, .vf 9 0, .vf 1 4, .pf0 4] : List HostFn).all fun f =>
    !(Instr.registerWrite { fn := f, tee := false } 0 8 0).wf && !(Instr.functionLevelReset f).wf && !(Instr.pwrThermalRead { fn := f, tee := false }).wf) = true ∧
    (([.vf 1 0, .vf 8 3, .pf0 3] : List HostFn).all fun f => (Instr.functionLevelReset f).wf) = true := by decide +kernel

theorem test_wf_frames : (([frame0 4096 0 0, frame0 0 4096 0, frame0 0 0 64] : List Frame).all fun f =>
    !(Instr.read f).wf && !(Instr.write f).wf && !(Instr.tile f).wf && !(Instr.errorResponse f none).wf) = true ∧
    (Instr.write (frame0 4095 4095 63)).wf = true ∧
    (([dir0 4096 0 0 0, dir0 0 4096 0 0, dir0 0 0 8 0, dir0 0 0 0 8] : List DirMsg).all fun m => !(Instr.prepare m).wf && !(Instr.commit m).wf) = true ∧
    (Instr.abort (dir0 4095 4095 7 7)).wf = true := by decide +kernel

theorem test_wf_numbers : (([(.irqModCountReached, 2047), (.irqModTimerExpiry, 2047), (fun n => .descriptorArrival n none, 4095), (.mergeStart, 4194303),
    (.mergeCommit, 4194303), (.shaperEligible, 16383), (fun n => .shardReport 0 n 0 0 0 0 0, 255), (fun n => .safeReport 0 n false [], 255),
    (.stepMarkToken, 31), (.peerLossTimeout 0, 255), (fun n => .switchProbe 0 n (.job 0), 4095), (fun n => .probeAnswer 0 n true, 255),
    (fun n => .coreTileJobDone n (.damaged 0 0), 255),
    (.shadowSampleSelect 0 0, 255), (fun n => .recomputeJobDone n 0 0 [] 0 true, 4194303), (fun n => .recomputeJobDone 0 n 0 [] 0 true, 65535),
    (fun n => .logitsShardArrival n 0 [], 4194303), (.revivalStart, 4194303), (fun n => .peatDecodeDone n 0, 4194303), (.parkWritesStart, 4194303),
    (.demotionTimer, 4194303), (fun n => .dataFlit n 0, 31), (fun n => .nak n 0, 31), (.ackTimer, 31), (.portRetrainStart, 31),
    (fun n => .portRetrainDone n true, 31), (fun n => .mapUpdate n ext0, 4095), (fun n => .poison n [], 4095), (fun n => .revoke n 0, 4095),
    (fun n => .revokeAck n 0, 4095), (fun n => .offerHoldTimeout n 0, 4095), (fun n => .ownAcceptTimeout n 0, 4095),
    (fun n => .hostLineAccess acc n 0 none, 15), (fun n => .hostLinkLost n .reset, 3), (fun n => .beatSensorWindow n 0, 8), (.beatRateRead acc, 8),
    (fun n => .ideKm .mctp 0 n 0 0, 3), (fun n => .resetRelease n 0 0, 65535), (fun n => .resetRelease 0 n 0, 65535),
    (fun n => .resetRelease 0 0 n, 65535), (.thermalTripTimeout false, 8), (.thermalTripTimeout true, 11), (.sensorDisagreeTimeout, 4), (.railFault, 8),
    (.durableCommitDone, 2), (fun n => .idleFlit n 0, 31), (.msiXUnmask acc, 2047), (fun n => .pcieLinkUp n 16 [], 3),
    (fun n => .thermalSample (List.replicate n 0) [], 9), (fun n => .thermalSample [] (List.replicate n 0), 12)] : List ((Nat → Instr) × Nat)).all
    fun c => (c.1 c.2).wf && !(c.1 (c.2 + 1)).wf) = true := by decide +kernel

theorem test_refused_by_name : exec (.rngWake acc 8) (st host) = .refused .operandRange := rfl

/-! ### Worked examples of the manual -/

/-- 04: the handle of session 0x0A1B2C. -/
theorem test_handle : hDevice 0x02A600007D0A1B2C = 0x02A ∧ hPart 0x02A600007D0A1B2C = 3 ∧ hGen 0x02A600007D0A1B2C = 500 ∧
    hLocal 0x02A600007D0A1B2C = 0x0A1B2C ∧ mkHandle 0x02A 3 500 0x0A1B2C = 0x02A600007D0A1B2C := by decide +kernel

/-- 05: the header of a stored weight tile. -/
theorem test_tile_header : 
    let t : Tile := { format := 0x10, form := 1, kind := 1, sectors := 80, layout := 1, validRows := 192, rows := 192, cols := 640, index := 0x00050011, gen := 1 }
    let r : Region := { t1Region 1 with gen := 9, part := 3, isSealed := true, tile := [(0, t)] }
    (({ setFs {} [(FAB_ID_DEVICE_ID, 0x02A)] with tier := { region := [(0x41, r)] } } : Dev).tileHeader 0x41 0).take 24 =
    [0x10, 0x01, 0x01, 0x50, 0x01, 0x08, 0xC0, 0x00, 0xC0, 0x00, 0x80, 0x02, 0x11, 0x00, 0x05, 0x00, 0x41, 0x00, 0x09, 0x00, 0x00, 0x00, 0xA6, 0x02] := by
  decide +kernel

/-- 05: a block of PEAT-Q. -/
theorem test_peat_q : peatQBlock [elemNum 0x06 0x3B, elemNum 0x06 0xAA] = (0x7D, [0x7, 0xA]) := by decide +kernel

/-- 07: elements of a row in NX4: 3 under offset 0 and −4 under offset 3, with a row scale of 0.5. -/
theorem test_nx4 : let bs : List Byte := [0x00, 0x38, 0x30] ++ ([0x03] ++ List.replicate 15 0) ++ ([0x0C] ++ List.replicate 15 0)
    toF32 (elemValue 0x21 1 64 bs 0) = 0x3FC00000 ∧ toF32 (elemValue 0x21 1 64 bs 32) = 0xBE800000 := by decide +kernel

/-- 07: the byte 0xC9 in NX2 under a super-scale of 0x7C and a sub-scale of 11: 0.2578125, −0.0859375, 0.0859375, −0.2578125 from bit 0 up. -/
theorem test_nx2 : let bs : List Byte := [0x7C, 0x0B, 0, 0, 0, 0xC9] ++ List.replicate 31 0
    (List.range 4).map (fun i => toF32 (elemValue 0x20 1 128 bs i)) = [0x3E840000, 0xBDB00000, 0x3DB00000, 0xBE840000] := by decide +kernel

/-- 07: 0.30 written to E4M3 with sr_bits 0x7A31. -/
theorem test_stochastic : fmtE4M3.stochastic (f32 0x3E99999A) 0x7A31 = (0x2A, false) := by decide +kernel

/-- 12: two appends under a tool-result policer with 20 descriptor tokens and 1,000,000 byte tokens. -/
theorem test_policer : let q : Policer := { descRate := 200000, descBurst := 64, byteRate := 2000, byteBurst := 4194304, descTok := 20 * descToken,
                                            byteTok := 1000000 * byteToken, at_ := 0 }
    let a := q.decide 0 240
    let b := a.2.decide 0 116
    a.1 = true ∧ a.2.descTok = 19 * descToken ∧ a.2.byteTok = 999760 * byteToken ∧ b.1 = true ∧ b.2.descTok = 18 * descToken ∧
    b.2.byteTok = 999644 * byteToken ∧ (b.2.decide 0 16777216).1 = false := by decide +kernel

/-- 17: YOY_BATCH_3 and GLB_ASSEMBLY of a module M12-L4 with host role on port 0. -/
theorem test_registers : YOY_BATCH 3 = 0x030098 ∧
    (setFs {} [(GLB_ASSEMBLY_HOST_ROLE, 1), (GLB_ASSEMBLY_L_DIES, 4), (GLB_ASSEMBLY_STACKS, 12)]).reg 0x8 = 0x1004C := by decide +kernel

/-! ### Single steps -/

/-- The device after one command, where it answers a next state. -/
def after (i : Instr) (d : Dev) : Dev :=
  match step { st d with pending := [i] } with
  | .next s => s.dev
  | _ => {}

/-- 03 Table 03.4: NOP completes with OK. -/
theorem test_nop : (after (.nop 0 (desc 0 [])) (run host 0x00 (desc 0 []))).out.filterMap
    (fun | .completion _ c => some (c.status, c.tag, c.opcode, c.final, c.phase) | _ => none) = [(0x00, 7, 0x00, true, true)] := by decide +kernel

/-- 16 R423: PWR_BRAKE# brings the C-die rails to 0.65 V, and its release lets them rise. -/
theorem test_brake : (after .pwrBrakeAssert host).railMv 0 = 650 ∧ (after .pwrBrakeAssert host).pins.pwrBrake = false := by decide +kernel

/-- 02 R41: a second early edge is extra. -/
theorem test_extra_edge : let d := after .stepSyncEdge (synced7 0 { early := true })
    d.getF (GLB_STEP_STATUS_SYNC_EXTRA 7) = 1 ∧ d.getF (GLB_STEP_STATUS_EXTRA_COUNT 7) = 1 ∧ (d.stepP 7).early = true := by decide +kernel

/-- 16 R433: without the key SHUTDOWN does nothing; with 0x5A it starts. -/
theorem test_shutdown_key : (after (.shutdown acc 0x00) host).pwr.seq = .u6 ∧ (after (.shutdown acc 0x5A) host).pwr.seq ≠ .u6 := by decide +kernel

/-- 17 R452: a cap of 1,199 W is refused. -/
theorem test_cap_range : (after (.pldmSetPowerCap 1199) host).getF PWR_CAP_SIDEBAND_W = host.getF PWR_CAP_SIDEBAND_W ∧
    (after (.pldmSetPowerCap 1200) host).getF PWR_CAP_SIDEBAND_W = 1200 := by decide +kernel

end Sys2Proof.Tests
end

section
/-! SUPPORT and CERTIFICATES. 00_scope.md: the bits of register fields, host writes of registers that only hold bits (R8),
flags with their counters (R10), and descriptors with a reserved bit set (R11). -/

namespace Sys2Proof.Machine

/-! ### Bits of fields -/

theorem testBit_fldOf (f : Fld) (x : U64) (n : Nat) : (f.of x).testBit n = (decide (n < f.w) && x.getLsbD (f.lo + n)) := by
  simp [Fld.of, Nat.testBit_mod_two_pow, Nat.testBit_div_two_pow, BitVec.testBit_toNat, Nat.add_comm]

/-- Bit by bit, a field put into a number: the field's bits are the value's, every other bit is the number's. -/
theorem getLsbD_putBits (x : U64) (lo w v n : Nat) (hn : n < 64) :
    (putBits x lo w v).getLsbD n = if lo ≤ n ∧ n < lo + w then v.testBit (n - lo) else x.getLsbD n := by
  have hmask : (BitVec.ofNat 64 ((2 ^ w - 1) * 2 ^ lo)).getLsbD n = decide (lo ≤ n ∧ n < lo + w) := by
    rw [BitVec.getLsbD_ofNat, Nat.testBit_mul_two_pow, Nat.testBit_two_pow_sub_one]
    grind
  have hval : (BitVec.ofNat 64 (v % 2 ^ w * 2 ^ lo)).getLsbD n = (decide (lo ≤ n ∧ n < lo + w) && v.testBit (n - lo)) := by
    rw [BitVec.getLsbD_ofNat, Nat.testBit_mul_two_pow, Nat.testBit_mod_two_pow]
    grind
  simp only [putBits, BitVec.getLsbD_or, BitVec.getLsbD_and, BitVec.getLsbD_not, hmask, hval, hn]
  by_cases h : lo ≤ n ∧ n < lo + w <;> simp [h]

theorem of_putBits_same (f : Fld) (x : U64) (v : Nat) (h : f.lo + f.w ≤ 64) : f.of (putBits x f.lo f.w v) = v % 2 ^ f.w := by
  refine Nat.eq_of_testBit_eq fun n => ?_
  rw [testBit_fldOf, Nat.testBit_mod_two_pow]
  by_cases hn : n < f.w
  · rw [getLsbD_putBits _ _ _ _ _ (by omega), if_pos (by omega), Nat.add_sub_cancel_left]
  · simp [hn]

theorem of_putBits_apart (f g : Fld) (x : U64) (v : Nat) (h : g.lo + g.w ≤ f.lo ∨ f.lo + f.w ≤ g.lo) :
    g.of (putBits x f.lo f.w v) = g.of x := by
  refine Nat.eq_of_testBit_eq fun n => ?_
  rw [testBit_fldOf, testBit_fldOf]
  by_cases hn : n < g.w
  · by_cases h64 : g.lo + n < 64
    · rw [getLsbD_putBits _ _ _ _ _ h64, if_neg (by omega)]
    · rw [BitVec.getLsbD_of_ge _ _ (by omega), BitVec.getLsbD_of_ge _ _ (by omega)]
  · simp [hn]

theorem getF_setF_same (d : Dev) (f : Fld) (v : Nat) (h : f.lo + f.w ≤ 64) : (d.setF f v).getF f = v % 2 ^ f.w := by
  unfold Dev.getF Dev.setF
  rw [reg_setReg_same, of_putBits_same f _ v h]

/-- A field that lies in another register, or beside the one set, keeps its value. -/
theorem getF_setF_apart (d : Dev) (f g : Fld) (v : Nat) (h : g.off ≠ f.off ∨ g.lo + g.w ≤ f.lo ∨ f.lo + f.w ≤ g.lo) :
    (d.setF f v).getF g = d.getF g := by
  by_cases ho : g.off = f.off
  · unfold Dev.getF Dev.setF
    rw [ho, reg_setReg_same, of_putBits_apart f g _ v (h.resolve_left (not_not_intro ho))]
  · exact getF_setF_other d f g v ho

/-! ### Flags and their counters (R10) -/

theorem getF_flag_same (d : Dev) (f c : Fld) (hw : f.w = 1) (hlo : f.lo < 64) : (d.flag f c).getF f = 1 := by
  rw [Dev.flag, getF_setF_same _ _ _ (by omega), hw, pow_one]

theorem getF_flag_counter (d : Dev) (f c : Fld) (hc : c.lo + c.w ≤ 64)
    (h : c.off ≠ f.off ∨ c.lo + c.w ≤ f.lo ∨ f.lo + f.w ≤ c.lo) : (d.flag f c).getF c = (d.getF c + 1) % 2 ^ c.w := by
  rw [Dev.flag, getF_setF_apart _ _ _ _ h, Dev.incF, getF_setF_same _ _ _ hc]

theorem reg_flag_other (d : Dev) (f c : Fld) (o : Nat) (hf : o ≠ f.off) (hc : o ≠ c.off) : (d.flag f c).reg o = d.reg o := by
  rw [Dev.flag, reg_setF_other _ _ _ _ hf, Dev.incF, reg_setF_other _ _ _ _ hc]

/-- Settles O53: the counter is raised first, and the flag, which lies beside it or in another register, is set after. -/
theorem flagsCountEverySet : Obligations.FlagsCountEverySet := by
  intro d f c hw hlo _ hc hapart
  exact ⟨getF_flag_same d f c hw hlo, getF_flag_counter d f c hc (by omega),
    fun o hf hc => reg_flag_other d f c o hf hc, flag_quiet d f c⟩

/-! ### Host writes of registers that only hold bits (R8) -/

/-- No bit of a register is both RW and W1C (00 Table 00.3). -/
theorem regsOfBlock_rw_w1c_apart (b : Nat) : ∀ r ∈ regsOfBlock b, r.rw &&& r.w1c = 0 := by
  by_cases hb : b < 16
  · have table : ∀ b < 16, ∀ r ∈ regsOfBlock b, r.rw &&& r.w1c = 0 := by decide +kernel
    exact table b hb
  · obtain ⟨m, rfl⟩ := Nat.exists_eq_add_of_le (Nat.le_of_not_lt hb)
    rw [Nat.add_comm]
    exact fun r hr => absurd hr List.not_mem_nil

theorem regAt_mem {off : Nat} {r : RegInfo} {i : Nat} (h : regAt off = some (r, i)) : r ∈ regsOfBlock (off / 0x10000) := by
  unfold regAt at h
  split at h
  · next q hq =>
    split at h
    · obtain ⟨rfl, -⟩ := Prod.mk.inj (Option.some.inj h)
      exact List.mem_of_find?_eq_some hq
    · cases h
  · cases h

theorem regAt_rw_not_w1c {off : Nat} {r : RegInfo} {i : Nat} (h : regAt off = some (r, i)) (n : Nat) (hn : r.rw.getLsbD n = true) :
    r.w1c.getLsbD n = false := by
  have hbit := congrArg (BitVec.getLsbD · n) (regsOfBlock_rw_w1c_apart _ r (regAt_mem h))
  simpa [hn] using hbit

theorem getLsbD_writeBits {off : Nat} {r : RegInfo} {i : Nat} (h : regAt off = some (r, i)) (d : Dev) (v : U64) (n : Nat)
    (hn : n < 64) : ((d.writeBits off r v).reg off).getLsbD n =
      if r.rw.getLsbD n then v.getLsbD n else (d.reg off).getLsbD n && !(r.w1c.getLsbD n && v.getLsbD n) := by
  simp only [Dev.writeBits, reg_setReg_same, BitVec.getLsbD_and, BitVec.getLsbD_or, BitVec.getLsbD_not, hn]
  by_cases hrw : r.rw.getLsbD n = true
  · simp [hrw, regAt_rw_not_w1c h n hrw]
  · simp [hrw, Bool.and_comm]

/-- A register without an action of its own takes a value in range as bits. -/
theorem writeOne_holds_bits (d : Dev) (off : Nat) (r : RegInfo) (i : Nat) (v : U64) (hr : r.base ∉ actingRegs)
    (hv : d.valueOk r.base i v = true) : d.writeOne off r i v = some ((d.writeBits off r v).afterWrite off) := by
  simp only [actingRegs, List.mem_cons, List.not_mem_nil, not_or] at hr
  obtain ⟨h1, h2, h3, h4, h5, h6, -, h8, h9, -⟩ := hr
  simp only [Dev.writeOne, if_neg h1, if_neg h2, if_neg h3, if_neg h4, if_neg h5, if_neg h6, if_neg h8, if_neg h9, hv, if_true]

theorem afterWrite_eq_self (d : Dev) (off : Nat) (h1 : off ≠ PWR_CAP_CAP_W.off) (h2 : off ≠ PWR_HOLDUP_CFG) (h3 : off ≠ FAB_POOL_CFG) :
    d.afterWrite off = d := by
  simp only [Dev.afterWrite, if_neg h1, if_neg h2, if_neg h3]

theorem exec_registerWrite (a : Access) (off size : Nat) (v : U64) (s : State) (h : a.wf = true) :
    exec (.registerWrite a off size v) s = .next (s.onPower fun d => d.hostWrite a off size v) := guarded_wf _ _ h

/-- Settles O11: the write sets RW bits and clears W1C bits, and no register has a bit of both kinds. -/
theorem registerWriteSetsItsBits : Obligations.RegisterWriteSetsItsBits := by
  intro s a off v r i hwf htakes hact hv hcap hhold hpool
  have hevent : r.base ≠ RNG_EVENT_VEC 0 := fun h => hact (by simp [actingRegs, h])
  have hdev : (s.onPower fun d => d.hostWrite a off 8 v).dev = s.dev.writeBits off r v := by
    rw [onPower_dev, hostWrite_takes htakes v hevent, writeOne_holds_bits _ _ _ _ _ hact hv, Option.getD_some,
      afterWrite_eq_self _ _ hcap hhold hpool]
  obtain ⟨-, -, hreg, -⟩ := htakes
  refine ⟨_, exec_registerWrite a off 8 v s hwf, ?_⟩
  beta_reduce
  rw [hdev]
  exact ⟨fun n hn => getLsbD_writeBits hreg s.dev v n hn, fun o ho => reg_setReg_other _ _ _ _ ho, rfl⟩

/-! ### Raising a fault record keeps the descriptor table -/

theorem sendIrq_descs (d : Dev) (v : Nat) : (d.sendIrq v).rng.descs = d.rng.descs := by
  unfold Dev.sendIrq; dsimp only; split <;> rfl

theorem countIrq_descs (d : Dev) (v : Nat) (b : Bool) : (d.countIrq v b).rng.descs = d.rng.descs := by
  unfold Dev.countIrq; dsimp only
  split
  · exact sendIrq_descs _ v
  · rfl

theorem logFault_descs (d : Dev) (p : Nat) (r : FaultRec) : (d.logFault p r).rng.descs = d.rng.descs := by
  unfold Dev.logFault; dsimp only
  split
  · unfold Dev.writeFault; dsimp only
    rw [countIrq_descs]
    simp [Dev.modPr]
  · split <;> rfl

@[simp] theorem flashCopy_rng (d : Dev) (r : FaultRec) : (d.flashCopy r).rng = d.rng := by
  unfold Dev.flashCopy; dsimp only; split <;> rfl

theorem raiseAt_descs (d : Dev) (p : Option Nat) (c : Nat) (a : U64) (x m t : Nat) (b : Byte) :
    (d.raiseAt p c a x m t b).rng.descs = d.rng.descs := by
  unfold Dev.raiseAt; dsimp only
  rw [logFault_descs]
  split
  · rw [flashCopy_rng]; split <;> rfl
  · split <;> rfl

theorem raiseDesc_descs (d : Dev) (e : DescEntry) (c : Nat) (st : Byte) : (d.raiseDesc e c st).rng.descs = d.rng.descs :=
  raiseAt_descs d _ _ _ _ _ _ _

/-! ### A raised fault record is logged (03 R72) -/

theorem Quiet.dmaStopped_eq {d t : Dev} (h : Quiet d t) (p : Nat) : t.dmaStopped p = d.dmaStopped p := by
  have hsec : t.sec = d.sec := (congrArg Dev.sec h : t.rest.sec = d.rest.sec)
  unfold Dev.dmaStopped; rw [hsec]

theorem pr_modPr (d : Dev) (p q : Nat) (g : PartRing → PartRing) : (d.modPr p g).pr q = if q = p then g (d.pr p) else d.pr q :=
  tgetD_tmod d.rng.part p q {} g

theorem Grows.mem {d t : Dev} (h : Grows d t) {o : Out} (ho : o ∈ d.out) : o ∈ t.out := by
  obtain ⟨l, hl⟩ := h
  rw [hl]
  exact List.mem_append_right l ho

theorem mem_emitFor {d : Dev} {p : Nat} (h : ¬ d.dmaStopped p = true) (o : Out) : o ∈ (d.emitFor p o).out := by
  rw [Dev.emitFor, if_neg h]
  exact List.mem_cons_self

@[simp] theorem flashCopy_pr (d : Dev) (r : FaultRec) (p : Nat) : (d.flashCopy r).pr p = d.pr p :=
  congrArg (fun g : Rings => tgetD g.part p {}) (flashCopy_rng d r)

theorem writeFault_logged (d : Dev) (r : FaultRec) : (d.writeFault r.part r).Logged d r := by
  by_cases hs : d.dmaStopped r.part = true
  · exact .inr (.inl hs)
  · exact .inl ⟨_, _, (countIrq_grows _ _ _).mem (mem_emitFor hs _)⟩

theorem logFault_logged (d : Dev) (p : Nat) (r : FaultRec) (hp : r.part = p) : (d.logFault p r).Logged d r := by
  subst hp
  unfold Dev.logFault; dsimp only
  split
  · exact writeFault_logged d r
  · split
    · exact .inr (.inr (.inl (by simp [pr_modPr])))
    · next hfull => exact .inr (.inr (.inr ⟨by omega, getF_flag_same d _ _ rfl (by decide : 0 < 64)⟩))

/-- A record logged after a change that leaves the hosts' reach and the buffer of its partition alone is logged from before it. -/
theorem Dev.Logged.after {d m t : Dev} {r : FaultRec} (h : t.Logged m r) (hq : Quiet d m)
    (hb : (m.pr r.part).buffer = (d.pr r.part).buffer) : t.Logged d r := by
  unfold Dev.Logged at h ⊢
  rwa [hq.dmaStopped_eq, hb] at h

theorem raiseAt_logged (d : Dev) (p c : Nat) (a : U64) (x m t : Nat) (b : Byte) :
    ∃ r : FaultRec, r.addr = a ∧ r.comp = b ∧ r.part = p ∧ (d.raiseAt (some p) c a x m t b).Logged d r := by
  unfold Dev.raiseAt; dsimp only
  refine ⟨_, ?_, ?_, ?_, Dev.Logged.after (logFault_logged _ p _ ?_) ?_ ?_⟩
  · rfl
  · rfl
  · rfl
  · rfl
  · split
    · exact (modPr_quiet d p _).trans (flashCopy_quiet _ _)
    · exact modPr_quiet d p _
  · split <;> simp [pr_modPr]

theorem raiseDesc_logged (d : Dev) (e : DescEntry) (c : Nat) (st : Byte) :
    ∃ r : FaultRec, r.addr = e.addr ∧ r.comp = st ∧ r.part = e.part ∧ (d.raiseDesc e c st).Logged d r :=
  raiseAt_logged d e.part c e.addr 0 ringMaster _ st

/-! ### Statuses with a fault record -/

theorem failCode_eq {d : Dev} {k : Nat} {e : DescEntry} (he : tget d.rng.descs k = some e) (st : Byte) (c : Nat) (r : U64) (x : U32) :
    d.failCode k st c r x = (d.raiseDesc e c st).finish k st r x true := by
  simp only [Dev.failCode, he]

theorem fail_eq {d : Dev} {k : Nat} {e : DescEntry} (he : tget d.rng.descs k = some e) {st : Byte} (hl : stLogged st = true) (r : U64)
    (x : U32) : d.fail k st r x = d.failCode k st (opBlock e.op * 256 + stCode st) r x := by
  simp only [Dev.fail, he, hl, if_true]

/-- Both ways to refuse a descriptor with BAD_DESCRIPTOR draw RESULT and DETAIL, raise a fault record and end the descriptor. -/
theorem refuseBad_cases {d t : Dev} {k : Nat} {e : DescEntry} (he : tget d.rng.descs k = some e)
    (h : t = d.refuseHdr k stBad ∨ t = d.refuse k stBad) : ∃ c r y, t = ({ d with free := d.free + 2 } : Dev).failCode k stBad c r y := by
  obtain rfl | rfl := h
  · exact ⟨_, _, _, rfl⟩
  · exact ⟨_, _, _, fail_eq (d := { d with free := d.free + 2 }) he (by decide) _ _⟩

theorem failCode_completes {d : Dev} {k : Nat} {e : DescEntry} (he : tget d.rng.descs k = some e) (h : d.Hears e) (st : Byte) (c : Nat)
    (r : U64) (x : U32) : d.Completes (d.failCode k st c r x) e st r x := by
  rw [failCode_eq he]
  refine (finish_completes _ k e st r x true ?_ ⟨?_, h.2⟩).after (raiseAt_grows d _ _ _ _ _ _ _)
  · rw [raiseDesc_descs, he]
  · rw [(raiseDesc_quiet d e c st).dmaStopped_eq, h.1]

/-! ### Reserved bits (R11) -/

theorem named_facts {d : Dev} {op : Byte} {n : Nat} {x : Desc} {k : Nat} {e : DescEntry} (h : d.Named op n x k e) :
    e.op = op ∧ e.d = x ∧ e.st = .started := by
  have hfound := List.find?_some h.1
  simp only [Bool.and_eq_true, beq_iff_eq] at hfound
  obtain ⟨⟨⟨-, hop⟩, hx⟩, hst⟩ := hfound
  exact ⟨hop, hx, hst⟩

/-- A reserved bit of the header makes the header bad. -/
theorem headerStatus_reserved (d : Dev) (e : DescEntry) (h : 8 ≤ e.d.flags.toNat ∨ e.d.rsv ≠ 0) : d.headerStatus e = stBad := by
  have hbit : (decide (e.d.flags.toNat ≥ 8) || e.d.rsv != 0) = true := by simpa using h
  unfold Dev.headerStatus
  split
  · rfl
  · exact if_pos (by rw [hbit, Bool.true_or, Bool.true_or])

/-- A descriptor whose header or body is bad is refused before its opcode's own checks and effect are looked at. -/
theorem runOp_bad {d : Dev} {op : Byte} {n : Nat} {x : Desc} {k : Nat} {e : DescEntry} (h : d.Named op n x k e)
    (hbad : d.headerStatus e = stBad ∨ bodyBad e = true) (chk : Dev → Nat → Desc → Byte) (act : Dev → Nat → DescEntry → Dev) :
    d.runOp op n x chk act = d.refuseHdr k stBad ∨ d.runOp op n x chk act = d.refuse k stBad := by
  obtain ⟨-, -, hst⟩ := named_facts h
  obtain ⟨hfind, hget⟩ := h
  simp only [Dev.runOp, Dev.claim, hfind, hget, hst, bne_self_eq_false, Bool.false_eq_true, if_false]
  by_cases hhdr : d.headerStatus e = stBad
  · exact .inl (if_pos hhdr)
  · exact .inr (by rw [if_neg hhdr, if_pos (hbad.resolve_left hhdr)])

/-- Settles O50: a reserved bit is found before the opcode's own checks, and the refusal raises the record and ends the descriptor. -/
theorem reservedBitsAreRefused : Obligations.ReservedBitsAreRefused := by
  intro d op n x k e chk act hnamed _ hrsv
  obtain ⟨-, hx, -⟩ := named_facts hnamed
  have hbad : d.headerStatus e = stBad ∨ bodyBad e = true := by
    rw [← hx, ← or_assoc] at hrsv
    exact hrsv.imp_left (headerStatus_reserved d e)
  obtain ⟨c, r, y, hrun⟩ := refuseBad_cases hnamed.2 (runOp_bad hnamed hbad chk act)
  have hget : tget ({ d with free := d.free + 2 } : Dev).rng.descs k = some e := hnamed.2
  dsimp only
  rw [hrun]
  refine ⟨⟨c, r, y, failCode_eq hget _ _ _ _⟩, fun c p => raiseDesc_logged p e c stBad, ?_, fun hears => ⟨r, y, ?_⟩⟩
  · exact Quiet.trans (b := { d with free := d.free + 2 }) rfl (failCode_quiet _ _ _ _ _ _)
  · exact (failCode_completes hget hears stBad c r y).after (Grows.of_eq rfl)

end Sys2Proof.Machine
end

section
/-! SUPPORT and CERTIFICATES. 02_handshake_timing.md: the clock (Table 02.3, R45), registers that act (R30; 07 R198; 16 R433, R438), the way
to a boundary (R36–R42; 05 R138), and what may hold a boundary or change a job (R46; 04 R111–R113; 05 R139; 08 R224; 14 R377–R380). -/

namespace Sys2Proof.Machine

/-! ### Rows by their effect on the device at hand -/

theorem onPower_congr {s : State} {f g : Dev → Dev} (h : f s.dev = g s.dev) : s.onPower f = s.onPower g := by
  rw [State.onPower, State.onPower, h]

theorem onStep_congr {s : State} {f g : Dev → Dev} (h : f s.dev = g s.dev) : s.onStep f = s.onStep g :=
  onPower_congr (congrArg Dev.shutdownOn h)

/-- A row that may take power from the HBM. -/
theorem exec_onPower {i : Instr} {s : State} {f g : Dev → Dev} (hx : exec i s = guarded i (.next (s.onPower f)))
    (hw : i.wf = true) (hfg : f s.dev = g s.dev) : exec i s = .next (s.onPower g) := by
  rw [hx, guarded_wf _ _ hw, onPower_congr hfg]

/-- A row that may end a step. -/
theorem exec_onStep {i : Instr} {s : State} {f g : Dev → Dev} (hx : exec i s = guarded i (.next (s.onStep f)))
    (hw : i.wf = true) (hfg : f s.dev = g s.dev) : exec i s = .next (s.onStep g) := by
  rw [hx, guarded_wf _ _ hw, onStep_congr hfg]

/-- A row that acts on the device alone. -/
theorem becomes_onDev {i : Instr} {s : State} {f : Dev → Dev} {t : Dev} (hx : exec i s = guarded i (onDev s f))
    (hw : i.wf = true) (hf : f s.dev = t) : Becomes i s t := by
  rw [Becomes, hx, guarded_wf _ _ hw, onDev_next, hf]

/-! ### The clock (Table 02.3, R45) -/

/-- Settles O2: on an empty queue the step is the tick, and the tick's two rates are its two cases. -/
theorem idleStepTicksTheClock : Obligations.IdleStepTicksTheClock := by
  intro s hidle
  refine ⟨tick s, by simp only [step, hidle], fun hslew => ?_, fun hslew => ?_⟩
  · simp only [tick, hslew, if_true]
  · simp only [tick, hslew, if_false]

/-! ### An edge of the sync condition (R40–R42) -/

theorem stepP_modStep (d : Dev) (p : Nat) (f : StepP → StepP) : (d.modStep p f).stepP p = f (d.stepP p) := by
  simp only [Dev.stepP, Dev.modStep, tgetD_tmod, if_true]

theorem stepP_setL (d : Dev) (f : Fld) (v p : Nat) : (d.setL f v).stepP p = d.stepP p := rfl

theorem syncEdge_in_window {d : Dev} {p : Nat} (h : d.phase p = 2) : d.syncEdge p = d.sendToken p false := by
  simp only [Dev.syncEdge, h]

/-- Before the ESP an edge is held, or, while one is held, it is counted as extra. -/
theorem syncEdge_before_esp {d : Dev} {p : Nat} (h : d.phase p = 0 ∨ d.phase p = 1 ∨ d.phase p = 6) :
    d.syncEdge p = if (d.stepP p).early then d.flag (GLB_STEP_STATUS_SYNC_EXTRA p) (GLB_STEP_STATUS_EXTRA_COUNT p)
      else d.modStep p fun y => { y with early := true } := by
  obtain h | h | h := h <;> simp only [Dev.syncEdge, h]

/-- At the ESP of a step that passed, an edge held from before sends the commit token. -/
theorem reachEsp_early {d : Dev} {p : Nat} (hphase : d.phase p ≠ 6) (hearly : (d.stepP p).early = true)
    (hpass : (d.stepP p).failed = false) : d.reachEsp p =
      ((d.modStep p fun y => { y with esp := some d.clock.now, stepNs := min (d.clock.now - (d.stepP p).released).toNat (2 ^ 32 - 1) }).setL
        (GLB_STEP_TIME_STEP_NS p) (min (d.clock.now - (d.stepP p).released).toNat (2 ^ 32 - 1))).sendToken p false := by
  simp only [Dev.reachEsp, hphase, hearly, hpass, Bool.or_true, if_true, if_false, Bool.false_eq_true]

theorem markStep_grows (d : Dev) (p : Nat) : Grows d (d.markStep p) := by
  unfold Dev.markStep; dsimp only
  split
  · exact Grows.refl d
  · exact ((emit_grows d _).trans (emit_grows _ _)).trans (grows_foldl _ (fun d n => emit_grows d _) _ _)

/-- What is sent to each of a list goes out to every one of them. -/
theorem mem_foldl_emit {β : Type} (g : β → Out) {xs : List β} {x : β} (hx : x ∈ xs) (d : Dev) :
    g x ∈ (xs.foldl (fun (d : Dev) y => d.emit (g y)) d).out := by
  induction xs generalizing d with
  | nil => cases hx
  | cons y ys ih =>
    rcases List.mem_cons.mp hx with rfl | hx
    · exact (grows_foldl _ (fun d y => emit_grows d (g y)) ys _).mem List.mem_cons_self
    · exact ih hx _

/-- Sending the commit token is a commit at the root, after the token went to the other devices and the held edge was used up. -/
theorem sendToken_commits (d : Dev) (p : Nat) (late : Bool) : ∃ v : Dev, d.sendToken p late = v.commit p (d.makeToken p) ∧
    (v.stepP p).early = false ∧ ∀ x ∈ d.boundaryPeers p, Out.ctrl x (.commitToken p (d.makeToken p)) ∈ v.out := by
  refine ⟨_, rfl, ?_, fun x hx => ?_⟩
  · rw [stepP_setL, stepP_modStep]
  · exact (markStep_grows _ p).mem (mem_foldl_emit (fun x => .ctrl x (.commitToken p (d.makeToken p))) hx d)

/-- Settles O55: before the ESP an edge is held or extra, and at the ESP the held one sends the token, which uses it up. -/
theorem earlyEdgesAreHeld : Obligations.EarlyEdgesAreHeld := by
  intro d p hphase
  have hedge := syncEdge_before_esp (d := d) (p := p) (hphase.imp_right .inl)
  refine ⟨fun hfree => ?_, fun hheld => ?_, fun hheld hpass => reachEsp_early (by omega) hheld hpass, fun u late => sendToken_commits u p late⟩
  · rw [hedge, hfree, if_neg Bool.false_ne_true]
  · rw [hedge, if_pos hheld]

/-! ### The end of the window (R42) -/

/-- A fault record that an engine raises for a partition carries its code and is logged (03 R72). -/
theorem raise_logged (d : Dev) (p c : Nat) (a : U64) (x m : Nat) :
    ∃ r : FaultRec, r.code = c ∧ r.part = p ∧ (d.raise (some p) c a x m).Logged d r := by
  unfold Dev.raise Dev.raiseAt; dsimp only
  refine ⟨_, ?_, ?_, Dev.Logged.after (logFault_logged _ p _ ?_) ?_ ?_⟩
  · rfl
  · rfl
  · rfl
  · split
    · exact (modPr_quiet d p _).trans (flashCopy_quiet _ _)
    · exact modPr_quiet d p _
  · split <;> simp [pr_modPr]

theorem raiseOpen_logged (d : Dev) (p c m : Nat) :
    ∃ r : FaultRec, r.code = c ∧ r.part = p ∧ (d.raiseOpen (some p) c m).Logged d r := by
  obtain ⟨r, hcode, hpart, hlog⟩ := raise_logged d.draw.2 p c d.draw.1 2 m
  exact ⟨r, hcode, hpart, hlog.after rfl rfl⟩

theorem exec_syncWindowExpiry {s : State} {p : Nat} (hp : p < 8) (hroot : s.dev.isRoot p = true) (hphase : s.dev.phase p = 2) :
    exec (.syncWindowExpiry p) s = .next (s.onStep fun d =>
      ((d.flag (GLB_STEP_STATUS_SYNC_LATE p) (GLB_STEP_STATUS_LATE_COUNT p)).raiseOpen (some p) 0x0010 0x101).sendToken p true) :=
  exec_onStep rfl (decide_eq_true hp) (by simp only [hroot, hphase, beq_self_eq_true, Bool.and_self, if_true])

/-- Settles O56: at the end of the window the flag is set and counted, the record is raised, and the token is sent. -/
theorem lateBoundariesCommit : Obligations.LateBoundariesCommit := by
  intro s p hp _ hroot hphase u
  exact ⟨(exec_syncWindowExpiry hp hroot hphase).trans (congrArg _ (onStep_congr rfl)), getF_flag_same _ _ _ rfl (by decide : 0 < 64),
    getF_flag_counter _ _ _ (by decide : 32 + 16 ≤ 64) (.inr (.inr (by decide : 0 + 1 ≤ 32))), raiseOpen_logged _ p 0x0010 0x101⟩

/-! ### Registers that act (R30; 07 R198; 16 R433, R438) -/

theorem hostWrite_escClear {d : Dev} {a : Access} {p : Nat} (hp : p < 8) (hup : d.hostUp = true)
    (hadm : d.admits a (ARI_ESC_CLEAR p) 8 true = true) (hroot : d.isRoot p = true) (v : U64) :
    d.hostWrite a (ARI_ESC_CLEAR p) 8 v = d.modStep p fun y => { y with
      clears := y.clears ++ [if (ARI_ESC_CLEAR_ALL p).of v = 1 then none else some ((ARI_ESC_CLEAR_LAYER p).of v)] } := by
  obtain ⟨r, hr, hbase⟩ := regAt_escClear p hp
  have htakes : d.Takes a (ARI_ESC_CLEAR p) r p := ⟨hup, hadm, hr, by rw [hbase]; rfl⟩
  have hone : d.writeOne (ARI_ESC_CLEAR p) r p v = d.writeClear p v := by
    simp only [Dev.writeOne, hbase]
    rfl
  rw [hostWrite_takes htakes v (by rw [hbase]; decide), hone, Dev.writeClear, if_pos hroot, Option.getD_some]

theorem hostWrite_pwrCtl {d : Dev} {a : Access} (hup : d.hostUp = true) (hadm : d.admits a PWR_CTL 8 true = true) (v : U64) :
    d.hostWrite a PWR_CTL 8 v = (d.writePower v).getD (d.invalidWrite a PWR_CTL) := by
  obtain ⟨r, hr, hbase⟩ := regAt_pwrCtl
  have htakes : d.Takes a PWR_CTL r 0 := ⟨hup, hadm, hr, by rw [hbase]; rfl⟩
  have hone : d.writeOne PWR_CTL r 0 v = d.writePower v := by
    simp only [Dev.writeOne, hbase]
    rfl
  rw [hostWrite_takes htakes v (by rw [hbase]; decide), hone]

/-- A host read that is admitted, of a register without write-only bits, answers its value; an absent L-die's beat rate is 0. -/
theorem hostReadReg_out {d : Dev} {a : Access} {off : Nat} {r : RegInfo} {i : Nat} (hup : d.hostUp = true)
    (hadm : d.admits a off 8 false = true) (hr : regAt off = some (r, i)) (hwo : r.wo = 0) (htime : off ≠ GLB_TIME) :
    (d.hostReadReg a off).out = .regData off (if d.deadBeat off then 0 else d.reg off) :: d.out := by
  have hread : (d.readReg off).1 = (if d.deadBeat off then 0 else d.reg off) ∧ (d.readReg off).2.out = d.out := by
    simp only [Dev.readReg, hr, if_neg htime]
    split
    · exact ⟨rfl, rfl⟩
    · dsimp only
      refine ⟨by rw [hwo]; exact BitVec.and_allOnes, ?_⟩
      split <;> rfl
  obtain ⟨hval, hout⟩ := hread
  simp only [Dev.hostReadReg, hup, hadm, Bool.not_true, Bool.false_eq_true, if_false, Dev.emit, hval, hout]

theorem escClear_layer_fields (p : Nat) (layer : Byte) :
    (ARI_ESC_CLEAR_ALL p).of (layer.setWidth 64) = 0 ∧ (ARI_ESC_CLEAR_LAYER p).of (layer.setWidth 64) = layer.toNat := by
  have hlt := layer.isLt
  simp only [Fld.of, ARI_ESC_CLEAR_ALL, ARI_ESC_CLEAR_LAYER, BitVec.toNat_setWidth]
  omega

/-- Settles O15: the writes that act are admitted writes of their registers; the reads answer the register's value. -/
theorem actingRegistersAct : Obligations.ActingRegistersAct := by
  intro s a p hp hwf hup
  refine ⟨fun layer hadm hroot => ?_, fun hadm hroot => ?_, fun hadm => ?_, fun hadm => ?_, fun i hi hadm => ?_, fun hadm => ?_⟩
  · obtain ⟨hall, hlayer⟩ := escClear_layer_fields p layer
    refine ⟨_, becomes_onDev rfl (by simp [Instr.wf, hwf, hp]) rfl, ?_⟩
    beta_reduce
    rw [hostWrite_escClear hp hup hadm hroot, stepP_modStep, hall, hlayer]
    rfl
  · have hall : (ARI_ESC_CLEAR_ALL p).of 0x100 = 1 := by simp [Fld.of, ARI_ESC_CLEAR_ALL]
    refine ⟨_, becomes_onDev rfl (by simp [Instr.wf, hwf, hp]) rfl, ?_⟩
    beta_reduce
    rw [hostWrite_escClear hp hup hadm hroot, stepP_modStep, hall, if_pos rfl]
  · exact exec_onPower rfl hwf (hostWrite_pwrCtl hup hadm _)
  · exact exec_onPower rfl hwf (hostWrite_pwrCtl hup hadm _)
  · obtain ⟨r, hr, hwo⟩ := regAt_beatRate i hi
    exact ⟨_, becomes_onDev rfl (by simp [Instr.wf, hwf, hi]) rfl,
      hostReadReg_out hup hadm hr hwo (by unfold GLB_BEAT_RATE GLB_TIME; omega)⟩
  · obtain ⟨r, hr, hwo⟩ := regAt_thermal
    refine ⟨_, becomes_onDev rfl hwf rfl, ?_⟩
    beta_reduce
    rw [hostReadReg_out hup hadm hr hwo (by decide)]
    rfl

/-! ### The way to a boundary (R36–R42; 05 R138) -/

/-- A step that failed or is done stops at its safe point. -/
theorem stepEnded {d : Dev} {p : Nat} (h : (d.stepP p).failed = true ∨ d.stepDone p = true) :
    (!(d.stepP p).failed && !d.stepDone p) = false := by
  obtain h | h := h <;> simp [h]

/-- At its safe point the root counts itself. -/
theorem exec_localSafePoint_root {s : State} {p : Nat} (hp : p < 8) (hpres : s.dev.present p = true) (hphase : s.dev.phase p = 0)
    (htdi : tget s.dev.sec.tdi p ≠ some .error) (hdone : (s.dev.stepP p).failed = true ∨ s.dev.stepDone p = true)
    (hroot : s.dev.isRoot p = true) : exec (.localSafePoint p) s = .next (s.onStep fun d =>
      ((d.abandonShadows p).setPhase p 1).gotReport p ((d.abandonShadows p).myPos p) false []) :=
  exec_onStep rfl (decide_eq_true hp) (by simp [hroot, hpres, hphase, htdi, stepEnded hdone])

/-- At its safe point any other device reports to the root. -/
theorem exec_localSafePoint_away {s : State} {p : Nat} (hp : p < 8) (hpres : s.dev.present p = true) (hphase : s.dev.phase p = 0)
    (htdi : tget s.dev.sec.tdi p ≠ some .error) (hdone : (s.dev.stepP p).failed = true ∨ s.dev.stepDone p = true)
    (hroot : s.dev.isRoot p = false) : exec (.localSafePoint p) s = .next (s.onStep fun d =>
      let t := d.abandonShadows p
      let y := t.stepP p
      ((t.emit (.ctrl (t.getF (GLB_SYNC_CFG_ROOT_DEVICE p)) (.safeReport p (t.myPos p) y.failed y.escReq))).modStep p
        fun z => { z with escReq := [] }).setPhase p 7) :=
  exec_onStep rfl (decide_eq_true hp) (by simp [hroot, hpres, hphase, htdi, stepEnded hdone])

theorem exec_safeReport {s : State} {p pos : Nat} (failed : Bool) (esc : List Nat) (hp : p < 8) (hpres : s.dev.present p = true)
    (hpos : pos < 256) (hroot : s.dev.isRoot p = true) (hdev : pos < (s.dev.jobDevices p).length) (h5 : s.dev.phase p ≠ 5)
    (h2 : s.dev.phase p ≠ 2) : exec (.safeReport p pos failed esc) s = .next (s.onStep fun d => d.gotReport p pos failed esc) :=
  exec_onStep rfl (by simp [Instr.wf, hp, hpos]) (by simp [hroot, hpres, hdev, h5, h2])

theorem exec_idleBoundaryTimer {s : State} {p : Nat} (hp : p < 8) (hpres : s.dev.present p = true) (hroot : s.dev.isRoot p = true)
    (hphase : s.dev.phase p = 6) :
    exec (.idleBoundaryTimer p) s = .next (s.onStep fun d => d.gotReport p (d.myPos p) false []) :=
  exec_onStep rfl (decide_eq_true hp) (by simp [hroot, hpres, hphase])

/-- An edge with one partition in MODE 1 is that partition's edge. -/
theorem exec_stepSyncEdge_one {s : State} {p : Nat} {f : Dev → Dev} (hone : s.dev.synced 1 = [p]) (hf : s.dev.syncEdge p = f s.dev) :
    exec .stepSyncEdge s = .next (s.onStep f) :=
  exec_onStep rfl rfl (by rw [hone, ← hf]; rfl)

theorem exec_commitToken_away {s : State} {p : Nat} (t : CommitToken) (hp : p < 8) (hpres : s.dev.present p = true)
    (hroot : s.dev.isRoot p = false) (hphase : s.dev.phase p = 7) : exec (.commitToken p t) s = .next (s.onStep fun d =>
      let a := d.draw
      let b := a.2.draw
      ((b.2.setL (GLB_STEP_TIME_STEP_NS p) a.1.toNat).setL (GLB_STEP_TIME_SYNC_WAIT_NS p) b.1.toNat).commit p t) :=
  exec_onStep rfl (decide_eq_true hp) (by simp [hroot, hpres, hphase])

/-- Settles O46: each row's guard holds under the clause's hypotheses, and its effect is the clause's. -/
theorem boundariesAreReached : Obligations.BoundariesAreReached := by
  intro s p hp hpres
  refine ⟨fun hphase htdi hdone => ⟨exec_localSafePoint_root hp hpres hphase htdi hdone, exec_localSafePoint_away hp hpres hphase htdi hdone⟩,
    fun pos failed esc hpos hroot hdev h5 h2 => exec_safeReport failed esc hp hpres hpos hroot hdev h5 h2,
    exec_idleBoundaryTimer hp hpres, fun hone => ⟨fun h2 => ?_, fun h0 hfree => ?_, fun h0 hheld => ?_⟩, fun port hport => ?_,
    exec_syncWindowExpiry hp, fun hlate => ?_, fun t => exec_commitToken_away t hp hpres, fun hroot hphase => ?_⟩
  · exact exec_stepSyncEdge_one hone (syncEdge_in_window h2)
  · exact exec_stepSyncEdge_one hone (by rw [syncEdge_before_esp (.inl h0), hfree, if_neg Bool.false_ne_true])
  · exact exec_stepSyncEdge_one hone (by rw [syncEdge_before_esp (.inl h0), if_pos hheld])
  · exact exec_onStep rfl (decide_eq_true hport) rfl
  · exact becomes_onDev rfl (decide_eq_true hp) (if_pos hlate)
  · exact becomes_onDev rfl (decide_eq_true hp) (by simp [hroot, hphase])

/-! ### What may hold a boundary or change a job (R30, R46; 04 R111–R113; 05 R139; 08 R224; 14 R377–R380) -/

theorem exec_rebuildTimeout {s : State} {p : Nat} (hp : p < 8) (hcfg : s.dev.getB (TIER_REBUILD_CFG_TIMEOUT_S p) ≠ 0)
    (hheld : (s.dev.stepP p).held = true) (hdeg : (s.dev.window p).degraded ≠ []) :
    exec (.rebuildTimeout p) s = .next (s.onStep fun d =>
      let t := (d.lens p).foldl (fun u e => u.dropHeld e.loc) d
      let u := ((t.setLens p []).trimReserved p 0).modStep p fun y => { y with held := false, failed := false }
      (u.modWindow p fun w => { w with failed := true }).setPhase p 6) :=
  exec_onStep rfl (decide_eq_true hp) (by simp [hcfg, hheld, hdeg])

/-- A device of the job that has not reported is lost at its place of the full image. -/
theorem exec_peerLossTimeout {s : State} {p pos : Nat} {j : Job} {c : Sections} {h : ImageHdr} {fs : Sections} (hp : p < 8)
    (hpos : pos < 256) (hjob : s.dev.activeJob p = some j) (hsect : j.sect = some c) (hfull : j.fullImage = some (h, fs))
    (hroot : s.dev.isRoot p = true) (hphase : s.dev.phase p = 1) (hheld : (s.dev.stepP p).held = false) (hdev : pos < c.devices.length)
    (hrep : (s.dev.stepP p).reports.contains pos = false) : exec (.peerLossTimeout p pos) s = .next (s.onStep fun d =>
      let dev := c.devices.getD pos 0
      let lost := j.missing ++ ((fs.devices.zipIdx.filter fun x => x.1 == dev).map fun x => x.2)
      (((d.boundaryPeers p).filter (· != dev)).foldl (fun (t : Dev) x => t.emit (.ctrl x (.shrinkToken p lost))) d).shrink p lost) := by
  refine exec_onStep rfl (by simp [Instr.wf, hp, hpos]) ?_
  simp only [hjob, hsect, hfull, hroot, hphase, hheld, hdev, hrep, beq_self_eq_true, Bool.not_false, decide_true, Bool.and_self, if_true]

/-- A window of a beat sensor sets RATE, and MIN_RATE to the least seen. -/
theorem beatSensorWindow_rates (d : Dev) (die : Nat) (rate : U16) : let t := d.setF (GLB_BEAT_RATE_RATE die) rate.toNat
    let u := if rate.toNat < t.getF (GLB_BEAT_RATE_MIN_RATE die) then t.setF (GLB_BEAT_RATE_MIN_RATE die) rate.toNat else t
    u.getF (GLB_BEAT_RATE_RATE die) = rate.toNat ∧
    u.getF (GLB_BEAT_RATE_MIN_RATE die) = min rate.toNat (d.getF (GLB_BEAT_RATE_MIN_RATE die)) := by
  intro t u
  have hmod : rate.toNat % 2 ^ 16 = rate.toNat := Nat.mod_eq_of_lt rate.isLt
  have hrate : t.getF (GLB_BEAT_RATE_RATE die) = rate.toNat := (getF_setF_same _ _ _ (by decide : 0 + 16 ≤ 64)).trans hmod
  have hmin : t.getF (GLB_BEAT_RATE_MIN_RATE die) = d.getF (GLB_BEAT_RATE_MIN_RATE die) :=
    getF_setF_apart _ _ _ _ (.inr (.inr (by decide : 0 + 16 ≤ 32)))
  by_cases hlow : rate.toNat < t.getF (GLB_BEAT_RATE_MIN_RATE die)
  · have hu : u = t.setF (GLB_BEAT_RATE_MIN_RATE die) rate.toNat := if_pos hlow
    rw [hu]
    refine ⟨(getF_setF_apart _ _ _ _ (.inr (.inl (by decide : 0 + 16 ≤ 32)))).trans hrate, ?_⟩
    rw [getF_setF_same _ _ _ (by decide : 32 + 16 ≤ 64), ← hmin, Nat.min_eq_left hlow.le]
    exact hmod
  · have hu : u = t := if_neg hlow
    rw [hu, ← hmin, Nat.min_eq_right (Nat.le_of_not_lt hlow)]
    exact ⟨hrate, rfl⟩

/-- Settles O47: each row's guard holds under the clause's hypotheses, and its effect is the clause's. -/
theorem heldStepsGoOn : Obligations.HeldStepsGoOn := by
  intro s p hp
  have hwf := decide_eq_true hp
  refine ⟨fun hdrain => exec_onStep rfl hwf (if_pos hdrain), fun short hdrain => exec_onStep rfl hwf (if_pos hdrain),
    exec_rebuildTimeout hp, ?_, fun lost hroot hphase => exec_onStep rfl hwf (by simp [hroot, hphase]),
    fun f descs hf => becomes_onDev rfl hf rfl, fun hstage => exec_onStep rfl hwf (if_pos hstage),
    fun hstage => exec_onStep rfl hwf (if_pos hstage), fun die rate hdie hpresent hrun => ?_⟩
  · intro pos j c h fs hpos hjob hsect hfull hroot hphase hheld hdev hrep
    exact exec_peerLossTimeout hp hpos hjob hsect hfull hroot hphase hheld hdev hrep
  · obtain ⟨hrate, hmin⟩ := beatSensorWindow_rates s.dev die rate
    exact ⟨_, becomes_onDev rfl (decide_eq_true hdie) (if_pos (by simp [hpresent, hrun])), hrate, hmin, rfl⟩

end Sys2Proof.Machine
end

section
/-! SUPPORT and CERTIFICATES. 03_rings_doorbells.md: ring-class opcodes (R63), doorbell scans (R55, R56), the order of a completion ring (R65,
R66), the registers that set up rings (R51, R83, R456), and what the host's answers and the functions' resets do (R57, R72, R73, R457;
17 R444). -/

namespace Sys2Proof.Machine

/-! ### Rings and the ledger -/

@[simp] theorem move_rng (d : Dev) (c i a b n : Nat) (p : Option Nat) : (d.move c i a b n p).rng = d.rng := by
  unfold Dev.move
  split
  · rfl
  · split <;> rfl

@[simp] theorem move_regs (d : Dev) (c i a b n : Nat) (p : Option Nat) : (d.move c i a b n p).regs = d.regs := by
  unfold Dev.move
  split
  · rfl
  · split <;> rfl

theorem ring_setRing (d : Dev) (n m : Nat) (r : Ring) : (d.setRing n r).ring m = if m = n then r else d.ring m :=
  tgetD_tput d.rng.ring n m r {}

@[simp] theorem ring_setRing_same (d : Dev) (n : Nat) (r : Ring) : (d.setRing n r).ring n = r := by
  rw [ring_setRing, if_pos rfl]

theorem ring_of_rng {d t : Dev} (h : t.rng = d.rng) (n : Nat) : t.ring n = d.ring n := by
  unfold Dev.ring; rw [h]

@[simp] theorem ring_cqMove (d : Dev) (n a b k m : Nat) : (d.cqMove n a b k).ring m = d.ring m := ring_of_rng (move_rng ..) m

theorem sendIrq_ring (d : Dev) (v m : Nat) : (d.sendIrq v).ring m = d.ring m := by
  unfold Dev.sendIrq; dsimp only; split <;> rfl

theorem countIrq_ring (d : Dev) (v : Nat) (b : Bool) (m : Nat) : (d.countIrq v b).ring m = d.ring m := by
  unfold Dev.countIrq; dsimp only
  split
  · exact sendIrq_ring _ v m
  · rfl

/-! ### A ring that is opened (R456) -/

theorem openRing_quiet (d : Dev) (n : Nat) (r : Ring) : Quiet d (d.openRing n r) := by
  unfold Dev.openRing; dsimp only
  split
  · exact setRing_quiet d n _
  · exact ((setRing_quiet d n _).trans (endLed_quiet _ _ _)).trans (move_quiet _ _ _ _ _ _ _)

/-- Opening a ring changes the table of rings and the ledger. -/
theorem openRing_rng (d : Dev) (n : Nat) (r : Ring) :
    (d.openRing n r).rng = { d.rng with ring := tput d.rng.ring n { r with st := .active } } := by
  unfold Dev.openRing Dev.cqMove; dsimp only
  split
  · rfl
  · rw [move_rng]; rfl

@[simp] theorem openRing_out (d : Dev) (n : Nat) (r : Ring) : (d.openRing n r).out = d.out := by
  unfold Dev.openRing Dev.cqMove; dsimp only
  split
  · rfl
  · rw [move_out]; rfl

@[simp] theorem openRing_regs (d : Dev) (n : Nat) (r : Ring) : (d.openRing n r).regs = d.regs := by
  unfold Dev.openRing Dev.cqMove; dsimp only
  split
  · rfl
  · rw [move_regs]; rfl

/-! ### Ring-class opcodes (R63) -/

theorem okOpen_completes {d : Dev} {k : Nat} {e : DescEntry} (he : tget d.rng.descs k = some e) (h : d.Hears e) :
    ∃ r y, d.Completes (d.okOpen k) e stOk r y :=
  ⟨_, _, (ok_completes d.openPair.2.2 k e _ _ he h).after (openPair_grows d)⟩

/-- An opcode whose effect `f` leaves the descriptor table and what is sent alone, and which then ends its descriptor with OK. -/
theorem op_takes_effect_and_completes {i : Instr} {s : State} {op : Byte} {n : Nat} {x : Desc} {k : Nat} {e : DescEntry}
    {chk : Dev → Nat → Desc → Byte} {act : Dev → Nat → DescEntry → Dev} (f : Dev → Dev) (h : s.dev.Ready op n x k e)
    (hx : exec i s = guarded i (onDev s fun d => d.runOp op n x chk act)) (hw : i.wf = true) (hc : chk s.dev e.part x = stOk)
    (ha : act s.dev k e = (f s.dev).okOpen k) (hears : s.dev.Hears e) (hquiet : Quiet s.dev (f s.dev))
    (hout : (f s.dev).out = s.dev.out) (hdescs : (f s.dev).rng.descs = s.dev.rng.descs) :
    Answers i s fun t => t = s.dev' (fun d => (f d).okOpen k) ∧ ∃ r y, s.dev.Completes t.dev e stOk r y := by
  obtain ⟨hreach, hloud⟩ := hears
  obtain ⟨r, y, hdone⟩ := okOpen_completes (d := f s.dev) (hdescs ▸ h.2.1) ⟨(hquiet.dmaStopped_eq _).trans hreach, hloud⟩
  exact ⟨_, op_becomes h hx hw hc ha, rfl, r, y, hdone.after (.of_eq hout)⟩

theorem doRingCreate_opens {d : Dev} {k : Nat} {e : DescEntry} (hfree : (d.ring (fieldAt e.d 32 2)).st = .disabled)
    (hcq : fieldAt e.d 36 2 = fieldAt e.d 32 2 ∨
      ((d.ring (fieldAt e.d 36 2)).st ≠ .disabled ∧ (d.ring (fieldAt e.d 36 2)).cqLog2 ≠ 0)) :
    doRingCreate d k e = (d.openRing (fieldAt e.d 32 2)
      { sqBase := BitVec.ofNat 64 (fieldAt e.d 16 8), cqBase := BitVec.ofNat 64 (fieldAt e.d 24 8), sqLog2 := fieldAt e.d 34 1,
        cqLog2 := fieldAt e.d 35 1, cqTarget := fieldAt e.d 36 2, vector := fieldAt e.d 38 2, priority := fieldAt e.d 40 1,
        policer := fieldAt e.d 42 2 }).okOpen k := by
  refine if_neg ?_
  rintro (hused | ⟨hother, hgone | hnone⟩)
  · exact hused hfree
  · exact (hcq.resolve_left hother).1 hgone
  · exact (hcq.resolve_left hother).2 hnone

theorem doRingDestroy_drains {d : Dev} {k : Nat} {e : DescEntry}
    (hst : (d.ring (fieldAt e.d 16 2)).st = .active ∨ (d.ring (fieldAt e.d 16 2)).st = .error)
    (hcq : (d.ring (fieldAt e.d 16 2)).cqLog2 = 0 ∨ d.cqNamed (fieldAt e.d 16 2) = false) :
    doRingDestroy d k e = (((d.drainRing (fieldAt e.d 16 2)).wait k (.ringDown (fieldAt e.d 16 2))).settle (fieldAt e.d 16 2)).sweep := by
  have hup : (d.ring (fieldAt e.d 16 2)).st ≠ .disabled ∧ (d.ring (fieldAt e.d 16 2)).st ≠ .draining := by
    obtain h | h := hst <;> simp [h]
  have hkeeps : ¬ ((d.ring (fieldAt e.d 16 2)).st = .disabled ∨
      ((d.ring (fieldAt e.d 16 2)).cqLog2 ≠ 0 ∧ d.cqNamed (fieldAt e.d 16 2) = true)) := by
    rintro (hdown | ⟨hlog2, hnamed⟩)
    · exact hup.1 hdown
    · simp [hcq.resolve_left hlog2] at hnamed
  simp only [doRingDestroy, if_neg hkeeps, if_neg hup.2]

/-- Settles O10: each opcode's check passes, its effect leaves the descriptor table alone, and the descriptor then ends. -/
theorem ringOpcodesTakeEffect : Obligations.RingOpcodesTakeEffect := by
  intro s n x k e hn hears
  have hwf := decide_eq_true hn
  refine ⟨fun h => ?_, fun h hchk hfree hcq => ?_, fun h hown hst hcq => ?_, fun h hown hst => ?_, fun h hchk => ?_, fun h hperiod => ?_⟩
  · exact op_takes_effect_and_completes (fun d => d) h rfl hwf rfl rfl hears rfl rfl rfl
  all_goals obtain ⟨-, -, rfl, -⟩ := ready_facts h
  · exact op_takes_effect_and_completes (fun d => d.openRing _ _) h rfl hwf hchk (doRingCreate_opens hfree hcq) hears
      (openRing_quiet _ _ _) (openRing_out _ _ _) (by rw [openRing_rng])
  · exact op_becomes h rfl hwf hown (doRingDestroy_drains hst hcq)
  · exact op_takes_effect_and_completes (fun d => d.setRing _ _) h rfl hwf hown (if_neg (not_not_intro hst)) hears rfl rfl rfl
  · exact op_takes_effect_and_completes (fun d => d.setVec _ _) h rfl hwf hchk rfl hears rfl rfl rfl
  · exact op_takes_effect_and_completes (fun d => d.modPr e.part _) h rfl hwf (if_neg hperiod) rfl hears rfl rfl rfl

/-! ### Completion rings (R65, R66) -/

/-- Writing a completion uses one slot of its CQ, which stays where it is. -/
theorem writeCompletion_ring (d : Dev) (e : DescEntry) (r : U64) (y : U32) (st : Byte) (final logged : Bool) (n : Nat) :
    (d.writeCompletion e r y st final logged n).ring (d.cqOf e) = { d.ring (d.cqOf e) with
      written := (d.ring (d.cqOf e)).written + 1,
      reserved := if final then (d.ring (d.cqOf e)).reserved - 1 else (d.ring (d.cqOf e)).reserved } := by
  unfold Dev.writeCompletion Dev.useSlot
  rw [countIrq_ring]; dsimp only
  rw [ring_cqMove, ring_setRing_same, ring_of_rng (Dev.emitFor_rng ..)]

theorem writeCompletion_sends (d : Dev) (e : DescEntry) (r : U64) (y : U32) (st : Byte) (final logged : Bool) (n : Nat)
    (h : d.dmaStopped e.part = false) : ∃ new, (d.writeCompletion e r y st final logged n).out = new ++ d.out ∧
      Out.completion (d.completionAddr e) (d.completionFor e r y st final logged n) ∈ new := by
  have hgrows : Grows (d.emitFor e.part (.completion (d.completionAddr e) (d.completionFor e r y st final logged n)))
      (d.writeCompletion e r y st final logged n) := (Grows.of_eq (useSlot_out _ _ _)).trans (countIrq_grows _ _ _)
  obtain ⟨l, hl⟩ := hgrows
  refine ⟨l ++ [_], ?_, List.mem_append_right l (List.mem_singleton.2 rfl)⟩
  rw [hl]
  simp [Dev.emitFor, h, Dev.emit]

theorem phaseOf_eq_not_testBit (w : U32) (log2 : Nat) : phaseOf w log2 = !w.toNat.testBit log2 := by
  rw [phaseOf, Nat.testBit_eq_decide_div_mod_eq]
  obtain h | h := Nat.mod_two_eq_zero_or_one (w.toNat / 2 ^ log2) <;> simp [h]

theorem phaseOf_first_pass {w : U32} {log2 : Nat} (h : w.toNat < 2 ^ log2) : phaseOf w log2 = true := by
  rw [phaseOf_eq_not_testBit, Nat.testBit_lt_two_pow h, Bool.not_false]

/-- A ring's size divides the range of its counts, so PHASE inverts on the wrap of the count too. -/
theorem phaseOf_next_pass (w : U32) {log2 : Nat} (h : log2 < 32) : phaseOf (w + BitVec.ofNat 32 (2 ^ log2)) log2 = !phaseOf w log2 := by
  have hcount : (w + BitVec.ofNat 32 (2 ^ log2)).toNat = (2 ^ log2 + w.toNat) % 2 ^ 32 := by
    rw [BitVec.toNat_add, BitVec.toNat_ofNat, Nat.add_mod_mod, Nat.add_comm]
  rw [phaseOf_eq_not_testBit, phaseOf_eq_not_testBit, hcount, Nat.testBit_mod_two_pow, Nat.testBit_two_pow_add_eq,
    decide_eq_true h, Bool.true_and]

/-- Settles O52: a completion goes to the slot of the written count, which it raises by one, with that count's PHASE. -/
theorem completionsFillTheRingInOrder : Obligations.CompletionsFillTheRingInOrder := by
  refine ⟨fun d e r y st final logged n hreach => ?_, fun w log2 h => ⟨phaseOf_first_pass, phaseOf_next_pass w h⟩⟩
  obtain ⟨new, hout, hmem⟩ := writeCompletion_sends d e r y st final logged n hreach
  dsimp only
  rw [writeCompletion_ring]
  exact ⟨⟨_, new, hout, hmem, rfl, rfl, rfl, rfl, rfl, rfl⟩, rfl, rfl, rfl⟩

/-! ### Writes that the ring engine acts on (R55, R83) -/

theorem hostWrite_wake {d : Dev} {a : Access} {p : Nat} (hp : p < 8) (hup : d.hostUp = true)
    (hadm : d.admits a (RNG_WAKE p) 8 true = true) (v : U64) : d.hostWrite a (RNG_WAKE p) 8 v = d.wake p := by
  obtain ⟨r, hr, hbase⟩ := regAt_wake p hp
  rw [hostWrite_takes ⟨hup, hadm, hr, by rw [hbase]; rfl⟩ v (by rw [hbase]; decide), Dev.writeOne, if_pos hbase, Option.getD_some]

/-- While a partition's TDI is neither locked nor running, an admitted write of a register with base `b` is that register's own. -/
theorem hostWrite_unlocked {d u : Dev} {a : Access} {p off b : Nat} {v : U64} (hup : d.hostUp = true) (hl : d.tdi p ≠ .locked)
    (hrun : d.tdi p ≠ .run) (hadm : d.admits a off 8 true = true) (hreg : ∃ r, regAt off = some (r, p) ∧ r.base = b)
    (hb : b ≠ RNG_EVENT_VEC 0) (hone : ∀ r : RegInfo, r.base = b → d.writeOne off r p v = some u) : d.hostWrite a off 8 v = u := by
  obtain ⟨r, hr, rfl⟩ := hreg
  have htakes : d.Takes a off r p := ⟨hup, hadm, hr, by simp [hl, hrun]⟩
  rw [hostWrite_takes htakes v hb, hone r rfl, Option.getD_some]

theorem writeOne_dbBase {r : RegInfo} (h : r.base = RNG_DB_BASE 0) (d : Dev) (off p : Nat) (v : U64) :
    d.writeOne off r p v = d.writeDbBase p v := by
  simp only [Dev.writeOne, h]; rfl

theorem writeOne_admin {r : RegInfo} {cq : Bool} (h : r.base = if cq then RNG_ADMIN_CQ 0 else RNG_ADMIN_SQ 0) (d : Dev) (off p : Nat)
    (v : U64) : d.writeOne off r p v = d.writeAdmin p cq v := by
  cases cq <;> (simp only [Dev.writeOne, h]; rfl)

theorem writeOne_logRing {r : RegInfo} {telem : Bool} (h : r.base = if telem then RNG_TELEM 0 else RNG_ERRLOG 0) (d : Dev) (off p : Nat)
    (v : U64) : d.writeOne off r p v = d.writeLogRing p telem v := by
  cases telem <;> (simp only [Dev.writeOne, h]; rfl)

theorem regAt_admin (cq : Bool) (p : Nat) (h : p < 8) : ∃ r, regAt (if cq then RNG_ADMIN_CQ p else RNG_ADMIN_SQ p) = some (r, p) ∧
    r.base = if cq then RNG_ADMIN_CQ 0 else RNG_ADMIN_SQ 0 := by
  cases cq with
  | false => exact regAt_adminSq p h
  | true => exact regAt_adminCq p h

theorem regAt_logRing (telem : Bool) (p : Nat) (h : p < 8) : ∃ r, regAt (if telem then RNG_TELEM p else RNG_ERRLOG p) = some (r, p) ∧
    r.base = if telem then RNG_TELEM 0 else RNG_ERRLOG 0 := by
  cases telem with
  | false => exact regAt_errlog p h
  | true => exact regAt_telem p h

/-! ### Scans (R55, R56) -/

theorem startScan_idle {d : Dev} {p : Nat} (hs : d.scans p = true) (hidle : (d.pr p).scan = []) : d.startScan p =
    (d.modPr p fun x => { x with scan := d.scanList p, pending := false, timer := false }).emits
      ((d.scanList p).map fun r => .hostRead p (d.dbAddr p r 0) 64) := by
  simp only [Dev.startScan, hs, hidle]
  rfl

theorem wake_idle {d : Dev} {p : Nat} (hs : d.scans p = true) (hidle : (d.pr p).scan = []) : d.wake p = d.startScan p := by
  simp [Dev.wake, hs, hidle]

theorem wake_scanning {d : Dev} {p : Nat} (hs : d.scans p = true) (hbusy : (d.pr p).scan ≠ []) :
    d.wake p = d.modPr p fun x => { x with pending := true } := by
  simp [Dev.wake, hs, hbusy]

theorem pr_emits (d : Dev) (os : List Out) (p : Nat) : (d.emits os).pr p = d.pr p := rfl

theorem startScan_runs {d : Dev} {p : Nat} (hs : d.scans p = true) (hidle : (d.pr p).scan = []) :
    ((d.startScan p).pr p).scan = d.scanList p ∧ ((d.startScan p).pr p).pending = false ∧ ((d.startScan p).pr p).timer = false ∧
    (d.startScan p).out = ((d.scanList p).map fun r => Out.hostRead p (d.dbAddr p r 0) 64).reverse ++ d.out := by
  rw [startScan_idle hs hidle, pr_emits, pr_modPr, if_pos rfl]
  exact ⟨rfl, rfl, rfl, rfl⟩

/-- Settles O13: on an idle partition both triggers are `startScan`; while a scan runs a WAKE sets the pending one. -/
theorem wakeAndTimerStartAScan : Obligations.WakeAndTimerStartAScan := by
  intro s a p hp hwf hs
  have hwake : (Instr.rngWake a p).wf = true := by simp [Instr.wf, hwf, hp]
  refine ⟨fun hup hadm hidle => ?_, fun hup hadm hbusy => ?_, fun htimer hidle => ?_⟩
  · exact ⟨_, becomes_onDev rfl hwake ((hostWrite_wake hp hup hadm 0).trans (wake_idle hs hidle)), startScan_runs hs hidle⟩
  · exact becomes_onDev rfl hwake ((hostWrite_wake hp hup hadm 0).trans (wake_scanning hs hbusy))
  · exact ⟨_, becomes_onDev rfl (decide_eq_true hp) (if_pos htimer), startScan_runs hs hidle⟩

/-! ### The registers that set up rings (R51, R83, R456) -/

theorem putRng_eq {off : Nat} {r : RegInfo} {i : Nat} (h : regAt off = some (r, i)) (d : Dev) (v : U64) :
    d.putRng off v = d.writeBits off r v := by
  rw [Dev.putRng, h, Option.elim_some]

/-- A register without W1C bits takes the value's bits where it is RW. -/
theorem reg_putRng {off : Nat} {r : RegInfo} {i : Nat} (h : regAt off = some (r, i)) (hw1c : r.w1c = 0) (d : Dev) (v : U64) :
    (d.putRng off v).reg off = (v &&& regRw off) ||| (d.reg off &&& ~~~regRw off) := by
  have hrw : regRw off = r.rw := by rw [regRw, h, Option.elim_some]
  have hkeep : ~~~(v &&& r.w1c) = BitVec.allOnes 64 := by rw [hw1c]; simp
  rw [putRng_eq h, Dev.writeBits, reg_setReg_same, hkeep, BitVec.and_allOnes, hrw, BitVec.or_comm]

/-- A field of RW bits reads back as the value's. -/
theorem getF_putRng {f : Fld} {r : RegInfo} {i : Nat} (h : regAt f.off = some (r, i)) (hlen : f.lo + f.w ≤ 64)
    (hrw : ∀ n < f.w, r.rw.getLsbD (f.lo + n) = true) (d : Dev) (v : U64) : (d.putRng f.off v).getF f = f.of v := by
  refine Nat.eq_of_testBit_eq fun n => ?_
  rw [putRng_eq h, Dev.getF, testBit_fldOf, testBit_fldOf]
  by_cases hn : n < f.w
  · rw [getLsbD_writeBits h d v _ (by omega), if_pos (hrw n hn)]
  · simp [hn]

@[simp] theorem startAdmin_regs (d : Dev) (p : Nat) : (d.startAdmin p).regs = d.regs := by
  unfold Dev.startAdmin; dsimp only
  split
  · rfl
  · exact openRing_regs _ _ _

theorem pr_startAdmin (d : Dev) (p q : Nat) : (d.startAdmin p).pr q = d.pr q := by
  unfold Dev.startAdmin; dsimp only
  split
  · rfl
  · rw [Dev.pr, openRing_rng]; rfl

theorem reg_of_regs {d t : Dev} (h : t.regs = d.regs) (o : Nat) : t.reg o = d.reg o := by
  unfold Dev.reg; rw [h]

/-- The doorbell register holds EN as an RW bit and has no W1C bit (Table 03.16). -/
theorem dbBase_bits (p : Nat) (h : p < 8) : ∃ r, regAt (RNG_DB_BASE p) = some (r, p) ∧ r.w1c = 0 ∧ ∀ n < 1, r.rw.getLsbD (0 + n) = true := by
  interval_cases p <;> exact ⟨_, rfl, rfl, by decide⟩

/-- LOG2 of a log ring's register is RW (Table 03.18). -/
theorem logRing_log2_rw (telem : Bool) (p : Nat) (h : p < 8) : ∃ r, regAt (if telem then RNG_TELEM p else RNG_ERRLOG p) = some (r, p) ∧
    ∀ n < 5, r.rw.getLsbD (0 + n) = true := by
  cases telem <;> interval_cases p <;> exact ⟨_, rfl, by decide⟩

/-- While EN is 0 the doorbell register takes any value; setting EN starts the timer. -/
theorem writeDbBase_stopped {d : Dev} {p : Nat} (hp : p < 8) (hen : d.getF (RNG_DB_BASE_EN p) = 0) (v : U64) :
    ∃ t, d.writeDbBase p v = some t ∧
      t.reg (RNG_DB_BASE p) = (v &&& regRw (RNG_DB_BASE p)) ||| (d.reg (RNG_DB_BASE p) &&& ~~~regRw (RNG_DB_BASE p)) ∧
      ((RNG_DB_BASE_EN p).of v = 1 → (t.pr p).timer = true) := by
  obtain ⟨r, hr, hw1c, hrw⟩ := dbBase_bits p hp
  have hnew : (d.putRng (RNG_DB_BASE p) v).getF (RNG_DB_BASE_EN p) = (RNG_DB_BASE_EN p).of v :=
    getF_putRng (f := RNG_DB_BASE_EN p) hr (by decide : 0 + 1 ≤ 64) hrw d v
  have hreg := reg_putRng hr hw1c d v
  simp only [Dev.writeDbBase, hen, hnew, Nat.zero_ne_one, false_and, if_false, if_true]
  by_cases hoff : 0 = (RNG_DB_BASE_EN p).of v
  · exact ⟨_, if_pos hoff, hreg, fun hon => absurd (hoff.trans hon) Nat.zero_ne_one⟩
  · refine ⟨_, if_neg hoff, (reg_of_regs (startAdmin_regs _ p) _).trans hreg, fun _ => ?_⟩
    rw [pr_startAdmin, pr_modPr, if_pos rfl]

theorem log2Ok_ne_zero {n : Nat} (h : log2Ok n = true) : n ≠ 0 := by
  have := of_decide_eq_true h
  omega

/-- A DISABLED admin ring takes a valid LOG2, and starts once nothing else is missing. -/
theorem writeAdmin_disabled {d : Dev} {p : Nat} {cq : Bool} {v : U64} (hlog2 : log2Ok (v.toNat % 32) = true)
    (hst : (d.ring (d.adminRing p)).st = .disabled) :
    d.writeAdmin p cq v = some ((d.putRng (if cq then RNG_ADMIN_CQ p else RNG_ADMIN_SQ p) v).startAdmin p) := by
  simp [Dev.writeAdmin, log2Ok_ne_zero hlog2, hlog2, hst]

theorem log2_of (telem : Bool) (p : Nat) (v : U64) : (if telem then RNG_TELEM_LOG2 p else RNG_ERRLOG_LOG2 p).of v = v.toNat % 32 := by
  cases telem <;> simp [Fld.of, RNG_TELEM_LOG2, RNG_ERRLOG_LOG2]

theorem getF_putRng_log2 (telem : Bool) {p : Nat} (hp : p < 8) (d : Dev) (v : U64) :
    (d.putRng (if telem then RNG_TELEM p else RNG_ERRLOG p) v).getF (if telem then RNG_TELEM_LOG2 p else RNG_ERRLOG_LOG2 p) =
      v.toNat % 32 := by
  obtain ⟨r, hr, hrw⟩ := logRing_log2_rw telem p hp
  rw [← log2_of telem p v]
  cases telem with
  | false => exact getF_putRng (f := RNG_ERRLOG_LOG2 p) hr (by decide : 0 + 5 ≤ 64) hrw d v
  | true => exact getF_putRng (f := RNG_TELEM_LOG2 p) hr (by decide : 0 + 5 ≤ 64) hrw d v

/-- The write that turns a log ring on: its LOG2 is the value's, and the ring starts from counts of 0. -/
theorem hostWrite_logRing (telem : Bool) {d : Dev} {a : Access} {p : Nat} {v : U64} (hp : p < 8) (hup : d.hostUp = true)
    (hl : d.tdi p ≠ .locked) (hrun : d.tdi p ≠ .run) (hadm : d.admits a (if telem then RNG_TELEM p else RNG_ERRLOG p) 8 true = true)
    (hlog2 : log2Ok (v.toNat % 32) = true) (hoff : d.getF (if telem then RNG_TELEM_LOG2 p else RNG_ERRLOG_LOG2 p) = 0) :
    let t := d.hostWrite a (if telem then RNG_TELEM p else RNG_ERRLOG p) 8 v
    (if telem then (t.pr p).telem else (t.pr p).errlog) = {} ∧
      t.getF (if telem then RNG_TELEM_LOG2 p else RNG_ERRLOG_LOG2 p) = v.toNat % 32 := by
  have hone : d.writeLogRing p telem v = some ((d.putRng (if telem then RNG_TELEM p else RNG_ERRLOG p) v).modPr p fun x =>
      if telem then { x with telem := {} } else { x with errlog := {} }) := by
    simp [Dev.writeLogRing, hlog2, hoff]
  dsimp only
  rw [hostWrite_unlocked hup hl hrun hadm (regAt_logRing telem p hp) (by cases telem <;> decide)
    fun r hbase => (writeOne_logRing hbase _ _ _ _).trans hone]
  refine ⟨?_, getF_putRng_log2 telem hp d v⟩
  rw [pr_modPr, if_pos rfl]
  cases telem <;> rfl

/-- Settles O14: each write is admitted, and is its register's own. -/
theorem ringRegistersSetUpRings : Obligations.RingRegistersSetUpRings := by
  intro s a p v hp hwf hup hl hrun
  have hok : (a.wf && decide (p < 8)) = true := by simp [hwf, hp]
  refine ⟨fun hadm hen => ?_, fun cq hadm hlog2 hst => ?_, fun hadm hlog2 hoff => ?_, fun hadm hlog2 hoff => ?_⟩
  · obtain ⟨t, ht, hreg, htimer⟩ := writeDbBase_stopped hp hen v
    have hwrite := hostWrite_unlocked hup hl hrun hadm (regAt_dbBase p hp) (by decide) fun r hbase => (writeOne_dbBase hbase _ _ _ _).trans ht
    exact ⟨_, becomes_onDev rfl hok hwrite, hreg, htimer⟩
  · exact becomes_onDev rfl hok (hostWrite_unlocked hup hl hrun hadm (regAt_admin cq p hp) (by cases cq <;> decide)
      fun r hbase => (writeOne_admin hbase _ _ _ _).trans (writeAdmin_disabled hlog2 hst))
  · exact ⟨_, becomes_onDev rfl hok rfl, hostWrite_logRing false hp hup hl hrun hadm hlog2 hoff⟩
  · exact ⟨_, becomes_onDev rfl hok rfl, hostWrite_logRing true hp hup hl hrun hadm hlog2 hoff⟩

/-! ### What the host's answers and the ring engine's own events do (R56, R57, R72, R73, R457; 17 R444) -/

/-- An interrupt of a vector whose host is reached: a message, or the pending bit while it is masked. -/
theorem sendIrq_reached {d : Dev} {v : Nat} (hreach : (d.vecOwner v).any d.dmaStopped = false) : d.sendIrq v = { d with
    rng := { d.rng with vec := tput d.rng.vec v { d.vec v with count := 0, timer := false, pend := (d.vec v).pend || (d.vec v).mask } },
    out := if (d.vec v).mask then d.out else .msi v :: d.out } := by
  have hreach' (x : Vec) : ((d.setVec v x).vecOwner v).any (d.setVec v x).dmaStopped = false := hreach
  simp only [Dev.sendIrq, hreach', Bool.or_false]
  cases (d.vec v).mask <;> rfl

/-- A TDI that is UNLOCKED or in ERROR stops the host accesses of its partition just when it is in ERROR (13 R357). -/
theorem dmaStopped_eq_not_unlocked {d : Dev} {p : Nat} (h : d.tdi p = .unlocked ∨ d.tdi p = .error) :
    (!d.dmaStopped p) = decide (d.tdi p = .unlocked) := by
  unfold Dev.tdi Dev.dmaStopped at *
  cases htdi : tget d.sec.tdi p with
  | none => rfl
  | some x =>
    rw [htdi] at h
    obtain h | h := h <;> (cases h; rfl)

/-- A vector whose Mask bit is cleared: a pending message goes out unless its partition's TDI is in ERROR. -/
theorem unmask_eq {d : Dev} {v p : Nat} (hown : d.vecOwner v = some p) (htdi : d.tdi p = .unlocked ∨ d.tdi p = .error) :
    d.unmask v = { d with
      rng := { d.rng with vec := tput d.rng.vec v { d.vec v with mask := false, pend := false } },
      out := if (d.vec v).pend = true ∧ d.tdi p = .unlocked then .msi v :: d.out else d.out } := by
  have hreach (x : Vec) : (!((d.setVec v x).vecOwner v).any (d.setVec v x).dmaStopped) = decide (d.tdi p = .unlocked) := by
    have hown' : (d.setVec v x).vecOwner v = some p := hown
    rw [hown', Option.any_some]
    exact dmaStopped_eq_not_unlocked htdi
  simp only [Dev.unmask, hreach, Bool.and_eq_true, decide_eq_true_eq]
  split <;> rfl

/-- A buffered record is written while the error log has room. -/
theorem drainLog_room {d : Dev} {p : Nat} {r : FaultRec} {rs : List FaultRec} (n : Nat) (hbuf : (d.pr p).buffer = r :: rs)
    (hroom : (d.pr p).errlog.room (d.getF (RNG_ERRLOG_LOG2 p)) = true) :
    d.drainLog p (n + 1) = ((d.modPr p fun y => { y with buffer := rs }).writeFault p r).drainLog p n := by
  simp only [Dev.drainLog, hbuf, hroom, if_true]

/-- Data for a descriptor that waits for it goes to its opcode. -/
theorem exec_hostReadDataArrival {s : State} {k : Nat} {e : DescEntry} (x : HostRead) (he : tget s.dev.rng.descs k = some e)
    (hreads : e.reads = true) : Becomes (.hostReadDataArrival k x) s
      (if 0x62 ≤ e.op.toNat ∧ e.op.toNat ≤ 0x64 then s.dev.reedArrived k e x.bytes x.fail
       else match x.fail with
        | none => (s.dev.modDesc k fun y => { y with data := x.bytes, failAt := none }).dataArrived k e x
        | some a => (s.dev.modDesc k fun y => { y with data := x.bytes, failAt := some a }).dataFailed k e x a) := by
  change execHostReadDataArrival k x s = _
  rw [execHostReadDataArrival, guarded_wf _ _ rfl, onDev_next]
  simp only [he, hreads, Bool.not_true, Bool.false_eq_true, if_false]
  by_cases hreed : 0x62 ≤ e.op.toNat ∧ e.op.toNat ≤ 0x64
  · rw [if_pos hreed, if_pos hreed]
  · rw [if_neg hreed, if_neg hreed]
    cases hfail : x.fail <;> rfl

/-- Settles O16: each row's guard holds under the clause's hypotheses, and its effect is the clause's. -/
theorem hostEventsTakeEffect : Obligations.HostEventsTakeEffect := by
  intro s
  refine ⟨fun p j w hp hscan => ?_, fun n w hn hissued => ⟨?_, ?_⟩, fun p r rs hp hbuf hroom => ?_, fun v hv hreach => ⟨?_, ?_⟩,
    fun a v p hwf hv hown hup hex hpart hprim htdi => ?_, fun k x e he hreads => ?_, fun fn p hwf hpart hup hex hl hrun => ?_⟩
  · have hread : ¬ (!(s.dev.pr p).scan.contains j) = true := by rw [hscan]; decide
    exact ⟨becomes_onDev rfl (decide_eq_true hp) (if_neg hread), becomes_onDev rfl (decide_eq_true hp) (if_neg hread)⟩
  · exact becomes_onDev rfl (decide_eq_true hn) (if_neg hissued)
  · exact becomes_onDev rfl (decide_eq_true hn) (if_neg hissued)
  · exact becomes_onDev rfl (decide_eq_true hp) (drainLog_room 1023 hbuf hroom)
  · exact fun hcount hmod => becomes_onDev rfl (decide_eq_true hv) ((if_pos ⟨hcount, hmod⟩).trans (sendIrq_reached hreach))
  · exact fun htimer => becomes_onDev rfl (decide_eq_true hv) ((if_pos htimer).trans (sendIrq_reached hreach))
  · refine becomes_onDev rfl (by simp [Instr.wf, hwf, hv]) ?_
    have hfree : ¬ (s.dev.tdi p = .locked ∨ s.dev.tdi p = .run) := by
      obtain h | h := htdi <;> simp [h]
    simp only [hown, hup, hex, hpart, hprim, hfree, Bool.not_true, Bool.or_self, bne_self_eq_false, Bool.false_eq_true, if_false]
    exact unmask_eq hown htdi
  · exact exec_hostReadDataArrival x he hreads
  · refine becomes_onDev rfl hwf ?_
    simp only [hpart, hup, hex, hl, hrun, or_self, if_false, Bool.not_true, Bool.or_self, Bool.false_eq_true]

/-! ### Descriptors that start, and STATE_READ (R57, R63, R64) -/

theorem startOne_held {d : Dev} {k : Nat} {e : DescEntry} {row : OpRow} (he : tget d.rng.descs k = some e) (hst : e.st = .held)
    (hmay : d.mayStart k e = true) (hop : opRow e.op = some row) : d.startOne k = d.modDesc k fun e => { e with st := .started } := by
  simp only [Dev.startOne, he, hst, hmay, hop, decide_true, Bool.and_self, if_true]

/-- A held descriptor that is alone in the table may start. -/
theorem sweep_single {d : Dev} {k : Nat} {e : DescEntry} (hd : d.rng.descs = [(k, e)]) (hst : e.st = .held)
    (hop : (opRow e.op).isSome = true) : d.sweep = d.modDesc k fun e => { e with st := .started } := by
  obtain ⟨row, hrow⟩ := Option.isSome_iff_exists.1 hop
  have hget : tget d.rng.descs k = some e := by simp [hd, tget]
  have hmay : d.mayStart k e = true := by simp [Dev.mayStart, hd]
  simp only [Dev.sweep, hd, List.map_cons, List.map_nil, List.foldl_cons, List.foldl_nil]
  exact startOne_held hget hst hmay hrow

/-- A ring without a policer lets its descriptors pass. -/
theorem police_none {d : Dev} {k : Nat} {e : DescEntry} (he : tget d.rng.descs k = some e) (hp : (d.ring e.ring).policer = 0xFFFF) :
    d.police k = d := by
  simp only [Dev.police, he, hp, decide_true, Bool.or_true, if_true]

/-- The table's entry for a descriptor that ring `n` of partition `p` has just copied (R57). -/
def Dev.copiedEntry (d : Dev) (n p : Nat) (op : Byte) (x : Desc) : DescEntry :=
  { ring := n, part := p, addr := (d.ring n).slotAddr (d.ring n).fetched.toNat, op := op, d := x }

/-- The device that has copied and counted a descriptor, before it is policed. -/
def Dev.copied (d : Dev) (n p : Nat) (op : Byte) (x : Desc) : Dev :=
  let t := (d.setRing n { d.ring n with fetched := (d.ring n).fetched + 1, issued := (d.ring n).issued - 1 }).setReg (RNG_FETCH_COUNT p)
    (d.reg (RNG_FETCH_COUNT p) + 1)
  { t with rng := { t.rng with descs := tput d.rng.descs d.rng.next (d.copiedEntry n p op x), next := d.rng.next + 1 } }

theorem arrive_eq_copied {d : Dev} {n p : Nat} (hown : d.ringOwner n = some p) (op : Byte) (x : Desc) :
    (d.arrive n op x).1 = ((d.copied n p op x).police d.rng.next).sweep := by
  simp only [Dev.arrive, hown]
  rfl

theorem ring_copied (d : Dev) (n p : Nat) (op : Byte) (x : Desc) : (d.copied n p op x).ring n =
    { d.ring n with fetched := (d.ring n).fetched + 1, issued := (d.ring n).issued - 1 } :=
  ring_setRing_same d n _

theorem reg_copied (d : Dev) (n p : Nat) (op : Byte) (x : Desc) :
    (d.copied n p op x).reg (RNG_FETCH_COUNT p) = d.reg (RNG_FETCH_COUNT p) + 1 :=
  reg_setReg_same (d.setRing n _) _ _

/-- A descriptor that arrives in an empty table, on a ring without a policer, starts. -/
theorem arrive_alone {d : Dev} {n p : Nat} {op : Byte} (x : Desc) (hown : d.ringOwner n = some p) (hempty : d.rng.descs = [])
    (hpol : (d.ring n).policer = 0xFFFF) (hop : (opRow op).isSome = true) : (d.arrive n op x).1 =
      (d.copied n p op x).modDesc d.rng.next fun e => { e with st := .started } := by
  have hdescs : (d.copied n p op x).rng.descs = [(d.rng.next, d.copiedEntry n p op x)] := by
    simp only [Dev.copied, hempty, tput]
  have hget : tget (d.copied n p op x).rng.descs d.rng.next = some (d.copiedEntry n p op x) := by
    simp only [hdescs, tget, if_true]
  have hnone : ((d.copied n p op x).ring (d.copiedEntry n p op x).ring).policer = 0xFFFF := by
    rw [Dev.copiedEntry, ring_copied]
    exact hpol
  rw [arrive_eq_copied hown, police_none hget hnone, sweep_single hdescs rfl hop]

theorem descs_modDesc_copied {d : Dev} (hempty : d.rng.descs = []) (n p : Nat) (op : Byte) (x : Desc) (g : DescEntry → DescEntry) :
    ((d.copied n p op x).modDesc d.rng.next g).rng.descs = [(d.rng.next, g (d.copiedEntry n p op x))] := by
  simp [Dev.modDesc, Dev.copied, hempty, tput, tupd, tget]

theorem doStateRead_waits {d : Dev} {k : Nat} {e : DescEntry} (h : fieldAt e.d 25 1 % 2 = 1) : doStateRead d k e = d.wait k .boundaryRead :=
  if_pos h

theorem doStateRead_at_once {d : Dev} {k : Nat} {e : DescEntry} (h : fieldAt e.d 25 1 % 2 = 0) :
    doStateRead d k e = (d.stateWrite e).okOpen k :=
  if_neg (by omega)

/-- Settles O17: STATE_READ by its AT_BOUNDARY bit; a descriptor that is alone starts as it arrives. -/
theorem descriptorsStartAndReadState : Obligations.DescriptorsStartAndReadState := by
  intro s
  refine ⟨fun n x k e hn h hchk => ?_, fun n p w hn hown hissued hempty hpol hop => ?_⟩
  · obtain ⟨-, -, rfl, -⟩ := ready_facts h
    exact ⟨fun hlater => op_becomes h rfl (decide_eq_true hn) hchk (doStateRead_waits hlater),
      fun hnow => op_becomes h rfl (decide_eq_true hn) hchk (doStateRead_at_once hnow)⟩
  · have hstarts := arrive_alone (decodeDesc w).2 hown hempty hpol hop
    have hring := ring_copied s.dev n p (decodeDesc w).1 (decodeDesc w).2
    exact ⟨_, becomes_onDev rfl (decide_eq_true hn) ((if_neg hissued).trans hstarts), descs_modDesc_copied hempty _ _ _ _ _,
      congrArg Ring.fetched hring, congrArg Ring.issued hring, reg_copied s.dev n p (decodeDesc w).1 (decodeDesc w).2⟩

end Sys2Proof.Machine
end

section
/-! SUPPORT and CERTIFICATES. 04_sessions_tussock_yoyo.md: handles (R84; 05 R128) and the session opcodes (R87, R93–R101, R461). -/

namespace Sys2Proof.Machine

/-! ### Handles (R84; 05 R128) -/

theorem toNat_mkHandle {dev part gen num : Nat} (hdev : dev < 4096) (hpart : part < 8) (hgen : gen < 2 ^ 27) (hnum : num < 2 ^ 22) :
    (mkHandle dev part gen num).toNat = dev * 2 ^ 52 + part * 2 ^ 49 + gen * 2 ^ 22 + num := by
  rw [mkHandle, BitVec.toNat_ofNat, Nat.mod_eq_of_lt hgen, Nat.mod_eq_of_lt hnum, Nat.mod_eq_of_lt (by omega)]

theorem toNat_mkRegionHandle {dev part gen num : Nat} (hdev : dev < 4096) (hpart : part < 8) (hgen : gen < 2 ^ 33)
    (hnum : num < 2 ^ 16) : (mkRegionHandle dev part gen num).toNat = dev * 2 ^ 52 + part * 2 ^ 49 + gen * 2 ^ 16 + num := by
  rw [mkRegionHandle, BitVec.toNat_ofNat, Nat.mod_eq_of_lt hgen, Nat.mod_eq_of_lt hnum, Nat.mod_eq_of_lt (by omega)]

/-- Settles O9: no part of a handle reaches into the next, so each reading divides out the parts below its own. -/
theorem handlesRoundTrip : Obligations.HandlesRoundTrip := by
  intro dev part gen num hdev hpart
  refine ⟨fun hgen hnum => ?_, fun hgen hnum => ?_⟩
  · have hval := toNat_mkHandle hdev hpart hgen hnum
    unfold hDevice hPart hGen hLocal
    rw [hval]
    omega
  · have hval := toNat_mkRegionHandle hdev hpart hgen hnum
    unfold hDevice hPart hRegionGen hRegion
    rw [hval]
    omega

/-! ### SESSION_OPEN (R95) -/

/-- The session that a SESSION_OPEN puts into slot `l`, its history in region `r`. -/
def Dev.openedSession (d : Dev) (x : Desc) (l : Nat) (r : Region) : Session :=
  { gen := nextGen (d.ses l).gen 0x7FFFFFF, st := .idle, pin := (fieldAt x 18 1).testBit 0, cls := fieldAt x 16 1,
    prio := fieldAt x 17 1 % 4, keyId := BitVec.ofNat 16 (fieldAt x 20 2), histAddr := d.tileAddr r 0, stateTime := d.clock.now,
    memIndex := BitVec.ofNat 32 (fieldAt x 32 4), histReg := hRegion (BitVec.ofNat 64 (fieldAt x 24 8)) }

/-- The device in which a SESSION_OPEN of partition `p` has taken slot `l`, which leaves the numbers `nums`. -/
def Dev.sessionOpened (d : Dev) (p : Nat) (x : Desc) (l : Nat) (nums : Numbers) (r : Region) : Dev :=
  let t := d.tussockAccess.setSes l (d.openedSession x l r)
  let t := { t with tus := { t.tus with numbers := tput t.tus.numbers p nums } }
  let t := if fieldAt x 32 4 = 0xFFFFFFFF then t else t.nameIndex (fieldAt x 32 4) true
  t.modTok p fun z => { z with gens := tput z.gens l {} }

/-- A slot and a history region are there, and the key is current: the slot is taken and its handle answered. -/
theorem doSessionOpen_opens {d : Dev} (k : Nat) {e : DescEntry} {l : Nat} {nums : Numbers} {r : Region}
    (hkey : (d.storeKey e.part (fieldAt e.d 20 2)).isSome = true)
    (htake : (tgetD d.tus.numbers e.part {}).take (d.getF (TUS_PART_FIRST e.part)) (d.getF (TUS_PART_COUNT e.part)) = some (l, nums))
    (hreg : d.region (hRegion (BitVec.ofNat 64 (fieldAt e.d 24 8))) = some r) :
    doSessionOpen d k e =
      (d.sessionOpened e.part e.d l nums r).ok k (mkHandle d.id e.part (nextGen (d.ses l).gen 0x7FFFFFF) l) 0 := by
  simp only [doSessionOpen, Option.isNone_eq_false_iff.2 hkey, htake, hreg]
  rfl

/-! ### Opcodes of an open session (R87, R93, R97, R98, R101, R461) -/

section

/- The session `y` in slot `loc` that descriptor `e` targets, and the device `t` once its descriptor has been looked up (R87). -/
variable {d t : Dev} {k loc : Nat} {e : DescEntry} {y : Session} (ht : d.tussockAccess = t) (hloc : hLocal e.d.target = loc)
  (hy : d.ses loc = y)

include ht hloc hy

/-- An APPEND brings work to its session; its bytes are read at once unless another one is being read or tokenised. -/
theorem doAppend_brings_work (hten : t.tenantGone e.part y.keyId.toNat = false) (hadm : y.admitsAppend = true)
    (hkey : (t.key e.part y.keyId.toNat).isSome = true) (hbound : (t.tokp e.part).bound.isSome = true)
    (hmax : t.classMax e.part y.cls ≠ 0) (hvocab : (t.vocabOf e.part y.cls).isSome = true) :
    doAppend d k e =
      if t.appending loc then (t.workArrives loc).wait k (.tokenise loc) else (t.workArrives loc).readAppend k := by
  simp [doAppend, ht, hloc, hy, hten, hadm, hmax, Option.isNone_eq_false_iff.2 hkey, Option.isNone_eq_false_iff.2 hbound,
    Option.isNone_eq_false_iff.2 hvocab]

theorem doStepRequest_arms_generation (hten : t.tenantGone e.part y.keyId.toNat = false) (hwin : (t.window e.part).failed = false)
    (hgen : y.genArmed = false) (hwait : y.waitArmed = false) (hpos : y.positions + y.staged ≠ 0)
    (hkey : (t.key e.part y.keyId.toNat).isSome = true) (hbound : (t.tokp e.part).bound.isSome = true)
    (hst : y.st = .idle ∨ y.st = .parked ∨ y.st = .parking ∨ y.st = .resident) :
    doStepRequest d k e = ((t.armGen loc (genOf k e)).workArrives loc).wait k (.generation loc) := by
  have hstate : (y.st == .idle || y.st == .parked || y.st == .parking || y.st == .resident) = true := by simpa [or_assoc] using hst
  simp only [doStepRequest, ht, hloc, hy, hten, hwin, hgen, hwait, hstate, beq_false_of_ne hpos, Option.isNone_eq_false_iff.2 hkey,
    Option.isNone_eq_false_iff.2 hbound, Bool.or_self, Bool.not_true, Bool.false_eq_true, if_false]

theorem doToolWait_waits (hten : t.tenantGone e.part y.keyId.toNat = false) (hwin : (t.window e.part).failed = false)
    (hgen : y.genArmed = false) (hwait : y.waitArmed = false) (hbound : (t.tokp e.part).bound.isSome = true)
    (hst : y.st = .idle ∨ y.st = .resident) :
    doToolWait d k e = ((t.enter loc .waiting).modSes loc fun z =>
      { z with waitArmed := true, armed := some (genOf k e), linger := false, ended := false, fromIdle := !z.inBatch }).wait k
        (.generation loc) := by
  have hstate : (y.st == .idle || y.st == .resident) = true := by simpa using hst
  simp only [doToolWait, ht, hloc, hy, hten, hwin, hgen, hwait, hstate, Option.isNone_eq_false_iff.2 hbound, Bool.or_self, Bool.not_true,
    Bool.false_eq_true, if_false]

theorem doPark_starts_parking (hten : t.tenantGone e.part y.keyId.toNat = false) (hpin : y.pin = false)
    (hst : y.st = .idle ∨ (y.st = .waiting ∧ y.inBatch = false)) :
    doPark d k e = (t.toParking loc (if fieldAt e.d 16 1 = 0 then d.defaultDepth e.part else fieldAt e.d 16 1)
      (fieldAt e.d 17 1)).wait k (.park loc) := by
  have hstate : (decide (y.st = .idle) || decide (y.st = .waiting) && !y.inBatch) = true := by simpa using hst
  simp only [doPark, ht, hloc, hy, hten, hpin, hstate, Bool.false_eq_true, if_false, if_true]

theorem doRevive_brings_work (hten : t.tenantGone e.part y.keyId.toNat = false)
    (hkey : (t.key e.part y.keyId.toNat).isSome = true) (hst : y.st = .parked) :
    doRevive d k e =
      ((if (fieldAt e.d 16 1).testBit 0 then (t.dropAll loc).1 else t).workArrives loc).wait k (.revive loc) := by
  simp only [doRevive, ht, hloc, hy, hten, hst, Option.isNone_eq_false_iff.2 hkey, Bool.false_eq_true, if_false]

/-- A session without a generation or other descriptors starts to close: its pages go now, or at the boundary if it is in the batch. -/
theorem doClose_starts_closing (hst : y.st ≠ .closing) (hgen : y.genArmed = false) (hwait : y.waitArmed = false)
    (halone : (t.sesDescs loc).filter (fun j => j != k) = []) :
    doClose d k e = if y.inBatch then (t.enter loc .closing).wait k (.close loc)
      else (((t.enter loc .closing).closePages loc).1.modDesc k fun z =>
        { z with detail := BitVec.ofNat 32 ((t.enter loc .closing).closePages loc).2 }).wait k (.close loc) := by
  simp only [doClose, ht, hloc, hy, if_neg hst, hgen, hwait, halone, List.foldl_nil, Bool.or_self, Bool.false_eq_true, if_false]

end

/-- Settles O18: each opcode's checks pass, and its effect is the clause's. -/
theorem sessionOpcodesTakeEffect : Obligations.SessionOpcodesTakeEffect := by
  intro s n x k e hn d loc y
  have hwf := decide_eq_true hn
  refine ⟨fun l nums r h hchk hkey htake hreg => ?_, fun h hchk hten hadm hkey hbound hmax hvocab => ?_,
    fun h hchk hten hwin hgen hwait hpos hkey hbound hst => ?_, fun h hchk hten hwin hgen hwait hbound hst => ?_,
    fun h hses htier hpeat hten hpin hst => ?_, fun h hses hten hkey hst => ?_, fun h hses hst hgen hwait halone => ?_⟩
  all_goals obtain ⟨-, -, rfl, -⟩ := ready_facts h
  · exact op_becomes h rfl hwf hchk (doSessionOpen_opens k hkey htake hreg)
  · exact op_becomes h rfl hwf hchk (doAppend_brings_work rfl rfl rfl hten hadm hkey hbound hmax hvocab)
  · exact op_becomes h rfl hwf hchk (doStepRequest_arms_generation rfl rfl rfl hten hwin hgen hwait hpos hkey hbound hst)
  · exact op_becomes h rfl hwf hchk (doToolWait_waits rfl rfl rfl hten hwin hgen hwait hbound hst)
  · exact op_becomes h rfl hwf ((if_neg (not_not_intro hses)).trans (if_neg (by omega))) (doPark_starts_parking rfl rfl rfl hten hpin hst)
  · exact op_becomes h rfl hwf hses (doRevive_brings_work rfl rfl rfl hten hkey hst)
  · exact op_becomes h rfl hwf hses (doClose_starts_closing rfl rfl rfl hst hgen hwait halone)

end Sys2Proof.Machine
end

section
/-! SUPPORT and CERTIFICATES. 05_state_tiers_peat.md: opcodes that work through a range of tiles (R130, R133, R134), and the region opcodes
(R126–R136, R148). -/

namespace Sys2Proof.Machine

/-! ### Checks and regions -/

theorem fieldAt_lt (x : Desc) (off size : Nat) : fieldAt x off size < 2 ^ (8 * size) := Nat.mod_lt _ (by positivity)

theorem chkRegion_eq_ok {d : Dev} {p : Nat} {x : Desc} {ok : Region → Bool} {r : Region} (hst : d.regionStatus p x.target = stOk)
    (hr : d.region (targetRegion x) = some r) (hok : ok r = true) : chkRegion d p x ok = stOk := by
  rw [chkRegion, if_neg (not_not_intro hst), hr]
  exact if_pos hok

/-- A region check that passes has found the opcode's fields in order. -/
theorem ok_of_chkRegion {d : Dev} {p : Nat} {x : Desc} {ok : Region → Bool} {r : Region} (hchk : chkRegion d p x ok = stOk)
    (hr : d.region (targetRegion x) = some r) : ok r = true := by
  by_contra hbad
  have hst : d.regionStatus p x.target = stOk := by
    by_contra hst
    rw [chkRegion, if_pos hst] at hchk
    exact hst hchk
  rw [chkRegion, if_neg (not_not_intro hst), hr] at hchk
  simp only [hbad] at hchk
  exact absurd hchk (by decide)

theorem rangeOk_of_chkRegionMove {d : Dev} {p : Nat} {x : Desc} {r : Region} (hchk : chkRegionMove d p x = stOk)
    (hr : d.region (targetRegion x) = some r) : rangeOk r (fieldAt x 16 4) (fieldAt x 20 4) = true := by
  have hreg : chkRegion d p x (fun r => rangeOk r (fieldAt x 16 4) (fieldAt x 20 4) &&
      decide (1 ≤ fieldAt x 24 1 ∧ fieldAt x 24 1 ≤ 3)) = stOk := by
    by_contra hne
    simp only [chkRegionMove, ne_eq, hne, not_false_eq_true, if_true] at hchk
  exact (Bool.and_eq_true_iff.1 (ok_of_chkRegion hreg hr)).1

theorem rangeCount_le_tiles {r : Region} {first count : Nat} (h : rangeOk r first count = true) : rangeCount r first count ≤ r.tiles :=
  le_trans (Nat.le_add_left _ _) (of_decide_eq_true h).2

/-- The effect of an opcode on the region that it names, whose tenant is there. -/
theorem withRegion_eq {d : Dev} {k : Nat} {e : DescEntry} {r : Region} (hr : d.region (targetRegion e.d) = some r)
    (hten : d.tenantGone e.part r.keyId.toNat = false) (f : Dev → Nat → Region → Dev) :
    d.withRegion k e f = f d (targetRegion e.d) r := by
  simp only [Dev.withRegion, hr, hten, Bool.false_eq_true, if_false]

theorem Quiet.region_eq {d t : Dev} (h : Quiet d t) (n : Nat) : t.region n = d.region n := by
  have htier : t.tier = d.tier := (congrArg Dev.tier h : t.rest.tier = d.rest.tier)
  unfold Dev.region; rw [htier]

theorem Quiet.tileInFlight_eq {d t : Dev} (h : Quiet d t) (n i : Nat) : t.tileInFlight n i = d.tileInFlight n i := by
  have hfab : t.fab = d.fab := (congrArg Dev.fab h : t.rest.fab = d.rest.fab)
  unfold Dev.tileInFlight Dev.reqCount; rw [hfab]

/-! ### Opcodes that work through a range of tiles -/

/-- From `d` on, the opcode of descriptor `k`, whose entry was `e`, has brought its running RESULT to `v` and its running DETAIL to `y`, and
has done nothing but that and to send. -/
def Dev.InRun (d : Dev) (k : Nat) (e : DescEntry) (v : U64) (y : U32) (t : Dev) : Prop :=
  Quiet d t ∧ Grows d t ∧ ∃ bs, tget t.rng.descs k = some { e with result := v, detail := y, data := bs }

theorem Dev.InRun.start {d : Dev} {k : Nat} {e : DescEntry} (he : tget d.rng.descs k = some e) : d.InRun k e e.result e.detail d :=
  ⟨Quiet.refl d, Grows.refl d, e.data, he⟩

/-- A run whose last tile is done ends with OK. -/
theorem Dev.InRun.ok_completes {d t : Dev} {k : Nat} {e : DescEntry} {v : U64} {y : U32} (h : d.InRun k e v y t) (hears : d.Hears e) :
    d.Completes (t.ok k v 0) e stOk v 0 ∧ Quiet d (t.ok k v 0) := by
  obtain ⟨hquiet, hgrows, bs, hget⟩ := h
  exact ⟨(Machine.ok_completes t k _ v 0 hget ⟨(hquiet.dmaStopped_eq _).trans hears.1, hears.2⟩).after hgrows,
    hquiet.trans (ok_quiet t k v 0)⟩

/-- A tile is done: what was sent for it is sent, and the running counts move on. -/
theorem Dev.InRun.next {d t u : Dev} {k : Nat} {e : DescEntry} {v v' : U64} {y y' : U32} {f : DescEntry → DescEntry}
    (h : d.InRun k e v y t) (hquiet : Quiet t u) (hgrows : Grows t u) (hdescs : u.rng.descs = t.rng.descs)
    (hf : ∀ bs, ∃ bs', f { e with result := v, detail := y, data := bs } = { e with result := v', detail := y', data := bs' }) :
    d.InRun k e v' y' (u.modDesc k f) := by
  obtain ⟨hq, hg, bs, hget⟩ := h
  obtain ⟨bs', hbs⟩ := hf bs
  refine ⟨hq.trans (hquiet.trans (modDesc_quiet u k f)), hg.trans (hgrows.trans (.of_eq rfl)), bs', ?_⟩
  change tget (tupd u.rng.descs k f) k = _
  rw [tget_tupd, if_pos rfl, hdescs, hget, Option.map_some, hbs]

section

/- A run whose every call handles the next of `count` tiles of descriptor `k` until all are done; with `i` tiles done, the running RESULT and
DETAIL are `v i` and `y i`. -/
variable {run : Nat → Dev → Dev} {d : Dev} {k : Nat} {e : DescEntry} {count : Nat} {v : Nat → U64} {y : Nat → U32} (hears : d.Hears e)
  (hnext : ∀ fuel t i, i < count → d.InRun k e (v i) (y i) t → ∃ u, d.InRun k e (v (i + 1)) (y (i + 1)) u ∧ run (fuel + 1) t = run fuel u)
  (hend : ∀ fuel t, d.InRun k e (v count) (y count) t → run (fuel + 1) t = t.ok k (v count) 0)

include hears hnext hend

theorem run_completes_from : ∀ left fuel t, left ≤ count → left < fuel → d.InRun k e (v (count - left)) (y (count - left)) t →
      d.Completes (run fuel t) e stOk (v count) 0 ∧ Quiet d (run fuel t) := by
  intro left
  induction left with
  | zero =>
    rintro (_ | fuel) t - hfuel ht
    · omega
    · rw [hend fuel t ht]
      exact ht.ok_completes hears
  | succ left ih =>
    rintro (_ | fuel) t hleft hfuel ht
    · omega
    · obtain ⟨u, hu, hrun⟩ := hnext fuel t _ (by omega) ht
      have hi : count - (left + 1) + 1 = count - left := by omega
      rw [hi] at hu
      rw [hrun]
      exact ih fuel u (by omega) (by omega) hu

/-- Started with more fuel than tiles, the run ends its descriptor with OK. -/
theorem run_completes {fuel : Nat} (hfuel : count < fuel) (he : tget d.rng.descs k = some e) (hv : e.result = v 0) (hy : e.detail = y 0) :
    d.Completes (run fuel d) e stOk (v count) 0 ∧ Quiet d (run fuel d) := by
  refine run_completes_from hears hnext hend count fuel d le_rfl hfuel ?_
  rw [Nat.sub_self, ← hv, ← hy]
  exact .start he

end

/-! ### TILE_READ of tiles that lie readable in T1 (R133) -/

/-- A TILE_READ gets tile `t` without a request: it was never written, or it lies in T1 undamaged. -/
def Region.Readable (r : Region) (t : Nat) : Prop :=
  (r.at t).gen = 0 ∨
    ((r.at t).bad = 0 ∧ ∃ raw, r.rawHere t = some raw ∧ (r.weight || crc64 raw == (r.at t).digest || (r.at t).cache.isSome) = true)

theorem tileToHost_quiet (d : Dev) (e : DescEntry) (n t i : Nat) (raw : List Byte) : Quiet d (d.tileToHost e n t i raw) :=
  (emitFor_quiet d _ _).trans (emitFor_quiet _ _ _)

theorem tileToHost_grows (d : Dev) (e : DescEntry) (n t i : Nat) (raw : List Byte) : Grows d (d.tileToHost e n t i raw) :=
  (emitFor_grows d _ _).trans (emitFor_grows _ _ _)

@[simp] theorem tileToHost_rng (d : Dev) (e : DescEntry) (n t i : Nat) (raw : List Byte) : (d.tileToHost e n t i raw).rng = d.rng :=
  (Dev.emitFor_rng _ _ _).trans (Dev.emitFor_rng _ _ _)

section

variable {t : Dev} {k i : Nat} {e : DescEntry} {r : Region} (he : tget t.rng.descs k = some e) (hr : t.region (targetRegion e.d) = some r)

include he hr

theorem tileReadRun_next (hi : e.result.toNat = i) (hlt : i < fieldAt e.d 28 4) (h : r.Readable (fieldAt e.d 24 4 + i)) (fuel : Nat) :
    ∃ raw, Dev.tileReadRun (fuel + 1) t k =
      Dev.tileReadRun fuel ((t.tileToHost e (targetRegion e.d) (fieldAt e.d 24 4 + i) i raw).setResult k (i + 1)) k := by
  have hgoes : ¬ fieldAt e.d 28 4 ≤ i := by omega
  by_cases hnew : (r.at (fieldAt e.d 24 4 + i)).gen = 0
  · exact ⟨List.replicate tileSize 0, by simp only [Dev.tileReadRun, he, hr, hi, ge_iff_le, hgoes, hnew, if_true, if_false]⟩
  · obtain ⟨hbad, raw, hraw, hgood⟩ := h.resolve_left hnew
    exact ⟨raw, by simp only [Dev.tileReadRun, he, hr, hi, ge_iff_le, hgoes, hnew, hbad, hraw, hgood, ne_eq, not_true_eq_false, if_true,
      if_false]⟩

theorem tileReadRun_end (hall : fieldAt e.d 28 4 ≤ e.result.toNat) (fuel : Nat) :
    Dev.tileReadRun (fuel + 1) t k = t.ok k e.result 0 := by
  simp only [Dev.tileReadRun, he, hr, ge_iff_le, hall, if_true]

/-! ### REGION_FLUSH of copies that are clean (R134) -/

theorem flushRun_next (hi : e.detail.toNat = i) (hlt : i < rangeCount r (fieldAt e.d 16 4) (fieldAt e.d 20 4))
    (hidle : t.tileInFlight (targetRegion e.d) (fieldAt e.d 16 4 + i) = false)
    (hclean : ((r.at (fieldAt e.d 16 4 + i)).cache.all fun c => !c.2) = true) (fuel : Nat) :
    Dev.flushRun (fuel + 1) t k = Dev.flushRun fuel (t.modDesc k fun e => { e with detail := e.detail + 1 }) k := by
  have hgoes : ¬ rangeCount r (fieldAt e.d 16 4) (fieldAt e.d 20 4) ≤ i := by omega
  simp only [Dev.flushRun, he, hr, hi, ge_iff_le, hgoes, hidle, Bool.false_eq_true, if_false]
  split
  · next hdirty => simp [hdirty] at hclean
  · rfl

theorem flushRun_end (hall : rangeCount r (fieldAt e.d 16 4) (fieldAt e.d 20 4) ≤ e.detail.toNat)
    (hkeep : (fieldAt e.d 24 1).testBit 0 = false) (fuel : Nat) : Dev.flushRun (fuel + 1) t k = t.ok k e.result 0 := by
  simp only [Dev.flushRun, he, hr, ge_iff_le, hall, hkeep, Bool.false_eq_true, if_true, if_false]

/-! ### REGION_MOVE to T1 of tiles that lie there (R130) -/

theorem moveRun_next (hi : e.result.toNat = i) (hlt : i < rangeCount r (fieldAt e.d 16 4) (fieldAt e.d 20 4)) (hto : fieldAt e.d 24 1 = 1)
    (hhere : r.tierOf (fieldAt e.d 16 4 + i) = 1) (fuel : Nat) :
    Dev.moveRun (fuel + 1) t k = Dev.moveRun fuel (t.modDesc k fun e => { e with result := e.result + 1, data := [] }) k := by
  have hgoes : ¬ rangeCount r (fieldAt e.d 16 4) (fieldAt e.d 20 4) ≤ i := by omega
  simp only [Dev.moveRun, he, hr, hi, ge_iff_le, hgoes, hto, hhere, and_self, if_true, if_false]

theorem moveRun_end (hall : rangeCount r (fieldAt e.d 16 4) (fieldAt e.d 20 4) ≤ e.result.toNat)
    (hpart : rangeCount r (fieldAt e.d 16 4) (fieldAt e.d 20 4) ≠ r.tiles) (fuel : Nat) :
    Dev.moveRun (fuel + 1) t k = t.ok k e.result 0 := by
  simp only [Dev.moveRun, he, hr, ge_iff_le, hall, hpart, if_true, if_false]

end

section

/- The entry `e` of a descriptor that has just started, whose region is `r`. -/
variable {d : Dev} {k : Nat} {e : DescEntry} {r : Region} (he : tget d.rng.descs k = some e) (hears : d.Hears e) (hres : e.result = 0)
  (hdet : e.detail = 0) (hr : d.region (targetRegion e.d) = some r)

include he hears hres hdet hr

theorem tileReadRun_completes (hread : ∀ t, fieldAt e.d 24 4 ≤ t → t < fieldAt e.d 24 4 + fieldAt e.d 28 4 → r.Readable t) :
    d.Completes (d.tileReadRun (fieldAt e.d 28 4 + 1) k) e stOk (BitVec.ofNat 64 (fieldAt e.d 28 4)) 0 ∧
      Quiet d (d.tileReadRun (fieldAt e.d 28 4 + 1) k) := by
  have hcount := fieldAt_lt e.d 28 4
  have hnat (i : Nat) (hi : i ≤ fieldAt e.d 28 4) : (BitVec.ofNat 64 i).toNat = i := Nat.mod_eq_of_lt (by omega)
  refine run_completes (run := fun fuel t => t.tileReadRun fuel k) (v := BitVec.ofNat 64) (y := fun _ => 0) hears
    (fun fuel t i hi ht => ?_) (fun fuel t ⟨hquiet, _, _, hget⟩ => ?_) (Nat.lt_succ_self _) he hres hdet
  · have ⟨hquiet, _, _, hget⟩ := ht
    obtain ⟨raw, hraw⟩ := tileReadRun_next hget ((hquiet.region_eq _).trans hr) (hnat i hi.le) hi
      (hread _ (Nat.le_add_right _ _) (Nat.add_lt_add_left hi _)) fuel
    exact ⟨_, ht.next (tileToHost_quiet _ _ _ _ _ raw) (tileToHost_grows _ _ _ _ _ raw) (by rw [tileToHost_rng]) fun bs => ⟨bs, rfl⟩, hraw⟩
  · exact tileReadRun_end hget ((hquiet.region_eq _).trans hr) (hnat _ le_rfl).ge fuel

theorem flushRun_completes (hrange : rangeOk r (fieldAt e.d 16 4) (fieldAt e.d 20 4) = true) (hsmall : r.tiles ≤ 2 ^ 28)
    (hkeep : (fieldAt e.d 24 1).testBit 0 = false)
    (hclean : ∀ t, fieldAt e.d 16 4 ≤ t → t < fieldAt e.d 16 4 + rangeCount r (fieldAt e.d 16 4) (fieldAt e.d 20 4) →
      d.tileInFlight (targetRegion e.d) t = false ∧ ((r.at t).cache.all fun c => !c.2) = true) :
    d.Completes (d.flushRun (r.tiles + 1) k) e stOk 0 0 ∧ Quiet d (d.flushRun (r.tiles + 1) k) := by
  have hcount := rangeCount_le_tiles hrange
  have hnat (i : Nat) (hi : i ≤ r.tiles) : (BitVec.ofNat 32 i).toNat = i := Nat.mod_eq_of_lt (by omega)
  refine run_completes (run := fun fuel t => t.flushRun fuel k) (v := fun _ => 0) (y := BitVec.ofNat 32) hears
    (fun fuel t i hi ht => ?_) (fun fuel t ⟨hquiet, _, _, hget⟩ => ?_) (Nat.lt_succ_of_le hcount) he hres hdet
  · have ⟨hquiet, _, _, hget⟩ := ht
    obtain ⟨hidle, hcached⟩ := hclean _ (Nat.le_add_right _ _) (Nat.add_lt_add_left hi _)
    exact ⟨_, ht.next (.refl t) (.refl t) rfl fun bs => ⟨bs, by rw [BitVec.ofNat_add]; rfl⟩,
      flushRun_next hget ((hquiet.region_eq _).trans hr) (hnat i (hi.le.trans hcount)) hi ((hquiet.tileInFlight_eq _ _).trans hidle)
        hcached fuel⟩
  · exact flushRun_end hget ((hquiet.region_eq _).trans hr) (hnat _ hcount).ge hkeep fuel

theorem moveRun_completes (hrange : rangeOk r (fieldAt e.d 16 4) (fieldAt e.d 20 4) = true) (hsmall : r.tiles ≤ 2 ^ 28)
    (hto : fieldAt e.d 24 1 = 1) (hpart : rangeCount r (fieldAt e.d 16 4) (fieldAt e.d 20 4) ≠ r.tiles)
    (hhere : ∀ t, fieldAt e.d 16 4 ≤ t → t < fieldAt e.d 16 4 + rangeCount r (fieldAt e.d 16 4) (fieldAt e.d 20 4) → r.tierOf t = 1) :
    d.Completes (d.moveRun (r.tiles + 1) k) e stOk (BitVec.ofNat 64 (rangeCount r (fieldAt e.d 16 4) (fieldAt e.d 20 4))) 0 ∧
      Quiet d (d.moveRun (r.tiles + 1) k) := by
  have hcount := rangeCount_le_tiles hrange
  have hnat (i : Nat) (hi : i ≤ r.tiles) : (BitVec.ofNat 64 i).toNat = i := Nat.mod_eq_of_lt (by omega)
  refine run_completes (run := fun fuel t => t.moveRun fuel k) (v := BitVec.ofNat 64) (y := fun _ => 0) hears
    (fun fuel t i hi ht => ?_) (fun fuel t ⟨hquiet, _, _, hget⟩ => ?_) (Nat.lt_succ_of_le hcount) he hres hdet
  · have ⟨hquiet, _, _, hget⟩ := ht
    exact ⟨_, ht.next (.refl t) (.refl t) rfl fun _ => ⟨[], by rw [BitVec.ofNat_add]; rfl⟩,
      moveRun_next hget ((hquiet.region_eq _).trans hr) (hnat i (hi.le.trans hcount)) hi hto
        (hhere _ (Nat.le_add_right _ _) (Nat.add_lt_add_left hi _)) fuel⟩
  · exact moveRun_end hget ((hquiet.region_eq _).trans hr) (hnat _ hcount).ge hpart fuel

end

/-- Settles O20: each opcode's checks pass, and its run then counts the tiles of its range one by one and ends. -/
theorem tileRunsReachTheirEnd : Obligations.TileRunsReachTheirEnd := by
  intro s n x k e r hn hears hres hdet d hr hsmall hten
  have hwf := decide_eq_true hn
  refine ⟨fun h hchk hread => ?_, fun h hst hrange hflags hclean => ?_, fun h hchk hwback hbound hto hhere hpart => ?_⟩
  all_goals obtain ⟨-, -, rfl, -⟩ := ready_facts h
  · exact ⟨_, op_becomes h rfl hwf hchk (withRegion_eq hr hten _), tileReadRun_completes h.2.1 hears hres hdet hr hread⟩
  · refine ⟨_, op_becomes h rfl hwf (chkRegion_eq_ok hst hr hrange) ((withRegion_eq hr hten _).trans (if_neg (by simp [hflags]))), ?_⟩
    exact flushRun_completes h.2.1 hears hres hdet hr hrange hsmall (by simp [hflags]) hclean
  · refine ⟨_, op_becomes h rfl hwf hchk ((withRegion_eq hr hten _).trans (if_neg (by simp [hwback, hbound]))), ?_⟩
    exact moveRun_completes h.2.1 hears hres hdet hr (rangeOk_of_chkRegionMove hchk hr) hsmall hto hpart hhere

/-! ### REGION_CREATE, REGION_DESTROY, REGION_ATTR (R126, R128, R134, R135) -/

/-- The region that a REGION_CREATE of partition `p` puts under number `m`. -/
def Dev.createdRegion (d : Dev) (p : Nat) (x : Desc) (m : Nat) : Region :=
  { gen := nextGen (tgetD d.tier.gens m 0) 0x1FFFFFFFF, part := p, tiles := fieldAt x 16 4, homeTier := fieldAt x 20 1,
    wback := fieldAt x 21 1 = 1, kind := fieldAt x 22 1, peat := fieldAt x 23 1, keyId := BitVec.ofNat 16 (fieldAt x 24 2),
    weight := (fieldAt x 26 1).testBit 0, pin := (fieldAt x 26 1).testBit 1, extent := BitVec.ofNat 64 (fieldAt x 32 8) }

/-- The pages of its extent that a REGION_CREATE takes. -/
def createdPages (x : Desc) : List Nat := if fieldAt x 20 1 = 1 then [] else List.range (fieldAt x 16 4)

/-- The device in which a REGION_CREATE of partition `p` has taken number `m`, which leaves the numbers `nums`. -/
def Dev.regionCreated (d : Dev) (p : Nat) (x : Desc) (m : Nat) (nums : Numbers) : Dev :=
  let r := d.createdRegion p x m
  let t := { d with
    tier := { d.tier with region := tput d.tier.region m r, numbers := tput d.tier.numbers 0 nums, gens := tput d.tier.gens m r.gen } }
  (if r.homeTier = 1 then t else t.takePages r.extent (createdPages x)).moveFrames p 0 2 (regionFrames r.tiles r.homeTier)

/-- The key is current, and number, frames and pages are there: the region is created and its handle answered. -/
theorem doRegionCreate_creates {d : Dev} (k : Nat) {e : DescEntry} {m : Nat} {nums : Numbers}
    (hkey : (d.storeKey e.part (fieldAt e.d 24 2)).isSome = true)
    (hpages : fieldAt e.d 20 1 ≠ 1 → ∃ y, d.extentInfo (BitVec.ofNat 64 (fieldAt e.d 32 8)) = some y ∧ fieldAt e.d 16 4 ≤ y.pages ∧
      ∀ j, j ∈ createdPages e.d → (d.takenPages (BitVec.ofNat 64 (fieldAt e.d 32 8))).contains j = false)
    (hframes : regionFrames (fieldAt e.d 16 4) (fieldAt e.d 20 1) ≤ d.freeFrames e.part)
    (htake : (tgetD d.tier.numbers 0 {}).take 0 regionLimit = some (m, nums)) :
    doRegionCreate d k e = (d.regionCreated e.part e.d m nums).ok k
      (mkRegionHandle (d.regionCreated e.part e.d m nums).id e.part (nextGen (tgetD d.tier.gens m 0) 0x1FFFFFFFF) m) 0 := by
  have hfits : ¬ (fieldAt e.d 20 1 ≠ 1 ∧
      (d.extentInfo (BitVec.ofNat 64 (fieldAt e.d 32 8))).all (fun i => decide (i.pages < fieldAt e.d 16 4)) = true) := by
    rintro ⟨hdeep, hsmall⟩
    obtain ⟨y, hext, hroom, -⟩ := hpages hdeep
    rw [hext, Option.all_some, decide_eq_true_eq] at hsmall
    omega
  have hfree : ((createdPages e.d).any fun i => (d.takenPages (BitVec.ofNat 64 (fieldAt e.d 32 8))).contains i) = false := by
    by_cases htier : fieldAt e.d 20 1 = 1
    · rw [createdPages, if_pos htier, List.any_nil]
    · obtain ⟨y, -, -, hnone⟩ := hpages htier
      rw [List.any_eq_false]
      exact fun j hj => Bool.eq_false_iff.1 (hnone j hj)
  rw [createdPages] at hfree
  simp only [doRegionCreate, Option.isNone_eq_false_iff.2 hkey, if_neg hfits, hfree, if_neg (Nat.not_lt.2 hframes), htake,
    Bool.false_eq_true, if_false]
  rfl

/-- A region that nothing names leaves the table; the descriptor waits until its frames are free. -/
theorem doRegionDestroy_drops {d : Dev} (k : Nat) {e : DescEntry} {r : Region} (hr : d.region (targetRegion e.d) = some r)
    (himg : d.imageNames e.part e.d.target = false) (hhist : d.historyOf (targetRegion e.d) = false) (hbound : r.bound = false)
    (hcopy : (d.tier.copy.any fun c => c.src == targetRegion e.d || c.dest == targetRegion e.d) = false) :
    doRegionDestroy d k e = ((d.dropRegion (targetRegion e.d)).modDesc k fun y => { y with detail := BitVec.ofNat 32 r.tiles }).wait k
      (.destroyed (targetRegion e.d)) := by
  simp only [doRegionDestroy, hr, himg, hhist, hbound, hcopy, Bool.or_self, Bool.false_eq_true, if_false]

section

variable {d : Dev} (k : Nat) {e : DescEntry} {r : Region} (hr : d.region (targetRegion e.d) = some r)
  (hten : d.tenantGone e.part r.keyId.toNat = false)

include hr hten

/-- OP 1 seals a region whose tiles are all written. -/
theorem doRegionAttr_seals (hop : fieldAt e.d 16 1 = 1) (hall : ∀ t, t < r.tiles → (r.at t).gen ≠ 0) :
    doRegionAttr d k e = (d.modRegion (targetRegion e.d) fun r => { r with isSealed := true }).ok k 0 0 := by
  refine (withRegion_eq hr hten _).trans ?_
  simp only [hop]
  exact if_pos (List.all_eq_true.2 fun t ht => bne_iff_ne.2 (hall t (List.mem_range.1 ht)))

/-- OP 2 pins a WBACK region, and OP 3 lets it go. -/
theorem doRegionAttr_pins {b : Bool} (hop : fieldAt e.d 16 1 = if b then 2 else 3) (hwback : r.wback = true) :
    doRegionAttr d k e = (d.modRegion (targetRegion e.d) fun r => { r with pin := b }).ok k 0 0 := by
  refine (withRegion_eq hr hten _).trans ?_
  cases b with
  | true => simp only [hop, if_true]; exact if_pos hwback
  | false => simp only [hop, Bool.false_eq_true, if_false]; exact if_pos hwback

/-- OP 4 sets how PEAT stores the tiles. -/
theorem doRegionAttr_sets_peat (hop : fieldAt e.d 16 1 = 4) :
    doRegionAttr d k e = (d.modRegion (targetRegion e.d) fun r => { r with peat := fieldAt e.d 17 1 }).ok k 0 0 := by
  refine (withRegion_eq hr hten _).trans ?_
  simp only [hop]

/-! ### TILE_WRITE, REPLICA_SET, BG_COPY (R131, R136, R148) -/

/-- Payloads and headers of a TILE_WRITE are read from host memory. -/
theorem doTileWrite_reads (hopen : r.isSealed = false) (hbound : r.bound = false) :
    doTileWrite d k e =
      ((d.emitFor e.part (.hostRead e.part (BitVec.ofNat 64 (fieldAt e.d 16 8)) (fieldAt e.d 28 4 * tileSize))).emitFor e.part
        (.hostRead e.part (BitVec.ofNat 64 (fieldAt e.d 32 8)) (fieldAt e.d 28 4 * 64))).wait k .hostRead :=
  (withRegion_eq hr hten _).trans (if_neg (by simp [hopen, hbound]))

/-- Replicas of this device that differ nowhere are named. -/
theorem doReplicaSet_names (hreps : ∀ h, h ∈ replicaList e.d → hDevice h = d.id ∧ d.replicaDiffers r h = none) :
    doReplicaSet d k e = (d.modRegion (targetRegion e.d) fun r => { r with replicas := replicaList e.d }).ok k
      (BitVec.ofNat 64 (replicaList e.d).length) 0 := by
  have hsame : (replicaList e.d).findSome? (fun h => d.replicaDiffers r h) = none := List.findSome?_eq_none_iff.2 fun h hh => (hreps h hh).2
  have hhere : (replicaList e.d).any (fun h => hDevice h != d.id) = false := List.any_eq_false.2 fun h hh => by simp [(hreps h hh).1]
  refine (withRegion_eq hr hten _).trans ?_
  simp only [hsame, hhere, Bool.false_eq_true, if_false]

/-- A copy to an open region of the same size is admitted while fewer than eight run, and waits for its boundary. -/
theorem doBgCopy_admits {q : Region} (hq : d.region (hRegion (BitVec.ofNat 64 (fieldAt e.d 16 8))) = some q) (hopen : q.isSealed = false)
    (htiles : q.tiles = r.tiles) (hbound : q.bound = false) (hroom : d.copyLimit = false) :
    let ts := (List.range (rangeCount r (fieldAt e.d 24 4) (fieldAt e.d 28 4))).map fun j => fieldAt e.d 24 4 + j
    let c : Copy := { desc := k, src := targetRegion e.d, dest := hRegion (BitVec.ofNat 64 (fieldAt e.d 16 8)), left := ts }
    doBgCopy d k e = ({ d with tier := { d.tier with copy := d.tier.copy ++ [c] } } : Dev).showCopies.wait k
      (.copy (fieldAt e.d 24 4) ts.length) := by
  refine (withRegion_eq hr hten _).trans ?_
  simp only [hq, hopen, htiles, hbound, hroom, bne_self_eq_false, Bool.or_self, Bool.false_eq_true, if_false]

end

/-- Settles O19: each opcode's checks pass, and its effect is the clause's. -/
theorem regionOpcodesTakeEffect : Obligations.RegionOpcodesTakeEffect := by
  intro s n x k e hn d i
  have hwf := decide_eq_true hn
  refine ⟨fun m nums h hchk hkey hpages hframes htake => ?_, fun r h hst hr himg hhist hbound hcopy => ?_,
    fun r h hst hr hten => ⟨fun hop harg hall => ?_, fun b hop harg hwback => ?_, fun hop harg => ?_⟩,
    fun r hr hten => ⟨fun h hst hrange => ?_, fun h hchk hwback hbound => ?_, fun h hchk hopen hbound => ?_, fun h hchk => ?_,
      fun h hchk hreps => ?_, fun h hchk => ?_, fun q h hst hrange hdest hq hopen htiles hbound hroom => ?_⟩⟩
  all_goals obtain ⟨-, -, rfl, -⟩ := ready_facts h
  · exact op_becomes h rfl hwf hchk (doRegionCreate_creates k hkey hpages hframes htake)
  · exact op_becomes h rfl hwf (chkRegion_eq_ok hst hr rfl) (doRegionDestroy_drops k hr himg hhist hbound hcopy)
  · exact op_becomes h rfl hwf (chkRegion_eq_ok hst hr (by simp [hop, harg])) (doRegionAttr_seals k hr hten hop hall)
  · exact op_becomes h rfl hwf (chkRegion_eq_ok hst hr (by cases b <;> simp [hop, harg])) (doRegionAttr_pins k hr hten hop hwback)
  · exact op_becomes h rfl hwf (chkRegion_eq_ok hst hr (by simp [hop, harg])) (doRegionAttr_sets_peat k hr hten hop)
  · exact op_becomes h rfl hwf (chkRegion_eq_ok hst hr hrange) (withRegion_eq hr hten _)
  · exact op_becomes h rfl hwf hchk ((withRegion_eq hr hten _).trans (if_neg (by simp [hwback, hbound])))
  · exact op_becomes h rfl hwf hchk (doTileWrite_reads k hr hten hopen hbound)
  · exact op_becomes h rfl hwf hchk (withRegion_eq hr hten _)
  · exact op_becomes h rfl hwf hchk (doReplicaSet_names k hr hten hreps)
  · exact op_becomes h rfl hwf hchk (withRegion_eq hr hten _)
  · refine op_becomes h rfl hwf ?_ (doBgCopy_admits k hr hten hq hopen htiles hbound hroom)
    exact (if_neg (not_not_intro (chkRegion_eq_ok hst hr hrange))).trans hdest

end Sys2Proof.Machine
end

section
/-! SUPPORT and CERTIFICATES. 08_cores_placement_models.md: images, job switches and unloads (R212, R218, R234), the layer window (05 R140)
and the tile jobs of the cores (R208). -/

namespace Sys2Proof.Machine

/-! ### JOB_SWITCH, JOB_UNLOAD (R218, R234) -/

section

/- A job that has not ended, on its sync root, with no switch under way. -/
variable {d : Dev} (k : Nat) {e : DescEntry} {p i : Nat} {j : Job} (hp : e.part = p) (hi : hSlot e.d.target = i) (hj : d.job p i = j)
  (hquiet : tget d.plc.switch p = none) (hlive : j.ended = false) (hact : ∀ a, d.activeJob p = some a → d.rootOf a = true)
  (hidle : d.activeJob p = none → d.rootOf j = true)

include hp hi hj hquiet hlive hact hidle

/-- The active job is to stop: the switch to no job waits for its boundary. -/
theorem doJobSwitch_stops (hstop : (fieldAt e.d 16 1).testBit 0 = true) (hst : j.st = .active) :
    doJobSwitch d k e = ((d.setSwitch p { desc := some k, job := none }).acceptSwitch p none).wait k .switch := by
  cases ha : d.activeJob p with
  | some a => simp [doJobSwitch, hp, hi, hj, ha, hact a ha, hquiet, hlive, hstop, hst]
  | none => simp [doJobSwitch, hp, hi, hj, ha, hidle ha, hquiet, hlive, hstop, hst]

/-- A switch to a loaded job asks the job's other devices; without any it is accepted at once. -/
theorem doJobSwitch_asks (hstop : (fieldAt e.d 16 1).testBit 0 = false) (hst : j.st = .loaded) (hvocab : j.vocab.isSome = true) :
    let t := ((d.others j).foldl (fun (t : Dev) y => t.emit (.ctrl y.2 (.probe p (.job j.full)))) d).setSwitch p
      { desc := some k, job := some i, asked := (d.others j).map fun y => y.1 }
    doJobSwitch d k e = if (d.others j).isEmpty then (t.wait k .switch).acceptSwitch p (some i) else t.wait k .switch := by
  have hnone := Option.isNone_eq_false_iff.2 hvocab
  cases ha : d.activeJob p with
  | some a => simp [doJobSwitch, hp, hi, hj, ha, hact a ha, hquiet, hlive, hstop, hst, hnone]
  | none => simp [doJobSwitch, hp, hi, hj, ha, hidle ha, hquiet, hlive, hstop, hst, hnone]

end

/-- A loaded job without sessions and waiters leaves its slot; the frames of its vocabulary are freed at the next E8. -/
theorem doJobUnload_empties {d : Dev} (k : Nat) {e : DescEntry} {p i : Nat} {j : Job} (hp : e.part = p) (hi : hSlot e.d.target = i)
    (hj : d.job p i = j) (hst : j.st = .loaded) (hwait : j.waiters = [])
    (hfree : ∀ l y, (l, y) ∈ d.tus.slot → d.locOwner l = some p → y.st = .free ∨ j.hdr.classes.getLsbD y.cls = false) :
    let t := d.dropParked p i
    let g := fun (f : Frames) => { f with freeMeta := f.freeMeta + j.vocab.elim 0 fun v => v.frames }
    doJobUnload d k e =
      (({ t with tier := { t.tier with frames := tmod t.tier.frames p {} g } } : Dev).setJob p i { gen := j.gen }).ok k 0 0 := by
  have hnone : (d.tus.slot.any fun x : Nat × Session =>
      d.locOwner x.1 == some p && x.2.st != .free && j.hdr.classes.getLsbD x.2.cls) = false := by
    rw [List.any_eq_false]
    rintro ⟨l, y⟩ hmem hserved
    simp only [Bool.and_eq_true, beq_iff_eq, bne_iff_ne] at hserved
    obtain ⟨⟨hown, hused⟩, hcls⟩ := hserved
    obtain h | h := hfree l y hmem hown
    · exact hused h
    · rw [h] at hcls
      exact Bool.false_ne_true hcls
  simp [doJobUnload, hp, hi, hj, hst, hwait, hnone]

/-! ### The layer window (05 R140) -/

/-- The device in which slot `l % W` of the layer window has let layer `l` go. -/
def Dev.layerLet (d : Dev) (q : Nat) (a : Job) (c : Sections) (l : Nat) : Dev :=
  ((d.stallAt q (l + 1)).dropLayer c l).modWindow q fun w => { w with holds := tdel w.holds (l % a.hdr.w) }

section

/- A layer of the step of partition `q`'s active job `a`. -/
variable {s : State} {q l : Nat} {a : Job} {c : Sections} (hq : q < 8) (hact : s.dev.activeJob q = some a) (hsect : a.sect = some c)
  (hphase : s.dev.phase q = 0) (hl : l < a.hdr.layers)

include hq hact hsect hphase hl

/-- The slot of a finished layer takes the layer W further on: at once if nothing of it lies deeper than T1, else by fetching it. -/
theorem exec_layerFinished_refills (hw : a.hdr.w < a.hdr.layers)
    (hholds : ((s.dev.stallAt q (l + 1)).window q).holds.any (fun y => y.1 == l % a.hdr.w && y.2 == l) = true) :
    let next := (l + a.hdr.w) % a.hdr.layers
    let t := s.dev.layerLet q a c l
    Becomes (.layerFinished q l) s (if (t.deepWeights c next).isEmpty
      then t.modWindow q fun w => { w with holds := tput w.holds (l % a.hdr.w) next }
      else (t.modWindow q fun w => { w with wanted := w.wanted ++ [(l % a.hdr.w, next)] }).windowAsk q) := by
  refine becomes_onDev rfl (decide_eq_true hq) ?_
  simp only [hact, Option.bind_some, hsect, hphase, ne_eq, not_true_eq_false, decide_false, ge_iff_le, Nat.not_le.2 hl, Bool.or_self,
    Bool.false_eq_true, if_false, hw, decide_true, Bool.true_and, hholds, if_true]
  rfl

/-- A window that holds every layer keeps them. -/
theorem exec_layerFinished_keeps (hw : a.hdr.w = a.hdr.layers) : Becomes (.layerFinished q l) s (s.dev.stallAt q (l + 1)) := by
  refine becomes_onDev rfl (decide_eq_true hq) ?_
  simp [hact, hsect, hphase, Nat.not_le.2 hl, hw]

end

/-- A slot whose layer is present holds it. -/
theorem exec_windowSlotFilled_holds {s : State} {q slot : Nat} {c : Sections} {y : Nat × Nat} (hq : q < 8)
    (hsect : ((s.dev.activeJob q).bind fun j => j.sect) = some c) (hasked : (s.dev.window q).asked.find? (fun y => y.1 == slot) = some y)
    (hpres : s.dev.layerPresent c y.2 = true) : Becomes (.windowSlotFilled q slot) s ((s.dev.modWindow q fun w =>
      { w with holds := tput w.holds slot y.2, wanted := w.wanted.filter (· != y), asked := w.asked.filter (· != y) }).switchDone q) := by
  refine becomes_onDev rfl (decide_eq_true hq) ?_
  simp only [hsect, hasked, hpres, if_true]

/-! ### Tile jobs of the cores (R208) -/

section

/- A core of partition `q`, and the device that has counted its tile job. -/
variable {s : State} {c q : Nat} {t : Dev} (hc : c < 256) (hcore : s.dev.corePart c = some q)
  (ht : (s.dev.modCore c fun y => { y with jobs := y.jobs + 1 }) = t)

include hc hcore ht

theorem exec_coreBackground : Becomes (.coreTileJobDone c .background) s (t.satL (PLC_CORE_BG_JOBS q) 1) := by
  refine becomes_onDev rfl (decide_eq_true hc) ?_
  simp only [hcore, ht]

/-- A semaphore operation of a core's stream reaches a group of the core's partition. -/
theorem exec_coreSemOp {sem f : Nat} {g : SemGroup} (op m : Nat) (hgroup : t.groupOf sem = some (f, g)) (hpart : g.part = q) :
    Becomes (.coreTileJobDone c (.semOp sem op m)) s (t.semApply sem op { who := .core c, id := c, n := m } false) := by
  refine becomes_onDev rfl (decide_eq_true hc) ?_
  simp only [hcore, ht, hgroup, hpart, Option.any_some, beq_self_eq_true, if_true]

/-- What a core leaves of a weight product, once its tiles are loaded. -/
theorem exec_coreProduct {wf af mode : Nat} (l : Nat) (loads : List (Nat × Nat × Nat)) (w a o r ac m : Nat) (es : Option (Nat × Nat × Nat))
    (en : List Nat) (hmode : modeOf wf af = some mode) :
    Becomes (.coreTileJobDone c (.product l loads wf af w a o r ac m es en)) s
      ((loads.foldl (fun (t : Dev) y => t.loadSlot q c y.1 y.2.1 y.2.2) t).runProduct q c l mode w a o wf af r ac m es en) := by
  refine becomes_onDev rfl (decide_eq_true hc) ?_
  simp only [hcore, ht, hmode]

/-- Jobs on a session of the core's partition. -/
theorem exec_coreSessionJobs {loc : Nat} (hloc : s.dev.locOwner loc = some q) :
    (∀ page, Becomes (.coreTileJobDone c (.damaged loc page)) s (t.pageDamaged c loc page)) ∧
    (∀ l, Becomes (.coreTileJobDone c (.nonfinite loc l)) s (t.nonfinite c loc l)) ∧
    (∀ l g f r, Becomes (.coreTileJobDone c (.scatter loc l g f r)) s (t.scatter loc l g f r)) ∧
    (∀ l h ch qs own, Becomes (.coreTileJobDone c (.attention loc l h ch qs own)) s (t.attention c loc l h ch qs own)) := by
  have hown : t.locOwner loc = some q := by rw [← ht]; exact hloc
  refine ⟨fun page => ?_, fun l => ?_, fun l g f r => ?_, fun l h ch qs own => ?_⟩
  all_goals
    refine becomes_onDev rfl (decide_eq_true hc) ?_
    simp only [hcore, ht, hown, if_true]

end

/-- Settles O27: each row's guard holds under the clause's hypotheses, and its effect is the clause's. -/
theorem placementCommandsTakeEffect : Obligations.PlacementCommandsTakeEffect := by
  intro s n x k e hn d p i j
  have hwf := decide_eq_true hn
  refine ⟨fun h halign hmin hmax => ?_, fun h hjob hquiet hlive hact hidle => ⟨fun hstop hst => ?_, fun hstop hst hvocab => ?_⟩,
    fun h hjob hst hwait hfree => ?_, fun q l a c hq hact hsect hphase hl => ⟨exec_layerFinished_refills hq hact hsect hphase hl,
      exec_layerFinished_keeps hq hact hsect hphase hl⟩, fun q slot c y hq => exec_windowSlotFilled_holds hq,
    fun c q hc hcore => ⟨exec_coreBackground hc hcore rfl, fun sem op m f g => exec_coreSemOp hc hcore rfl op m,
      fun loc => exec_coreSessionJobs hc hcore rfl,
      fun l loads wf af w a o r ac m es en mode => exec_coreProduct hc hcore rfl l loads w a o r ac m es en⟩⟩
  all_goals obtain ⟨-, -, rfl, -⟩ := ready_facts h
  · exact op_becomes h rfl hwf (if_neg (by omega)) rfl
  · exact op_becomes h rfl hwf hjob (doJobSwitch_stops k rfl rfl rfl hquiet hlive hact hidle hstop hst)
  · exact op_becomes h rfl hwf hjob (doJobSwitch_asks k rfl rfl rfl hquiet hlive hact hidle hstop hst hvocab)
  · exact op_becomes h rfl hwf hjob (doJobUnload_empties k rfl rfl rfl hst hwait hfree)

end Sys2Proof.Machine
end

section
/-! SUPPORT and CERTIFICATES. 06_kv_cache_attention.md: the opcodes that share, cut and drop KV pages (R165, R174, R175). -/

namespace Sys2Proof.Machine

/-- A share whose descriptors and sessions are in order reads the source's history, and waits for its requests. -/
theorem doPtShare_reads_history {d t : Dev} {k loc src : Nat} {e : DescEntry} (ht : d.tussockAccess = t)
    (hloc : hLocal e.d.target = loc) (hsrc : hLocal (BitVec.ofNat 64 (fieldAt e.d 16 8)) = src)
    (hst : t.shareStatus e.part loc src (fieldAt e.d 24 4) = stOk) :
    doPtShare d k e = (t.readHistory src (fieldAt e.d 24 4) (some k)).1.wait k
      (.requests (t.readHistory src (fieldAt e.d 24 4) (some k)).2) := by
  simp only [doPtShare, ht, hloc, hsrc, if_neg (not_not_intro hst)]

section

/- The session `y` in slot `loc` that descriptor `e` targets, the header `h` of the image it is served under, and the device `t` once its
descriptor has been looked up (R87); its tenant is there. -/
variable {d t : Dev} {k loc : Nat} {e : DescEntry} {y : Session} {h : ImageHdr} (ht : d.tussockAccess = t)
  (hloc : hLocal e.d.target = loc) (hy : d.ses loc = y) (hh : d.sesHdr e.part loc = h)
  (hten : t.tenantGone e.part y.keyId.toNat = false)

include ht hloc hy hten

include hh in
/-- A truncation at position `n` lets the pages of the ranges beyond it go, recounts DROPPED (log 59), publishes the page table and answers
how many pages went. -/
theorem doPtTruncate_releases (hst : y.st = .idle ∨ y.st = .parked) (hstaged : y.staged = 0) (hgen : y.genArmed = false)
    (hpos : fieldAt e.d 16 4 < y.positions) :
    let n := fieldAt e.d 16 4
    let cut := t.releasePages loc fun i _ => decide (rangesOf n ≤ h.rangeOf i)
    let u := ((cut.1.modSes loc fun z => { z with positions := n, hist := z.hist.take n }).recountDropped loc).publish loc
    doPtTruncate d k e =
      (u.modSes loc fun z => { z with depth := if z.st = .parked ∧ depthOf z.pages ≠ 0 then depthOf z.pages else z.depth }).ok k
        (BitVec.ofNat 64 n) (BitVec.ofNat 32 cut.2) := by
  have hadmits : ¬((y.st ≠ .idle ∧ y.st ≠ .parked) ∨ y.staged ≠ 0 ∨ y.genArmed ∨ fieldAt e.d 16 4 ≥ y.positions) := by
    rintro (⟨hidle, hparked⟩ | hne | harmed | hge)
    · exact hst.elim hidle hparked
    · exact hne hstaged
    · exact Bool.false_ne_true (hgen.symm.trans harmed)
    · exact Nat.not_le.2 hpos hge
  simp only [doPtTruncate, ht, hloc, hy, hh, hten, Bool.false_eq_true, if_false, if_neg hadmits]

/-- MODE 1 drops every stored page of a parked session. -/
theorem doKvDrop_drops_all (hst : y.st = .parked) (hmode : fieldAt e.d 16 1 = 1) :
    doKvDrop d k e = ((t.dropAll loc).1.publish loc).ok k (BitVec.ofNat 64 (t.dropAll loc).2.1) (BitVec.ofNat 32 (t.dropAll loc).2.2) := by
  simp only [doKvDrop, ht, hloc, hy, hten, hst, hmode, ne_eq, not_true_eq_false, Bool.false_eq_true, if_false, if_true]

include hh in
/-- MODE 0 drops the pages of the first layers in the last ranges of a parked session that has as many. -/
theorem doKvDrop_drops_named (hst : y.st = .parked) (hmode : fieldAt e.d 16 1 = 0)
    (hranges : fieldAt e.d 18 1 ≤ rangesOf y.positions) (hlayers : fieldAt e.d 17 1 ≤ h.layers) :
    let gone := t.dropPages loc fun i =>
      decide (rangesOf y.positions - fieldAt e.d 18 1 ≤ h.rangeOf i) && decide (h.layerOf i < fieldAt e.d 17 1)
    doKvDrop d k e =
      ((gone.1.recountDropped loc).publish loc).ok k (BitVec.ofNat 64 gone.2.1) (BitVec.ofNat 32 gone.2.2) := by
  have hnamed : ¬(rangesOf y.positions < fieldAt e.d 18 1 ∨ fieldAt e.d 17 1 > h.layers) :=
    not_or.2 ⟨Nat.not_lt.2 hranges, Nat.not_lt.2 hlayers⟩
  simp only [doKvDrop, ht, hloc, hy, hh, hten, hst, hmode, if_neg hnamed, ne_eq, not_true_eq_false, Nat.zero_ne_one, Bool.false_eq_true,
    if_false]

end

/-- Settles O21: each opcode's checks pass, and its effect is the clause's. -/
theorem kvOpcodesTakeEffect : Obligations.KvOpcodesTakeEffect := by
  intro s n x k e hn d loc y h
  have hwf := decide_eq_true hn
  refine ⟨fun hready hchk hshare => ?_, fun hready hses hten hst hstaged hgen hpos => ?_,
    fun hready hchk hten hst => ⟨fun hmode => ?_, fun hmode hranges hlayers => ?_⟩⟩
  all_goals obtain ⟨-, -, rfl, -⟩ := ready_facts hready
  · exact op_becomes hready rfl hwf hchk (doPtShare_reads_history rfl rfl rfl hshare)
  · exact op_becomes hready rfl hwf hses (doPtTruncate_releases rfl rfl rfl rfl hten hst hstaged hgen hpos)
  · exact op_becomes hready rfl hwf hchk (doKvDrop_drops_all rfl rfl rfl hten hst hmode)
  · exact op_becomes hready rfl hwf hchk (doKvDrop_drops_named rfl rfl rfl rfl hten hst hmode hranges hlayers)

end Sys2Proof.Machine
end

section
/-! SUPPORT and CERTIFICATES. 07_narrow_arithmetic.md: running counters of the safeguards, logits shards (09 R252), shadow samples and the
request that a layer rise (R195, R197). -/

namespace Sys2Proof.Machine

/-! ### Fields of running values (02 R32) -/

theorem liveReg_setL (d : Dev) (f : Fld) (v o : Nat) :
    (d.setL f v).liveReg o = if o = f.off then putBits (d.liveReg f.off) f.lo f.w v else d.liveReg o := by
  unfold Dev.liveReg Dev.setL
  rw [tget_tput]
  split <;> rfl

theorem getL_setL_same (d : Dev) (f : Fld) (v : Nat) (h : f.lo + f.w ≤ 64) : (d.setL f v).getL f = v % 2 ^ f.w := by
  rw [Dev.getL, liveReg_setL, if_pos rfl, of_putBits_same f _ v h]

/-- A running field that lies in another register, or beside the one set, keeps its value. -/
theorem getL_setL_apart (d : Dev) (f g : Fld) (v : Nat) (h : g.off ≠ f.off ∨ g.lo + g.w ≤ f.lo ∨ f.lo + f.w ≤ g.lo) :
    (d.setL f v).getL g = d.getL g := by
  rw [Dev.getL, liveReg_setL]
  by_cases ho : g.off = f.off
  · rw [if_pos ho, of_putBits_apart f g _ v (h.resolve_left (not_not_intro ho)), ← ho, Dev.getL]
  · rw [if_neg ho, Dev.getL]

theorem getL_satL_apart (d : Dev) (f g : Fld) (n : Nat) (h : g.off ≠ f.off ∨ g.lo + g.w ≤ f.lo ∨ f.lo + f.w ≤ g.lo) :
    (d.satL f n).getL g = d.getL g :=
  getL_setL_apart d f g _ h

/-! ### The layers of a partition -/

theorem layer_of_ari {d t : Dev} (h : t.ari = d.ari) (p l : Nat) : t.layer p l = d.layer p l := by
  rw [Dev.layer, Dev.layer, Dev.arip, Dev.arip, h]

theorem layer_modLayer_same (d : Dev) (p l : Nat) (f : Layer → Layer) : (d.modLayer p l f).layer p l = f (d.layer p l) := by
  simp only [Dev.layer, Dev.modLayer, Dev.modAri, Dev.arip, tgetD_tmod, if_true]

/-! ### Logits shards (09 R252) -/

/-- A shard of an entry that samples and has no token yet is kept, and with every shard in the token is chosen. -/
theorem exec_logitsShardArrival {s : State} {loc shard : Nat} (z : List U32) {e : LenEntry} {v : Vocab} (hloc : loc < 4194304)
    (he : s.dev.lenOf (s.dev.sesPart loc) loc = some e) (hv : s.dev.vocabOf (s.dev.sesPart loc) (s.dev.ses loc).cls = some v)
    (hphase : s.dev.phase (s.dev.sesPart loc) = 0) (hsample : e.sample = true) (hheld : e.held = false) (hnone : e.tokens = [])
    (hshard : shard < v.shards) :
    let e' : LenEntry := { e with shards := tput e.shards shard z }
    let t := s.dev.modLen (s.dev.sesPart loc) loc fun _ => e'
    let c := t.vocabAccess.chooseToken loc v e'
    Becomes (.logitsShardArrival loc shard z) s
      (if (List.range v.shards).all fun i => (tget e'.shards i).isSome then
        c.2.modLen (s.dev.sesPart loc) loc fun y => { y with tokens := [BitVec.ofNat 32 c.1] }
      else t) := by
  refine becomes_onDev rfl (decide_eq_true hloc) ?_
  simp only [he, hv]
  exact if_pos (by simp [hphase, hsample, hheld, hnone, hshard])

/-! ### Shadow samples (R195) -/

/-- A finished sample counted: SAMPLES, and EXCEEDED if its error lies over the threshold. -/
def Dev.countSample (d : Dev) (p : Nat) (worse : Bool) : Dev :=
  (d.satL (ARI_SAT_SAMPLES p) 1).satL (ARI_SHADOW_EXCEEDED p) (if worse then 1 else 0)

/-- The greatest error of the step and its layer, once a sample of this error is in. -/
def Dev.noteError (d : Dev) (p layer e : Nat) : Dev :=
  if e > d.getL (ARI_SHADOW_MAX_ERROR p) then (d.setL (ARI_SHADOW_MAX_ERROR p) e).setL (ARI_SHADOW_MAX_LAYER p) layer else d

theorem countSample_ari (d : Dev) (p : Nat) (worse : Bool) : (d.countSample p worse).ari = d.ari := rfl

theorem noteError_ari (d : Dev) (p layer e : Nat) : (d.noteError p layer e).ari = d.ari := by
  unfold Dev.noteError; split <;> rfl

/-- Noting an error touches the running values alone. -/
theorem noteError_frame (d : Dev) (p layer e : Nat) : { d.noteError p layer e with live := d.live } = d := by
  unfold Dev.noteError; split <;> rfl

theorem getL_countSample_maxError (d : Dev) (p : Nat) (worse : Bool) :
    (d.countSample p worse).getL (ARI_SHADOW_MAX_ERROR p) = d.getL (ARI_SHADOW_MAX_ERROR p) := by
  have hsamples : (ARI_SHADOW_MAX_ERROR p).off ≠ (ARI_SAT_SAMPLES p).off := by simp only [ARI_SHADOW_MAX_ERROR, ARI_SAT_SAMPLES]; omega
  rw [Dev.countSample, getL_satL_apart _ _ _ _ (.inr (.inr (by simp [ARI_SHADOW_MAX_ERROR, ARI_SHADOW_EXCEEDED]))),
    getL_satL_apart _ _ _ _ (.inl hsamples)]

theorem getL_noteError {d : Dev} {p e : Nat} (layer : Nat) (hmax : d.getL (ARI_SHADOW_MAX_ERROR p) < e)
    (hfits : e < 2 ^ (ARI_SHADOW_MAX_ERROR p).w) : (d.noteError p layer e).getL (ARI_SHADOW_MAX_ERROR p) = e := by
  rw [Dev.noteError, if_pos hmax, getL_setL_apart _ _ _ _ (.inr (.inr (by simp [ARI_SHADOW_MAX_ERROR, ARI_SHADOW_MAX_LAYER]))),
    getL_setL_same _ _ _ (by simp [ARI_SHADOW_MAX_ERROR]), Nat.mod_eq_of_lt hfits]

theorem exec_shadowSampleSelect {s : State} {p layer core : Nat} (hp : p < 8) (hcore : core < 256)
    (hrate : s.dev.getB (ARI_SHADOW_CFG_RATE_LOG2 p) ≠ 0) (hsampled : (s.dev.layer p layer).sampled = true)
    (hjobs : 2 ^ s.dev.getB (ARI_SHADOW_CFG_RATE_LOG2 p) ≤ (s.dev.layer p layer).jobs) :
    Becomes (.shadowSampleSelect p layer core) s (s.dev.modLayer p layer fun y =>
      { y with jobs := y.jobs - 2 ^ s.dev.getB (ARI_SHADOW_CFG_RATE_LOG2 p), shadow := y.shadow + 1 }) :=
  becomes_onDev rfl (by simp [Instr.wf, hp, hcore]) (if_pos ⟨hrate, hsampled, hjobs⟩)

/-- A layer with a sample in work takes its error, and the running values count it. -/
theorem exec_shadowJobDone {s : State} {p layer : Nat} (y ref : List U32) (hp : p < 8) (hshadow : (s.dev.layer p layer).shadow ≠ 0) :
    let worse := decide (shadowError y ref > s.dev.threshold p (s.dev.layer p layer))
    Becomes (.shadowJobDone p layer y ref) s (((s.dev.modLayer p layer fun l =>
      { l with shadow := l.shadow - 1, samples := l.samples + 1, err := shadowError y ref, run := if worse then l.run + 1 else 0 }).countSample p
        worse).noteError p layer (shadowError y ref)) :=
  becomes_onDev rfl (decide_eq_true hp) (if_neg hshadow)

/-! ### The request that a layer rise (R197) -/

theorem exec_consecSamplesExceeded {s : State} {p layer : Nat} (hp : p < 8)
    (hrun : s.dev.getB (ARI_SHADOW_CFG_CONSEC p) ≤ (s.dev.layer p layer).run)
    (htop : (s.dev.layer p layer).level < (s.dev.layer p layer).top) :
    Becomes (.consecSamplesExceeded p layer) s ((s.dev.modLayer p layer fun y => { y with run := 0 }).escalate p layer) :=
  becomes_onDev rfl (decide_eq_true hp) (if_pos ⟨hrun, htop⟩)

/-- Settles O24: each row's guard holds under the clause's hypotheses; counting a sample keeps MAX_ERROR until its own error is noted. -/
theorem logitsAndShadowSamplesAct : Obligations.LogitsAndShadowSamplesAct := by
  intro s d
  refine ⟨fun loc shard z e v => exec_logitsShardArrival z, fun p layer core => exec_shadowSampleSelect,
    fun p layer y ref hp hshadow => ⟨_, exec_shadowJobDone y ref hp hshadow, ?_, ?_, ?_⟩, fun p layer => exec_consecSamplesExceeded⟩
  · rw [layer_of_ari ((noteError_ari _ p layer _).trans (countSample_ari _ p _)), layer_modLayer_same]
  · refine fun hmax => getL_noteError layer ?_
    rw [getL_countSample_maxError]
    exact hmax
  · exact congrArg (fun t : Dev => { t with ari := d.ari, live := d.live }) (noteError_frame _ p layer _)

end Sys2Proof.Machine
end

section
/-! SUPPORT and CERTIFICATES. 08_cores_placement_models.md: semaphores, their groups, and the operations of rings, cores and other devices
(R226–R229, R234). -/

namespace Sys2Proof.Machine

/-! ### What holders hold (R227) -/

@[simp] theorem Sem.setHeld_value (x : Sem) (h : Holder) (n : Nat) : (x.setHeld h n).value = x.value := rfl

@[simp] theorem Sem.setHeld_queue (x : Sem) (h : Holder) (n : Nat) : (x.setHeld h n).queue = x.queue := rfl

/-- A holder's entry, if its count is not 0, stands before the others', none of which is its own. -/
@[simp] theorem Sem.heldBy_setHeld_same (x : Sem) (h : Holder) (n : Nat) : (x.setHeld h n).heldBy h = n := by
  unfold Sem.heldBy Sem.setHeld
  by_cases hn : n = 0
  · have hnone : (x.held.filter fun e => e.1 != h).find? (fun e => e.1 == h) = none := by
      simp [List.find?_eq_none]
    simp [hn, hnone]
  · simp [hn]

/-! ### What the device's operations leave of its semaphores -/

theorem Quiet.plc_eq {d t : Dev} (h : Quiet d t) : t.plc = d.plc := (congrArg Dev.plc h : t.rest.plc = d.rest.plc)

theorem sem_of_plc {d t : Dev} (h : t.plc = d.plc) (n : Nat) : t.sem n = d.sem n := by rw [Dev.sem, Dev.sem, h]

theorem Quiet.sem_eq {d t : Dev} (h : Quiet d t) (n : Nat) : t.sem n = d.sem n := sem_of_plc h.plc_eq n

theorem sem_setSem (d : Dev) (n o : Nat) (x : Sem) : (d.setSem n x).sem o = if o = n then x else d.sem o := tgetD_tput _ _ _ _ _

theorem moveTokens_quiet (d : Dev) (sem a b n : Nat) : Quiet d (d.moveTokens sem a b n) := by
  unfold Dev.moveTokens
  split
  · exact move_quiet _ _ _ _ _ _ _
  · exact Quiet.refl d

theorem semAnswer_quiet (d : Dev) (who : Holder) (id sem op n : Nat) (applied : Bool) :
    Quiet d (d.semAnswer who id sem op n applied) := by
  cases who with
  | core c => exact Quiet.refl d
  | ring r =>
    unfold Dev.semAnswer
    dsimp only
    split
    · exact refuse_quiet _ _ _
    · exact ok_quiet _ _ _ _
  | remote dev part => exact emit_quiet _ _

/-! ### ACQUIRE (R227, R228) -/

/-- A grant takes the tokens for the holder, and changes no other semaphore. -/
theorem sem_semGrant (d : Dev) (sem : Nat) (w : SemWait) (o : Nat) : (d.semGrant sem w).sem o =
    if o = sem then ({ d.sem sem with value := (d.sem sem).value - w.n } : Sem).setHeld w.who ((d.sem sem).heldBy w.who + w.n)
    else d.sem o := by
  unfold Dev.semGrant
  rw [(semAnswer_quiet _ _ _ _ _ _ _).sem_eq, (moveTokens_quiet _ _ _ _ _).sem_eq, sem_setSem]

theorem semAcquire_grants {d : Dev} {sem : Nat} {w : SemWait} (t : Bool) (hqueue : (d.sem sem).queue = [])
    (hroom : w.n ≤ (d.sem sem).value) : d.semAcquire sem w t = d.semGrant sem w := by
  simp [Dev.semAcquire, hqueue, hroom]

/-- An ACQUIRE that may wait and finds a queue, or too few tokens, joins the end of the queue, and changes no other semaphore. -/
theorem sem_semAcquire_waits {d : Dev} {sem : Nat} {w : SemWait} (hwaits : (d.sem sem).queue ≠ [] ∨ (d.sem sem).value < w.n) (o : Nat) :
    (d.semAcquire sem w false).sem o = if o = sem then { d.sem sem with queue := (d.sem sem).queue ++ [w] } else d.sem o := by
  have hno : ¬((d.sem sem).queue.isEmpty && decide (w.n ≤ (d.sem sem).value)) = true := by
    simp only [Bool.and_eq_true, List.isEmpty_iff, decide_eq_true_eq, not_and_or, Nat.not_le]
    exact hwaits
  rw [← sem_setSem]
  unfold Dev.semAcquire
  dsimp only
  rw [if_neg hno, if_neg Bool.false_ne_true]
  refine sem_of_plc ?_ o
  cases w.who with
  | core c => dsimp only; split <;> rfl
  | ring r => rfl
  | remote dev part => rfl

/-! ### RELEASE (R227) -/

/-- What a holder holds of one semaphore of a group counts in what it holds of the group. -/
theorem heldBy_le_groupHeld (d : Dev) {f count sem : Nat} (h : Holder) (hf : f ≤ sem) (hlt : sem < f + count) :
    (d.sem sem).heldBy h ≤ d.groupHeld f count h := by
  refine List.le_sum_of_mem (List.mem_map.2 ⟨sem - f, List.mem_range.2 (by omega), ?_⟩)
  rw [Nat.add_sub_cancel' hf]

/-- Lowering a holder's counts touches the named semaphores alone. -/
theorem sem_takeHeld_other (h : Holder) {o : Nat} : ∀ (l : List Nat) (d : Dev) (n : Nat), o ∉ l → (d.takeHeld h l n).sem o = d.sem o
  | [], _, _, _ => rfl
  | s :: r, d, n, hl => by
    obtain ⟨hs, hr⟩ := not_or.1 (mt List.mem_cons.2 hl)
    rw [Dev.takeHeld, sem_takeHeld_other h r _ _ hr, sem_setSem, if_neg hs]

/-- The first named semaphore gives as many tokens as it can (log 27). -/
theorem sem_takeHeld_first (d : Dev) (h : Holder) {s n : Nat} {r : List Nat} (hr : s ∉ r) (hn : n ≤ (d.sem s).heldBy h) :
    (d.takeHeld h (s :: r) n).sem s = (d.sem s).setHeld h ((d.sem s).heldBy h - n) := by
  rw [Dev.takeHeld, sem_takeHeld_other h r _ _ hr, sem_setSem, if_pos rfl, Nat.min_eq_left hn]

theorem semDrain_empty {d : Dev} {sem : Nat} (h : (d.sem sem).queue = []) : d.semDrain (d.sem sem).queue.length sem = d := by
  rw [h]; rfl

/-- The semaphores of a group but one, in rising order. -/
def othersOf (first count sem : Nat) : List Nat :=
  (List.range count).filterMap fun i => if first + i = sem then none else some (first + i)

theorem notMem_othersOf (first count sem : Nat) : sem ∉ othersOf first count sem := by
  unfold othersOf
  rw [List.mem_filterMap]
  rintro ⟨i, -, hi⟩
  split at hi
  · cases hi
  · next hne => exact hne (Option.some.inj hi)

/-- The tokens of a RELEASE, lowered at their holder, go into the semaphore's value, and the holder is answered. -/
def Dev.putBack (d : Dev) (sem : Nat) (w : SemWait) : Dev :=
  ((d.setSem sem { d.sem sem with value := (d.sem sem).value + w.n }).moveTokens sem w.who.place 0 w.n).semAnswer w.who w.id sem 2 w.n true

theorem sem_putBack_same (d : Dev) (sem : Nat) (w : SemWait) :
    (d.putBack sem w).sem sem = { d.sem sem with value := (d.sem sem).value + w.n } := by
  rw [Dev.putBack, (semAnswer_quiet _ _ _ _ _ _ _).sem_eq, (moveTokens_quiet _ _ _ _ _).sem_eq, sem_setSem, if_pos rfl]

/-- A RELEASE of no more tokens than its holder holds of the group (R227). -/
theorem semRelease_within {d : Dev} {sem f : Nat} {g : SemGroup} {w : SemWait} (hgroup : d.groupOf sem = some (f, g))
    (hheld : w.n ≤ d.groupHeld f g.count w.who) :
    let t := (d.takeHeld w.who (sem :: othersOf f g.count sem) w.n).putBack sem w
    d.semRelease sem w = t.semDrain (t.sem sem).queue.length sem := by
  simp only [Dev.semRelease, hgroup, if_neg (Nat.not_lt.2 hheld)]
  rfl

/-- A RELEASE of tokens that its holder holds of the semaphore gives them back; nobody waits for them. -/
theorem sem_semRelease {d : Dev} {sem f : Nat} {g : SemGroup} {w : SemWait} (hgroup : d.groupOf sem = some (f, g)) (hf : f ≤ sem)
    (hlt : sem < f + g.count) (hqueue : (d.sem sem).queue = []) (hheld : w.n ≤ (d.sem sem).heldBy w.who) :
    (d.semRelease sem w).sem sem =
      { (d.sem sem).setHeld w.who ((d.sem sem).heldBy w.who - w.n) with value := (d.sem sem).value + w.n } := by
  have hback := sem_putBack_same (d.takeHeld w.who (sem :: othersOf f g.count sem) w.n) sem w
  rw [sem_takeHeld_first d w.who (notMem_othersOf f g.count sem) hheld, Sem.setHeld_value] at hback
  rw [semRelease_within hgroup (hheld.trans (heldBy_le_groupHeld d w.who hf hlt)), semDrain_empty (by rw [hback]; exact hqueue), hback]

/-- Settles O26: an ACQUIRE is granted or joins the queue; a RELEASE takes its tokens from the semaphore itself (log 27). -/
theorem semaphoreTokensMove : Obligations.SemaphoreTokensMove := by
  intro d sem w t x
  refine ⟨fun hqueue hroom => ?_, fun hwaits => ⟨?_, fun o ho => ?_⟩, fun f g hgroup hf hlt hqueue hheld => ?_⟩
  · rw [Dev.semApply, semAcquire_grants t hqueue hroom]
    refine ⟨?_, ?_, fun o ho => ?_⟩
    · rw [sem_semGrant, if_pos rfl, Sem.setHeld_value]
    · rw [sem_semGrant, if_pos rfl, Sem.heldBy_setHeld_same]
    · rw [sem_semGrant, if_neg ho]
  · rw [Dev.semApply, sem_semAcquire_waits hwaits, if_pos rfl]
  · rw [Dev.semApply, sem_semAcquire_waits hwaits, if_neg ho]
  · rw [Dev.semApply, sem_semRelease hgroup hf hlt hqueue hheld]
    exact ⟨rfl, Sem.heldBy_setHeld_same _ _ _⟩

/-! ### SEM_GROUP_CREATE, SEM_GROUP_DESTROY (R226, R234) -/

/-- The group that descriptor `e` asks for, from semaphore `f`: homed here, its tokens those of its semaphores. -/
def DescEntry.askedGroup (e : DescEntry) (f home : Nat) : SemGroup :=
  { part := e.part, first := f, count := fieldAt e.d 18 1, total := fieldAt e.d 18 1 * fieldAt e.d 20 4, home := home }

/-- A group is created where it is asked for, if that run is free, or in the lowest free run. -/
theorem doSemCreate_creates {d : Dev} (k : Nat) {e : DescEntry} {f : Nat}
    (hrun : (fieldAt e.d 16 2 = 0xFFFF ∧ d.freeSems e.part (fieldAt e.d 18 1) = some f) ∨
      (fieldAt e.d 16 2 = f ∧ f ≠ 0xFFFF ∧ d.runFree e.part f (fieldAt e.d 18 1) = true)) :
    doSemCreate d k e =
      (d.newGroup f (e.askedGroup f d.id) (List.replicate (fieldAt e.d 18 1) (fieldAt e.d 20 4))).ok k (BitVec.ofNat 64 f) 0 := by
  obtain ⟨hany, hfree⟩ | ⟨rfl, hnamed, hfree⟩ := hrun
  · simp only [doSemCreate, if_pos hany, hfree, DescEntry.askedGroup]
  · simp only [doSemCreate, if_neg hnamed, if_pos hfree, DescEntry.askedGroup]

/-- A group that serves no job, of whose tokens none is held or waited for, leaves the banks. -/
theorem doSemDestroy_ends {d : Dev} (k : Nat) {e : DescEntry} {g : SemGroup} (hg : tget d.plc.group (fieldAt e.d 16 2) = some g)
    (hjob : g.job = none)
    (hquiet : ∀ i, i < g.count → (d.sem (fieldAt e.d 16 2 + i)).held = [] ∧ (d.sem (fieldAt e.d 16 2 + i)).queue = []) :
    doSemDestroy d k e = (d.endGroup (fieldAt e.d 16 2) g).ok k 0 0 := by
  have hidle : ((List.range g.count).any fun i =>
      !(d.sem (fieldAt e.d 16 2 + i)).held.isEmpty || !(d.sem (fieldAt e.d 16 2 + i)).queue.isEmpty) = false := by
    rw [List.any_eq_false]
    intro i hi
    obtain ⟨hheld, hqueue⟩ := hquiet i (List.mem_range.1 hi)
    simp [hheld, hqueue]
  simp only [doSemDestroy, hg, hjob, hidle, Option.isSome_none, Bool.or_self, Bool.false_eq_true, if_false]

/-! ### Operations of other devices, and their answers (R229) -/

theorem exec_semaphoreOperation_applies {s : State} {m : SemMsg} {f : Nat} {g : SemGroup} (hgroup : s.dev.groupOf m.sem = some (f, g))
    (hdomain : g.domain = true) (hhome : g.home = s.dev.id) (hpart : g.part = m.part) : Becomes (.semaphoreOperation m) s
      (s.dev.semApply m.sem m.op { who := .remote m.dev m.part, id := m.tag.toNat, n := m.n } m.try_) := by
  refine becomes_onDev (Eq.refl (execSemaphoreOperation m s)) rfl ?_
  simp only [hgroup, hdomain, hhome, hpart, beq_self_eq_true, Bool.and_self, if_true]

/-- The home's answer, unless it refuses a RELEASE, is noted and completes the SEM_OP that waits for it. -/
theorem exec_semaphoreReply_completes {s : State} {m : SemMsg} {y : DescEntry} {w : Nat} (hy : tget s.dev.rng.descs m.tag.toNat = some y)
    (hop : y.op = 0x45) (hst : y.st = .waiting (.semaphore w)) (hhome : semHome s.dev y.d = some m.dev) (hlost : m.lost = false)
    (hdone : m.op ≠ 2 ∨ m.applied = true) :
    Becomes (.semaphoreReply m) s
      ((if m.applied && m.op != 3 then s.dev.noteRemote y.ring m.dev m.sem (fieldAt y.d 24 4) (m.op == 1) else s.dev).ok m.tag.toNat
        (BitVec.ofNat 64 m.value) (if m.applied then 1 else 0)) := by
  have hkept : ¬(m.op = 2 && !m.applied) = true := by
    obtain hne | happlied := hdone
    · simp [hne]
    · simp [happlied]
  refine becomes_onDev (Eq.refl (execSemaphoreReply m s)) rfl ?_
  simp only [hy, hop, hst, hhome, hlost, if_neg hkept, ne_eq, not_true_eq_false, decide_false, Bool.not_true, bne_self_eq_false, Bool.or_self,
    Bool.false_eq_true, if_false]

/-- Settles O25: each row's guard holds under the clause's hypotheses, and its effect is the clause's. -/
theorem semaphoreCommandsTakeEffect : Obligations.SemaphoreCommandsTakeEffect := by
  intro s n x k e hn d sem
  have hwf := decide_eq_true hn
  refine ⟨fun f h hchk hrun => ?_, fun g h howned hg hjob hquiet => ?_, fun h hchk => ?_,
    fun m f g => exec_semaphoreOperation_applies, fun m y w => exec_semaphoreReply_completes⟩
  all_goals obtain ⟨rfl, -, rfl, -⟩ := ready_facts h
  · exact op_becomes h rfl hwf hchk (doSemCreate_creates k hrun)
  · refine op_becomes h rfl hwf ?_ (doSemDestroy_ends k hg hjob hquiet)
    simp only [howned, hg, Bool.not_true, Option.isNone_some, Bool.false_eq_true, if_false, d, sem]
  · exact op_becomes h rfl hwf hchk rfl

end Sys2Proof.Machine
end

section
/-! SUPPORT and CERTIFICATES. 14_checkpoint_shrink.md: the checkpoint opcodes, the probes that checkpoints share with job switches
(08 R218), and what moves a checkpoint on or ends it (R364–R383). -/

namespace Sys2Proof.Machine

/-! ### The opcodes (R364, R367, R381) -/

/-- A CKPT_START that is in order reads the list of its regions, and that of extra ones, if it names any. -/
theorem doCkptStart_reads {d : Dev} (k : Nat) {e : DescEntry}
    (hst : d.ckptStatus e.part (hSlot e.d.target) (fieldAt e.d 16 4) = stOk) :
    let n := (((d.job e.part (hSlot e.d.target)).sect.map fun c => c.devices.length)).getD 1
    let t := d.emitFor e.part (.hostRead e.part (BitVec.ofNat 64 (fieldAt e.d 24 8)) (8 * n))
    doCkptStart d k e = (if fieldAt e.d 48 1 = 0 then t
      else t.emitFor e.part (.hostRead e.part (BitVec.ofNat 64 (fieldAt e.d 40 8)) (8 * fieldAt e.d 48 1))).wait k .hostRead :=
  if_neg (not_not_intro hst)

/-- A kept checkpoint that nothing writes is released, and the pool pages that it gives back are counted. -/
theorem doCkptRelease_releases {d : Dev} (k : Nat) {e : DescEntry} {l : U64} (hl : (d.job e.part (hSlot e.d.target)).hdr.ladder = l)
    (hone : fieldAt e.d 20 1 % 2 = 0)
    (hidle : (d.ckp.now.any fun z => (d.job z.1 z.2.job).hdr.ladder == l && fieldAt e.d 16 4 == z.2.id) = false)
    (hkept : (d.ckp.kept.any fun z => z.part == e.part && z.ladder == l && z.id == fieldAt e.d 16 4) = true) :
    let r := d.releaseKept fun z => z.part == e.part && z.ladder == l && z.id == fieldAt e.d 16 4
    doCkptRelease d k e = r.1.ok k (BitVec.ofNat 64 r.2) 0 := by
  have hadmits : ¬((d.ckp.now.any fun z => (d.job z.1 z.2.job).hdr.ladder == l &&
      ((some (fieldAt e.d 16 4)).isNone || some (fieldAt e.d 16 4) == some z.2.id)) ||
      !(d.ckp.kept.any fun z => z.part == e.part && z.ladder == l && z.id == fieldAt e.d 16 4)) = true := by
    simp only [Option.isNone_some, Option.some_beq_some, Bool.false_or, hidle, hkept, Bool.not_true, Bool.false_eq_true, not_false_eq_true]
  simp only [doCkptRelease, hl, hone, Nat.zero_ne_one, if_false, if_neg hadmits]

/-- CONTINUE alone ends the hold of the active job. -/
theorem doCkptRestore_continues {d : Dev} (k : Nat) {e : DescEntry} (hwhat : fieldAt e.d 30 1 = 8) (hadopt : fieldAt e.d 48 4 = 0)
    (hact : (d.job e.part (hSlot e.d.target)).st = .active) (hheld : (d.stepP e.part).lossHeld = true) :
    doCkptRestore d k e = (d.endLossHold e.part).ok k 0 0 := by
  simp only [doCkptRestore, hwhat, hadopt, hact, hheld, and_self, decide_true, Bool.and_self, if_true]

/-- Anything else of a job that may be restored reads the manifest, and the ADOPT list, if there is one. -/
theorem doCkptRestore_reads {d : Dev} (k : Nat) {e : DescEntry} (hmore : fieldAt e.d 30 1 ≠ 8 ∨ fieldAt e.d 48 4 ≠ 0)
    (hmay : d.restorable e.part (hSlot e.d.target) = true) :
    let t := d.emitFor e.part (.hostRead e.part (BitVec.ofNat 64 (fieldAt e.d 16 8)) (fieldAt e.d 24 4))
    doCkptRestore d k e = (if fieldAt e.d 48 4 = 0 then t
      else t.emitFor e.part (.hostRead e.part (BitVec.ofNat 64 (fieldAt e.d 40 8)) (8 * fieldAt e.d 48 4))).wait k .hostRead := by
  simp only [doCkptRestore, if_neg (not_and_or.2 hmore), hmay, Bool.not_true, Bool.false_eq_true, if_false]

/-! ### Probes (08 R218, 14 R369) -/

section

variable {s : State} {p src : Nat} (hp : p < 8) (hsrc : src < 4096)

include hp hsrc

/-- A device that holds the image LOADED says so. -/
theorem exec_switchProbe_holds {image : Digest} {i : Nat}
    (hi : ((List.range 4).find? fun i => (s.dev.job p i).st == .loaded && (s.dev.job p i).full == image) = some i) :
    Becomes (.switchProbe p src (.job image)) s (s.dev.emit (.ctrl src (.probeAnswer p (s.dev.posIn p i) true))) := by
  refine becomes_onDev rfl (by simp [Instr.wf, hp, hsrc]) ?_
  simp only [hi]

/-- A device whose region is fit takes the checkpoint up, and says so. -/
theorem exec_switchProbe_fit {region : U64} {id mode peat : Nat} {extra : List U64} {i : Nat} {c : Ckpt}
    (hact : s.dev.activeSlot p = some i) (hnone : s.dev.ckpt p = none)
    (hc : { desc := none, job := i, id := id, mode := mode, peat := peat, extra := extra, pos := s.dev.posIn p i, region := hRegion region } = c)
    (hfit : s.dev.shardFit p c region = true) :
    Becomes (.switchProbe p src (.ckpt region id mode peat extra)) s
      ((s.dev.setCkpt p c).emit (.ctrl src (.probeAnswer p c.pos true))) := by
  refine becomes_onDev rfl (by simp [Instr.wf, hp, hsrc]) ?_
  subst hc
  simp only [hact, hnone, hfit, Option.isNone_none, Bool.and_self, if_true]

end

/-! ### What moves a checkpoint on or ends it (R369, R372, R373) -/

section

variable {s : State} {p : Nat} {c : Ckpt} (hp : p < 8) (hc : s.dev.ckpt p = some c)

include hp hc

/-- HOLDUP_WAIT_EXPIRY abandons a checkpoint that waits for energy. -/
theorem exec_holdupWaitExpiry_abandons (hphase : c.phase = 3) :
    Becomes (.holdupWaitExpiry p) s ((s.dev.flag CKP_STATUS_HOLDUP_DEFER CKP_STATUS_DEFER_COUNT).abandon p stHoldup) := by
  refine becomes_onDev rfl (decide_eq_true hp) ?_
  simp only [hc, hphase, if_true]

variable {k : Nat} (hswitch : s.dev.probing p = none) (hdesc : c.desc = some k)

include hswitch hdesc

/-- At the root a device that confirms is no longer asked, and the last one lets the cut be listed; one that is unfit ends the checkpoint. -/
theorem exec_probeAnswer_ckpt {pos : Nat} (hpos : pos < 256) (hasked : c.asked.contains pos = true) :
    let y := { c with asked := c.asked.filter fun q => q != pos }
    Becomes (.probeAnswer p pos true) s (if y.asked.isEmpty then (s.dev.setCkpt p y).listCut p else s.dev.setCkpt p y) ∧
    Becomes (.probeAnswer p pos false) s ((s.dev.dropCkpt p).failOpen k stBad (some (BitVec.ofNat 32 pos))) := by
  constructor
  all_goals
    refine becomes_onDev rfl (by simp [Instr.wf, hp, hpos]) ?_
    simp only [hswitch, hc, hdesc, hasked, Option.isNone_some, Bool.not_true, Bool.or_self, Bool.false_eq_true, if_false, if_true]

/-- Without every answer in time the checkpoint ends. -/
theorem exec_switchProbeTimeout_ckpt (hasked : c.asked ≠ []) :
    Becomes (.switchProbeTimeout p) s ((s.dev.dropCkpt p).failOpen k stPeer none) := by
  refine becomes_onDev rfl (decide_eq_true hp) ?_
  simp only [hswitch, hc, hdesc, List.isEmpty_eq_false_iff.2 hasked, Bool.false_eq_true, if_false]

end

/-- Settles O40: each row's guard holds under the clause's hypotheses, and its effect is the clause's. -/
theorem checkpointCommandsTakeEffect : Obligations.CheckpointCommandsTakeEffect := by
  intro s n x k e hn d slot host
  have hwf := decide_eq_true hn
  refine ⟨fun h hchk hst => ?_, fun h hjob hone hidle hkept => ?_,
    fun h hchk => ⟨fun hwhat hadopt hact hheld => ?_, fun hmore hmay => ?_⟩, fun h hmin hmax => ?_,
    fun p src image i hp hsrc => exec_switchProbe_holds hp hsrc,
    fun p src region id mode peat extra i hp hsrc hact hnone => exec_switchProbe_fit hp hsrc hact hnone rfl,
    fun p pos c k hp hpos hswitch hc hdesc hasked => exec_probeAnswer_ckpt hp hc hswitch hdesc hpos hasked,
    fun p c k hp hswitch hc => exec_switchProbeTimeout_ckpt hp hc hswitch,
    fun p pos ses len addr key digest hp hpos => becomes_onDev rfl (by simp [Instr.wf, hp, hpos]) rfl,
    fun p c => exec_holdupWaitExpiry_abandons⟩
  all_goals obtain ⟨-, -, rfl, -⟩ := ready_facts h
  · exact op_becomes h rfl hwf hchk (doCkptStart_reads k hst)
  · refine op_becomes h rfl hwf ?_ (doCkptRelease_releases k rfl hone hidle hkept)
    have hrange : ¬(fieldAt e.d 20 1 % 2 = 1 ∧ fieldAt e.d 16 4 ≠ 0) := fun hall => by omega
    exact (if_neg (not_not_intro hjob)).trans (if_neg hrange)
  · exact op_becomes h rfl hwf hchk (doCkptRestore_continues k hwhat hadopt hact hheld)
  · exact op_becomes h rfl hwf hchk (doCkptRestore_reads k hmore hmay)
  · exact op_becomes h rfl hwf (if_neg (by omega)) rfl

end Sys2Proof.Machine
end

section
/-! SUPPORT and CERTIFICATES. 09_token_engine.md: the opcodes that bind the token region, load a job's vocabulary, and set classes, profiles,
lists, sets and seeds (R238, R240, R250, R262). -/

namespace Sys2Proof.Machine

/-! ### TOK_BIND (R250) -/

/-- The device with the regions of partition `p`'s lists let go. -/
def Dev.unbindLists (d : Dev) (p : Nat) : Dev :=
  (d.tokp p).lists.foldl (fun (t : Dev) (l : Nat × TokList) => t.modRegion l.2.region fun r => { r with bound := false }) d

section

variable {d : Dev} (k : Nat) {e : DescEntry} {p : Nat} {h : U64} (hp : e.part = p) (hh : BitVec.ofNat 64 (fieldAt e.d 16 8) = h)

include hp hh

/-- A region that nothing holds becomes the token region: its frames are the token engine's, its first six tiles hold the token state, and the
rest of it is cleared. -/
theorem doTokBind_binds {r : Region} (hne : h ≠ 0) (hr : d.region (hRegion h) = some r) (hnone : (d.tokp p).bound = none)
    (hbound : r.bound = false) (hopen : r.isSealed = false) :
    let z := List.replicate tileSize (0 : Byte)
    let t := (((d.modRegion (hRegion h) fun r => { r with bound := true }).moveFrames p 2 3 r.tiles).modTok p fun _ =>
      { bound := some (hRegion h) }).setReg (TOK_BIND p) h
    let u := (List.range (min 6 r.tiles)).foldl (fun t i => t.syncTok p i) t
    doTokBind d k e = ((List.range (r.tiles - 6)).foldl (fun (t : Dev) i =>
      t.engineTileWith (hRegion h) (i + 6) z (crc64 z) (crc32c z)) u).ok k 0 0 := by
  simp only [doTokBind, hp, hh, if_neg hne, hr, hnone, hbound, hopen, Option.isSome_none, Bool.or_self, Bool.false_eq_true, if_false]

/-- Without open sessions the handle 0 lets the token region and the regions of its lists go. -/
theorem doTokBind_lets_go (hzero : h = 0) (hnone : (d.sesWhere p fun y => y.st != .free) = []) :
    let t := match (d.tokp p).bound with
      | some m => (d.unbindLists p).modRegion m fun r => { r with bound := false }
      | none => d
    let u := match (d.tokp p).bound with
      | some m => t.moveFrames p 3 2 (((d.unbindLists p).region m).elim 0 fun r => r.tiles)
      | none => t
    doTokBind d k e = ((u.modTok p fun _ => {}).setReg (TOK_BIND p) 0).ok k 0 0 := by
  have hadmits : ¬(!(d.sesWhere p fun y => y.st != .free).isEmpty) = true := by simp [hnone]
  cases hbound : (d.tokp p).bound with
  | none => simp only [doTokBind, hp, hh, if_pos hzero, if_neg hadmits, hbound]
  | some m => simp only [doTokBind, hp, hh, if_pos hzero, if_neg hadmits, hbound, Dev.unbindLists]

/-! ### VOCAB_LOAD (R238–R240) -/

/-- A loaded job without a vocabulary takes the one of an image whose tiles and layout are in order, if its shards reach, no class of the job
elides by a token that it lacks, and the frames are free. -/
theorem doVocabLoad_loads {r : Region} {i : Nat} {j : Job} {v : Vocab} (hi : hSlot e.d.target = i) (hj : d.job p i = j)
    (hv : parseVocab (r.bytes.take (fieldAt e.d 24 8)) = v) (hr : d.region (hRegion h) = some r)
    (htiles : ∀ t, t < r.tiles → (r.at t).bad = 0) (hlen : fieldAt e.d 24 8 ≤ tileSize * r.tiles) (hst : j.st = .loaded)
    (hnone : j.vocab = none) (hfaults : vocabFaults (r.bytes.take (fieldAt e.d 24 8)) = [])
    (hshards : v.shards ≤ j.sect.elim 0 fun c => c.shards)
    (hcls : ∀ c, c < 64 → j.hdr.classes.getLsbD c = true → ∀ q, tget (d.tokp p).cls c = some q →
      q.contextMax = 0 ∨ q.elision < v.tokens.length)
    (hframes : v.frames ≤ d.freeFrames p) :
    doVocabLoad d k e = ((d.moveFrames p 0 3 v.frames).modJob p i fun j => { j with vocab := some v }).ok k
      (BitVec.ofNat 64 v.tokens.length) 0 := by
  have hread : ((List.range r.tiles).find? fun t => (r.at t).bad != 0) = none :=
    List.find?_eq_none.2 fun t ht => by simp [htiles t (List.mem_range.1 ht)]
  have hclasses : ((List.range 64).any fun c => j.hdr.classes.getLsbD c && (tget (d.tokp p).cls c).any fun q =>
      decide (q.contextMax > 0 ∧ q.elision ≥ v.tokens.length)) = false := by
    simp only [List.any_eq_false, Bool.and_eq_true, Option.any_eq_true, decide_eq_true_eq, not_and]
    rintro c hc hserved ⟨q, hq, hmax, helision⟩
    have := hcls c (List.mem_range.1 hc) hserved q hq
    omega
  simp only [doVocabLoad, hp, hh, hi, hj, hr, hv, hst, hnone, hread, hfaults, hclasses, if_neg (Nat.not_lt.2 hlen),
    decide_eq_false (Nat.not_lt.2 hshards), if_neg (Nat.not_lt.2 hframes), reduceCtorEq, Option.isSome_none, Bool.or_self,
    Bool.false_eq_true, or_self, if_false]

end

/-! ### Classes, profiles, lists, sets and seeds (R262) -/

section

variable {d : Dev} (k : Nat) {e : DescEntry}

/-- A set whose list numbers are free or name loaded lists of their kinds is defined. -/
theorem doListsetDefine_defines (hbound : (d.tokp e.part).bound.isSome = true)
    (hnew : tget (d.tokp e.part).sets (fieldAt e.d 16 2) = none)
    (hlists : ∀ i, i < 3 → (d.tokp e.part).listOk (fieldAt e.d (18 + 2 * i) 2) i = true) :
    doListsetDefine d k e = ((d.modTok e.part fun t =>
      { t with sets := tput t.sets (fieldAt e.d 16 2) (fieldAt e.d 18 2, fieldAt e.d 20 2, fieldAt e.d 22 2) }).syncTok e.part 0).ok k 0 0 := by
  simp only [doListsetDefine, Option.isNone_eq_false_iff.2 hbound, hnew, hlists 0 (by decide), hlists 1 (by decide), hlists 2 (by decide),
    Option.isSome_none, Bool.not_true, Bool.or_self, Bool.false_eq_true, if_false]

/-- A list that no set names is freed, and its region let go. -/
theorem doListFree_frees_list (hwhat : fieldAt e.d 16 1 = 0)
    (hunnamed : ((d.tokp e.part).sets.any fun y =>
      y.2.1 == fieldAt e.d 18 2 || y.2.2.1 == fieldAt e.d 18 2 || y.2.2.2 == fieldAt e.d 18 2) = false) :
    doListFree d k e = (((match tget (d.tokp e.part).lists (fieldAt e.d 18 2) with
      | some l => d.modRegion l.region fun r => { r with bound := false }
      | none => d).modTok e.part fun t => { t with lists := tdel t.lists (fieldAt e.d 18 2) }).syncTok e.part 1).ok k 0 0 := by
  cases hlist : tget (d.tokp e.part).lists (fieldAt e.d 18 2) with
  | none => simp only [doListFree, if_pos hwhat, hunnamed, hlist, Bool.false_eq_true, if_false]
  | some l => simp only [doListFree, if_pos hwhat, hunnamed, hlist, Bool.false_eq_true, if_false]

/-- A set that no armed generation names is freed. -/
theorem doListFree_frees_set (hwhat : fieldAt e.d 16 1 = 1) (hunarmed : d.setArmed e.part (fieldAt e.d 18 2) = false) :
    doListFree d k e =
      ((d.modTok e.part fun t => { t with sets := tdel t.sets (fieldAt e.d 18 2) }).syncTok e.part 0).ok k 0 0 := by
  simp only [doListFree, hwhat, Nat.one_ne_zero, hunarmed, Bool.false_eq_true, if_false]

/-- A session without an armed generation takes the seed; the old one is answered. The tile of its record is the same before and after. -/
theorem doTokSeed_seeds {loc : Nat} (hloc : hLocal e.d.target = loc) (hgen : (d.ses loc).genArmed = false)
    (hbound : (d.tokp e.part).bound.isSome = true) :
    doTokSeed d k e = ((d.modGen loc fun r => { r with seed := BitVec.ofNat 64 (fieldAt e.d 16 8) }).syncTok e.part (d.genTile loc)).ok k
      (d.genRec loc).seed 0 := by
  simp only [doTokSeed, hloc, hgen, Option.isNone_eq_false_iff.2 hbound, Bool.or_self, Bool.false_eq_true, if_false]
  rfl

/-- The numbers of a LISTSET_DEFINE are in their ranges (Table 09.5). -/
theorem listsetNumbers_inRange {x : Desc} (hset : fieldAt x 16 2 ≤ 4095)
    (hlists : ∀ i, i < 3 → fieldAt x (18 + 2 * i) 2 ≤ 4095 ∨ fieldAt x (18 + 2 * i) 2 = 0xFFFF) :
    ¬(fieldAt x 16 2 > 4095 ∨ ((List.range 3).any fun i =>
      decide (fieldAt x (18 + 2 * i) 2 > 4095) && fieldAt x (18 + 2 * i) 2 != 0xFFFF) = true) := by
  rintro (hbig | hany)
  · omega
  · obtain ⟨i, hi, hbad⟩ := List.any_eq_true.1 hany
    simp only [Bool.and_eq_true, decide_eq_true_eq, bne_iff_ne] at hbad
    have := hlists i (List.mem_range.1 hi)
    omega

end

/-- Settles O23: each opcode's checks pass, and its effect is the clause's. -/
theorem tokenOpcodesTakeEffect : Obligations.TokenOpcodesTakeEffect := by
  intro s n x k e hn d p i
  have hwf := decide_eq_true hn
  refine ⟨fun r h hne hst hr hfits hnone hbound hopen => ?_, fun h hzero hnone => ?_,
    fun r h hjob hst hr hsealed htier hwback htiles hlen hload hnone hfaults hshards hcls hframes => ?_, fun h hchk hbound => ?_,
    fun h hchk hbound => ?_, fun h hchk hst => ?_, fun h hset hrange hbound hnew hlists => ?_,
    fun h hnum => ⟨fun hwhat hunnamed => ?_, fun hwhat hunarmed => ?_⟩, fun h hses hgen hbound => ?_⟩
  all_goals obtain ⟨-, -, rfl, -⟩ := ready_facts h
  -- TOK_BIND and VOCAB_LOAD check the region in their bodies as other opcodes check the one in TARGET.
  · exact op_becomes h rfl hwf ((if_neg hne).trans (chkRegion_eq_ok (x := { e.d with target := i }) hst hr hfits))
      (doTokBind_binds k rfl rfl hne hr hnone hbound hopen)
  · exact op_becomes h rfl hwf (if_pos hzero) (doTokBind_lets_go k rfl rfl hzero hnone)
  · refine op_becomes h rfl hwf ((if_neg (not_not_intro hjob)).trans (chkRegion_eq_ok (x := { e.d with target := i })
      (ok := fun r => r.isSealed && r.homeTier == 1 && !r.wback) hst hr ?_))
      (doVocabLoad_loads k rfl rfl rfl rfl rfl hr htiles hlen hload hnone hfaults hshards hcls hframes)
    simp [hsealed, htier, hwback]
  · exact op_becomes h rfl hwf hchk (if_neg (Bool.eq_false_iff.1 (Option.isNone_eq_false_iff.2 hbound)))
  · exact op_becomes h rfl hwf hchk (if_neg (Bool.eq_false_iff.1 (Option.isNone_eq_false_iff.2 hbound)))
  · exact op_becomes h rfl hwf hchk (if_neg (not_not_intro hst))
  · exact op_becomes h rfl hwf (if_neg (listsetNumbers_inRange hset hrange)) (doListsetDefine_defines k hbound hnew hlists)
  · exact op_becomes h rfl hwf (if_neg (by omega)) (doListFree_frees_list k hwhat hunnamed)
  · exact op_becomes h rfl hwf (if_neg (by omega)) (doListFree_frees_set k hwhat hunarmed)
  · exact op_becomes h rfl hwf hses (doTokSeed_seeds k rfl hgen hbound)

end Sys2Proof.Machine
end

section
/-! SUPPORT and CERTIFICATES. 10_reed_vector_search.md: the opcodes of an index (R271–R276, R282, R286, R287), queries (R278, R284) and
merges (R282, R283). -/

namespace Sys2Proof.Machine

/-! ### INDEX_CREATE, INDEX_DESTROY (R271, R287) -/

section

variable {d : Dev} (k : Nat) {e : DescEntry}

/-- An index takes the number that is next, and binds its regions; a catalogue then reads its codebook. -/
theorem doIndexCreate_binds {j : Nat} {nums : Numbers}
    (hnum : (tgetD d.red.numbers e.part {}).take (d.getF (RED_PART_FIRST e.part)) (d.getF (RED_PART_COUNT e.part)) = some (j, nums)) :
    let g := nextGen (tgetD d.red.gens j 0) 0x7FFFFFF
    let y := indexOf g e.part e.d
    let t := ({ d with red := { d.red with
      index := tput d.red.index j y, numbers := tput d.red.numbers e.part nums, gens := tput d.red.gens j g } } : Dev).bindReed y true
    doIndexCreate d k e =
      if y.memory then (t.reedSync j [0] []).ok k (mkHandle t.id e.part g j) 0
      else
        let u := t.emitFor e.part (.hostRead e.part (BitVec.ofNat 64 (fieldAt e.d 32 8)) (512 * y.dim))
        (u.modDesc k fun z => { z with result := mkHandle u.id e.part g j }).wait k .hostRead := by
  simp only [doIndexCreate, hnum]

/-- An index that no session names starts to go, and goes once nothing uses it. -/
theorem doIndexDestroy_marks_dying {i : Nat} {y : Index} (hi : hLocal e.d.target = i) (hy : d.index i = some y) (hnames : y.names = 0) :
    doIndexDestroy d k e = ((d.modIndex i fun z => { z with dying := true }).wait k (.indexDown i)).reedSettle i := by
  simp only [doIndexDestroy, hi, hy, hnames, gt_iff_lt, Nat.lt_irrefl, if_false]

/-- A query whose pages lie within its partition's quota waits for a reed. -/
theorem doVecQuery_waits {y : Index} (hy : d.index (d.queryIndex e.d) = some y)
    (hpages : y.pages (fieldAt e.d 34 2) (fieldAt e.d 36 2) (fieldAt e.d 38 2) ≤ d.getF (RED_QUOTA_PAGES e.part)) :
    doVecQuery d k e = (d.wait k (.query (d.queryIndex e.d))).showReed e.part := by
  simp only [doVecQuery, hy, if_neg (Nat.not_lt.2 hpages)]

end

/-! ### VEC_INSERT, INDEX_MERGE, INDEX_STAT on an index (R274, R282, R286) -/

section

/- A descriptor of ring `n` whose TARGET is index `y`. -/
variable {s : State} {n k i : Nat} {e : DescEntry} {y : Index} (hn : n < 4096) (hi : hLocal e.d.target = i) (hy : s.dev.index i = some y)

include hn hi hy

/-- VEC_INSERT reads as many records as it counts, each of the index's size. -/
theorem exec_vecInsert_reads (h : s.dev.Ready 0x62 n e.d k e) (hchk : chkMutation s.dev e.part e.d 32 4096 = stOk) :
    Becomes (.vecInsert n e.d) s ((s.dev.emitFor e.part
      (.hostRead e.part (BitVec.ofNat 64 (fieldAt e.d 16 8)) (fieldAt e.d 32 4 * y.insertBytes))).wait k (.mutation i)) := by
  refine op_becomes h rfl (decide_eq_true hn) hchk ?_
  simp only [hi, hy, Option.elim_some]

/-- INDEX_MERGE asks for a merge unless the one that runs covers every side entry. -/
theorem exec_indexMerge_requests (h : s.dev.Ready 0x65 n e.d k e) (hst : s.dev.indexStatus e.part e.d.target = stOk) :
    let last := (y.side.map fun z => z.2.1).foldl max 0
    Becomes (.indexMerge n e.d) s (((if y.mergeAt.any (fun z => decide (last ≤ z)) then s.dev
      else s.dev.modIndex i fun z => { z with requested := true }).setResult k last).wait k (.merge i)) := by
  refine op_becomes h rfl (decide_eq_true hn) hst ?_
  simp only [hi, hy]

/-- INDEX_STAT answers the epoch, the live entries and the side entries that wait. -/
theorem exec_indexStat_answers (h : s.dev.Ready 0x66 n e.d k e) (hst : s.dev.indexStatus e.part e.d.target = stOk) :
    Becomes (.indexStat n e.d) s (s.dev.ok k
      (BitVec.ofNat 64 (y.epoch + (y.entries.filter fun z => z.2.dead == noEpoch).length * 2 ^ 32))
      (BitVec.ofNat 32 y.waitingSide.length)) := by
  refine op_becomes h rfl (decide_eq_true hn) hst ?_
  simp only [hi, hy]

end

/-! ### QUERY_REED_ASSIGN (R284) -/

/-- The oldest waiting query of a partition that has a reed and the pages free, and whose index's earlier mutations have committed,
takes them under the index's epoch, and its vector is read. -/
theorem exec_queryReedAssign_takes {s : State} {q m : Nat} {ms : List Nat} {z : DescEntry} {y : Index} (hq : q < 8)
    (hwaits : s.dev.queryWaits q = m :: ms) (hz : tget s.dev.rng.descs m = some z)
    (hy : s.dev.index (s.dev.queryIndex z.d) = some y)
    (hreeds : (s.dev.red.query.filter fun w => w.part == q).length < s.dev.getF (RED_QUOTA_REEDS q))
    (hpages : ((s.dev.red.query.filter fun w => w.part == q).map fun w => w.pages).sum +
      y.pages (fieldAt z.d 34 2) (fieldAt z.d 36 2) (fieldAt z.d 38 2) ≤ s.dev.getF (RED_QUOTA_PAGES q))
    (hfirst : s.dev.mutationBefore (s.dev.queryIndex z.d) m = false) :
    let pages := y.pages (fieldAt z.d 34 2) (fieldAt z.d 36 2) (fieldAt z.d 38 2)
    let t := ({ s.dev with red := { s.dev.red with
      query := s.dev.red.query ++ [{ desc := m, part := q, index := s.dev.queryIndex z.d, snap := y.epoch, pages := pages }] } } : Dev)
    let u := (t.move 5 (1 + q) 0 1 pages (some q)).emitFor q (.hostRead q (BitVec.ofNat 64 (fieldAt z.d 16 8))
      (2 * y.dim + (if y.memory then y.bits / 8 else 0)))
    Becomes (.queryReedAssign q) s (((u.wait m .hostRead).showReed q).reedGo (s.dev.queryIndex z.d)) := by
  have hfree : ¬((s.dev.red.query.filter fun w => w.part == q).length + 1 > s.dev.getF (RED_QUOTA_REEDS q) ∨
      ((s.dev.red.query.filter fun w => w.part == q).map fun w => w.pages).sum +
        y.pages (fieldAt z.d 34 2) (fieldAt z.d 36 2) (fieldAt z.d 38 2) > s.dev.getF (RED_QUOTA_PAGES q) ∨
      s.dev.mutationBefore (s.dev.queryIndex z.d) m = true) := by
    rintro (hlate | hmore | hmutation)
    · exact Nat.not_lt.2 hreeds hlate
    · exact Nat.not_lt.2 hpages hmore
    · exact Bool.false_ne_true (hfirst.symm.trans hmutation)
  refine becomes_onDev rfl (decide_eq_true hq) ?_
  simp only [hwaits, List.head?_cons, hz, hy, if_neg hfree]

/-! ### Merges (R282, R283) -/

section

variable {s : State} {j : Nat} {y : Index} (hj : j < 4194304) (hy : s.dev.index j = some y)

include hj hy

/-- A requested merge starts at the index's epoch, and frees what the merge before it listed. -/
theorem exec_mergeStart_starts (hreq : y.requested = true) (hnone : y.mergeAt = none) (hfew : s.dev.mergesBusy < 8)
    (hnew : (s.dev.red.query.any fun q => q.index == j && decide (q.snap < y.lastCommit)) = false) :
    Becomes (.mergeStart j) s ((s.dev.modIndex j fun z =>
      { z with requested := false, mergeAt := some z.epoch, entries := z.listed.foldl (fun t i => tdel t i) z.entries,
               free := (z.free ++ z.listed).mergeSort (· ≤ ·), side := z.side.filter (fun w => !z.listedSide.contains w),
               listed := [], listedSide := [] }).showReed y.part) := by
  refine becomes_onDev rfl (decide_eq_true hj) ?_
  simp only [hy, hreq, hnone, hnew, ge_iff_le, Nat.not_le.2 hfew, Option.isSome_none, decide_false, Bool.not_true, Bool.or_self,
    Bool.false_eq_true, if_false]

/-- A merge whose region is readable commits the merged index at its new epoch, and ends the descriptors that it covers. -/
theorem exec_mergeCommit_commits {at_ : Nat} (hat : y.mergeAt = some at_)
    (hread : s.dev.reedBad y.region (List.range y.tileCount) = stOk) (hepoch : y.epoch + 1 < noEpoch) :
    let new := (y.merged at_).1
    let touched := new.entries.filter fun (z : Nat × Entry) => y.entryOf z.1 != z.2
    let t := ((s.dev.modIndex j fun _ => new).reedSync j (([0] ++ touched.map fun (z : Nat × Entry) => y.nodeTile z.1).eraseDups)
      []).incF RED_STATS_MERGES
    Becomes (.mergeCommit j) s ((((s.dev.mergeWaits j at_).foldl (fun t m => t.ok m (BitVec.ofNat 64 new.epoch)
      (BitVec.ofNat 32 (y.merged at_).2)) t).showReed y.part).reedSettle j) := by
  have hgood : ¬(s.dev.reedBad y.region (List.range y.tileCount) ≠ stOk ∨ y.epoch + 1 ≥ noEpoch) :=
    not_or.2 ⟨not_not_intro hread, Nat.not_le.2 hepoch⟩
  refine becomes_onDev rfl (decide_eq_true hj) ?_
  simp only [hy, hat, if_neg hgood]

end

/-- Settles O28: each row's guard holds under the clause's hypotheses, and its effect is the clause's. -/
theorem reedCommandsTakeEffect : Obligations.ReedCommandsTakeEffect := by
  intro s n x k e hn d p i
  have hwf := decide_eq_true hn
  refine ⟨fun j nums h hchk hnum => ?_, fun y h hst hy hnames => ?_,
    fun y hy => ⟨fun h hchk => ?_, fun h hchk => ?_, fun h hst => ?_, fun h hst => ?_⟩, fun y h hchk hy hpages => ?_,
    fun q m ms z y hq hwaits hz hy => exec_queryReedAssign_takes hq hwaits hz hy,
    fun j y hj hy => ⟨exec_mergeStart_starts hj hy, fun at_ => exec_mergeCommit_commits hj hy⟩⟩
  all_goals obtain ⟨-, -, rfl, -⟩ := ready_facts h
  · exact op_becomes h rfl hwf hchk (doIndexCreate_binds k hnum)
  · exact op_becomes h rfl hwf hst (doIndexDestroy_marks_dying k rfl hy hnames)
  · exact exec_vecInsert_reads hn rfl hy h hchk
  · exact op_becomes h rfl hwf hchk rfl
  · exact exec_indexMerge_requests hn rfl hy h hst
  · exact exec_indexStat_answers hn rfl hy h hst
  · exact op_becomes h rfl hwf hchk (doVecQuery_waits k hy hpages)

end Sys2Proof.Machine
end

section
/-! SUPPORT and CERTIFICATES. 11_dxl_fabric_pool.md: frames that a device forwards, opens and serves (R297, R298, R308), and the requests that
answers, timeouts, stale maps and exhausted nonces end (R298, R309, R310; 13 R352). -/

namespace Sys2Proof.Machine

/-! ### Bytes written to the memory lent to the pool -/

theorem memRead_memWriteL_outside (bs : List Byte) {m : List Host.Cell} {a k : Nat} (h : k < a ∨ a + bs.length ≤ k) :
    memRead (memWriteL m a bs) k = memRead m k := by
  induction bs generalizing m a with
  | nil => rfl
  | cons b r ih =>
    rw [List.length_cons] at h
    rw [memWriteL, ih (by omega), memRead_memWrite_other _ _ _ _ (by omega)]

theorem memRead_memWriteL_inside (bs : List Byte) {m : List Host.Cell} (hm : Memory.wf m = true) (a : Nat) {i : Nat} (hi : i < bs.length) :
    some (memRead (memWriteL m a bs) (a + i)) = bs[i]? := by
  induction bs generalizing m a i with
  | nil => exact absurd hi (Nat.not_lt_zero i)
  | cons b r ih =>
    rw [memWriteL]
    cases i with
    | zero =>
      rw [memRead_memWriteL_outside r (.inl (by omega)), Nat.add_zero, memRead_memWrite_same _ _ _ hm, List.getElem?_cons_zero]
    | succ i =>
      rw [List.getElem?_cons_succ, ← ih (memWrite_wf hm a b) (a + 1) (Nat.lt_of_succ_lt_succ hi), Nat.add_right_comm, Nat.add_assoc]

/-! ### Frames that arrive (R296, R297) -/

/-- Opening a frame changes nothing of it but its payload. -/
theorem openFrame_keeps {d t : Dev} {f g : Frame} (h : d.openFrame f = (t, some g)) : g = { f with payload := g.payload } := by
  unfold Dev.openFrame at h
  split at h
  · cases h
    rfl
  · split at h
    · cases h
    · dsimp only at h
      split at h
      · cases h
        rfl
      · cases h

theorem openFrame_type {d t : Dev} {f g : Frame} (h : d.openFrame f = (t, some g)) : g.type = f.type := by
  rw [openFrame_keeps h]

/-- A frame for this device that opens is taken. -/
theorem getFrame_here {d t : Dev} {f g : Frame} (hchan : f.chan < 36) (hdst : f.dst = d.id) (hopen : d.openFrame f = (t, some g))
    (mem : List Host.Cell) (cls : Nat) (info : Option ExtentInfo) : d.getFrame mem f cls info = t.takeFrame mem g info := by
  simp only [Dev.getFrame, if_neg (Nat.not_le.2 hchan), if_neg (not_not_intro hdst), hopen]

theorem getFrame_away {d : Dev} {f : Frame} (hchan : f.chan < 36) (hdst : f.dst ≠ d.id) (mem : List Host.Cell) (cls : Nat)
    (info : Option ExtentInfo) : d.getFrame mem f cls info = (d.forward f cls, []) := by
  simp only [Dev.getFrame, if_neg (Nat.not_le.2 hchan), if_pos hdst]

/-! ### What each type does once the frame is opened (R297, R298, R308) -/

section

variable {d : Dev} {g : Frame} (mem : List Host.Cell) (info : Option ExtentInfo)

theorem takeFrame_read (h : g.type = 0x01) : d.takeFrame mem g info = (d.serveRead mem g, []) := by
  rw [Dev.takeFrame, h]; rfl

theorem takeFrame_readData (h : g.type = 0x02) :
    d.takeFrame mem g info = (if d.answers g false then d.respond g.tag.toNat (.ok g.payload) else d, []) := by
  rw [Dev.takeFrame, h]; rfl

theorem takeFrame_write (h : g.type = 0x03) : d.takeFrame mem g info = d.serveWrite g := by
  rw [Dev.takeFrame, h]; rfl

theorem takeFrame_writeAck (h : g.type = 0x04) :
    d.takeFrame mem g info = (if d.answers g true then d.respond g.tag.toNat (.ok []) else d, []) := by
  rw [Dev.takeFrame, h]; rfl

theorem takeFrame_tile (h : g.type = 0x05) : d.takeFrame mem g info = (d.serveTile g, []) := by
  rw [Dev.takeFrame, h]; rfl

theorem takeFrame_error (h : g.type = 0x0F) : d.takeFrame mem g info =
    (if (d.req g.tag.toNat).any fun r => r.home == g.src then d.refusal g.tag.toNat g.status info else d, []) := by
  rw [Dev.takeFrame, h]; rfl

end

/-- A READ that its home admits, of pages none of which is FROZEN, is answered from HBM or asks the appliance. -/
theorem serveRead_admitted {d : Dev} {g : Frame} (mem : List Host.Cell) (hst : d.homeStatus g false (leAt g.payload 0 8) = stOk)
    (hfrozen : ((pagesOf (poolOffset g.addr) (leAt g.payload 0 8)).any fun a => (d.dirOf (poolSpace g.addr) a).st == .frozen) = false) :
    d.serveRead mem g = if poolSpace g.addr = 0
      then d.sendFrame (Frame.part g) (d.answerTo g 0x02 0 (memReadL mem (poolOffset g.addr) (leAt g.payload 0 8)))
      else d.request ((Frame.part g).getD 0) (.peer g) g.addr (leAt g.payload 0 8) none := by
  simp only [Dev.serveRead, hst, ne_eq, not_true_eq_false, if_false, hfrozen, Bool.false_eq_true]

theorem serveWrite_refused {d : Dev} {g : Frame} (hst : d.homeStatus g true g.payload.length ≠ stOk) :
    (d.serveWrite g).2 = [] := by
  simp only [Dev.serveWrite, if_pos hst]

theorem serveWrite_admitted {d : Dev} {g : Frame} (hst : d.homeStatus g true g.payload.length = stOk) :
    d.serveWrite g = if poolSpace g.addr = 0
      then ((d.rewritten g).sendFrame (Frame.part g) (d.answerTo g 0x04 0 []), [(poolOffset g.addr, g.payload)])
      else (d.request ((Frame.part g).getD 0) (.peer g) g.addr g.payload.length (some g.payload), []) :=
  if_neg (not_not_intro hst)

theorem serveTile_eq {d : Dev} {g : Frame} {p : Nat} (hp : Frame.part g = some p) :
    d.serveTile g = if (Config.tileSlot g.addr).1 < 256 ∧ (Config.tileSlot g.addr).2 < 48 ∧ d.corePart (Config.tileSlot g.addr).1 = some p
      then d.modCore (Config.tileSlot g.addr).1 fun c => { c with slots := tput c.slots (Config.tileSlot g.addr).2 g.payload }
      else d.refuseFrame g stDenied none := by
  simp only [Dev.serveTile, hp, Bool.and_eq_true, decide_eq_true_eq, beq_iff_eq, and_assoc]

/-! ### Rows of frames -/

section

variable {i : Instr} {s : State} {f g : Frame} {t u : Dev} {info : Option ExtentInfo}
  (hx : exec i s = guarded i (.next (s.getFrame f info))) (hw : i.wf = true) (hchan : f.chan < 36)

include hx hw hchan

/-- A frame for this device that opens does what its type says. -/
theorem exec_frame_here (hdst : f.dst = s.dev.id) (hopen : s.dev.openFrame f = (t, some g)) :
    exec i s = .next { s with dev := (t.takeFrame s.mem g info).1, mem := applyWrites s.mem (t.takeFrame s.mem g info).2 } := by
  rw [hx, guarded_wf _ _ hw, State.getFrame, getFrame_here hchan hdst hopen]

/-- One that writes nothing to the memory lent to the pool. -/
theorem frame_becomes (hdst : f.dst = s.dev.id) (hopen : s.dev.openFrame f = (t, some g))
    (htake : t.takeFrame s.mem g info = (u, [])) : Becomes i s u := by
  rw [Becomes, exec_frame_here hx hw hchan hdst hopen, htake]
  rfl

theorem frame_goes_on (hdst : f.dst ≠ s.dev.id) : Becomes i s (s.dev.forward f 0) := by
  rw [Becomes, hx, guarded_wf _ _ hw, State.getFrame, getFrame_away hchan hdst]
  rfl

end

/-- An ERROR whose TAG names no hand-over of this source is a frame like any other. -/
theorem exec_errorResponse_of_no_offer {s : State} {f : Frame} {e : Option ExtentInfo}
    (hnone : (if f.dst = s.dev.id then s.dev.offerTag f.tag else none) = none) :
    exec (.errorResponse f e) s = guarded (.errorResponse f e) (.next (s.getFrame { f with type := 0x0F } e)) := by
  change execErrorResponse f e s = _
  rw [execErrorResponse, hnone]

theorem exec_errorResponse_of_offer {s : State} {f : Frame} {t : OfferTxn} (e : Option ExtentInfo) (hwf : f.wf = true)
    (hdst : f.dst = s.dev.id) (ht : s.dev.offerTag f.tag = some t) (hsrc : t.msg.dst = f.src) :
    Becomes (.errorResponse f e) s (s.dev.sendAbort t.msg) := by
  have hx : exec (.errorResponse f e) s =
      guarded (.errorResponse f e) (onDev s fun d => if t.msg.dst = f.src then d.sendAbort t.msg else d) := by
    change execErrorResponse f e s = _
    rw [execErrorResponse, if_pos hdst, ht]
  exact becomes_onDev hx hwf (if_pos hsrc)

/-- Settles O7: an admitted WRITE is written byte by byte at its offset; one that is refused, or sent on to the appliance, writes nothing. -/
theorem writeStoresItsPayload : Obligations.WriteStoresItsPayload := by
  intro s f g d hwf hchan hdst hmem hopen htype
  refine ⟨_, exec_frame_here (Eq.refl (execWrite f s)) hwf hchan hdst hopen, ?_⟩
  rw [takeFrame_write s.mem none htype]
  refine ⟨fun hst hspace => ?_, fun hno a => ?_⟩
  · rw [serveWrite_admitted hst, if_pos hspace]
    exact ⟨fun i hi => memRead_memWriteL_inside g.payload hmem _ hi, fun a ha => memRead_memWriteL_outside g.payload ha⟩
  · have hnone : (d.serveWrite g).2 = [] := by
      by_cases hst : d.homeStatus g true g.payload.length = stOk
      · rw [serveWrite_admitted hst, if_neg (hno.resolve_left (not_not_intro hst))]
      · exact serveWrite_refused hst
    rw [hnone]
    rfl

/-- Settles O31: a frame for another device is forwarded; one for this device opens, and its type's work is the clause's. The core slot that a
TILE's ADDRESS names is the model's choice (log 35). -/
theorem framesAreServed : Obligations.FramesAreServed := by
  intro s f hwf hchan here pages
  refine ⟨fun d g hhere hst hfrozen => ?_, fun d g hhere hst => ?_, fun d g hhere hans => ?_, fun d g hhere hans => ?_,
    fun d g p hhere hp => ?_, fun d g e hhere hnone hreq => ?_, fun t e hdst ht hsrc => exec_errorResponse_of_offer e hwf hdst ht hsrc,
    fun hdst => ?_⟩
  on_goal 7 =>
    exact ⟨frame_goes_on (Eq.refl (execRead f s)) hwf hchan hdst, frame_goes_on (Eq.refl (execReadData f s)) hwf hchan hdst,
      frame_goes_on (Eq.refl (execWrite f s)) hwf hchan hdst, frame_goes_on (Eq.refl (execWriteAck f s)) hwf hchan hdst,
      frame_goes_on (Eq.refl (execTile f s)) hwf hchan hdst,
      fun e => frame_goes_on (exec_errorResponse_of_no_offer (if_neg hdst)) hwf hchan hdst⟩
  all_goals
    obtain ⟨hdst, hopen⟩ := hhere
    have htype := openFrame_type hopen
  · exact frame_becomes (Eq.refl (execRead f s)) hwf hchan hdst hopen
      ((takeFrame_read s.mem none htype).trans (congrArg (·, []) (serveRead_admitted s.mem hst hfrozen)))
  · rw [exec_frame_here (i := .write f) (Eq.refl (execWrite f s)) hwf hchan hdst hopen, takeFrame_write s.mem none htype, serveWrite_admitted hst]
    split <;> rfl
  · exact frame_becomes (Eq.refl (execReadData f s)) hwf hchan hdst hopen
      ((takeFrame_readData s.mem none htype).trans (by rw [if_pos hans]))
  · exact frame_becomes (Eq.refl (execWriteAck f s)) hwf hchan hdst hopen
      ((takeFrame_writeAck s.mem none htype).trans (by rw [if_pos hans]))
  · exact frame_becomes (Eq.refl (execTile f s)) hwf hchan hdst hopen
      ((takeFrame_tile s.mem none htype).trans (congrArg (·, []) (serveTile_eq hp)))
  · exact frame_becomes (exec_errorResponse_of_no_offer ((if_pos hdst).trans hnone)) hwf hchan hdst hopen
      ((takeFrame_error s.mem e htype).trans (by rw [if_pos hreq]))

/-! ### Requests that end (R298, R309, R310; 13 R352) -/

/-- An answer of the appliance reaches the request that another device's frame asked for. -/
theorem exec_cxlMemResponse_answers {s : State} {tag : U32} {r : Req} {f : Frame} (poison : Bool) (data : List Byte)
    (hr : s.dev.req tag.toNat = some r) (hpeer : r.purpose = .peer f) : Becomes (.cxlMemResponse tag poison data) s
      (s.dev.respond tag.toNat (if poison then .error stPoison else .ok data)) := by
  refine becomes_onDev (Eq.refl (execCxlMemResponse tag poison data s)) rfl ?_
  simp only [hr, Option.map_some, hpeer]

theorem exec_staleMapRetryLimit_ends {s : State} {tag : U32} {r : Req} (hr : s.dev.req tag.toNat = some r) (hthird : 3 ≤ r.refusals) :
    Becomes (.staleMapRetryLimit tag) s (s.dev.respond tag.toNat (.error stStale)) := by
  refine becomes_onDev (Eq.refl (execStaleMapRetryLimit tag s)) rfl (if_pos ?_)
  rw [hr]
  exact decide_eq_true hthird

/-- A request of an engine of this device that waits too long ends with PEER_LOST, and a fault record. -/
theorem exec_requestTimeout_ends {s : State} {tag : U32} {r : Req} (hr : s.dev.req tag.toNat = some r)
    (hpeer : ∀ f, r.purpose ≠ .peer f) : Becomes (.requestTimeout tag) s
      ((s.dev.raise (some r.part) 0x0A16 r.addr 2 r.purpose.master).respond tag.toNat (.error stPeer)) := by
  refine becomes_onDev (Eq.refl (execRequestTimeout tag s)) rfl ?_
  rw [hr]
  dsimp only
  split
  · next f hf => exact absurd hf (hpeer f)
  · rfl

section

variable {s : State} {p : Nat} {keyId gen : U16} {part : Option Nat} {ix : Nat} (hp : p < 8) (hpart : (if keyId = 0 then none else some p) = part)
  (hix : nonceIndex (chanSet part) keyId.toNat gen.toNat = ix)

include hp hpart hix

/-- A generation without numbers raises NONCE_EXHAUSTED, and ends the requests that could not be sent. -/
theorem exec_nonceThreshold_exhausted (hn : nonceLimit ≤ tgetD s.dev.fab.nonce ix 0) :
    let t := (s.dev.flag SEC_STATUS_NONCE_EXHAUSTED SEC_EVENTS_NONCE_EX_COUNT).raiseOpen part 0x0C14 0x106
    Becomes (.nonceThreshold p keyId gen) s ((tkeys t.fab.req fun _ r => r.stuck && (part.isNone || part == some r.part)).foldl
      (fun t i => t.respond i (.error stTenant)) t) := by
  refine becomes_onDev (Eq.refl (execNonceThreshold p keyId gen s)) (decide_eq_true hp) ?_
  simp only [hpart, hix, ge_iff_le, hn, if_true]

/-- A generation that runs low raises NONCE_LOW, the first time. -/
theorem exec_nonceThreshold_low (hlow : 2 ^ 38 ≤ tgetD s.dev.fab.nonce ix 0) (hleft : tgetD s.dev.fab.nonce ix 0 < nonceLimit)
    (hfirst : s.dev.fab.nonceLow.contains ix = false) : Becomes (.nonceThreshold p keyId gen) s
      (({ s.dev with fab := { s.dev.fab with nonceLow := ix :: s.dev.fab.nonceLow } } : Dev).raiseOpen part 0x0C13 0x106) := by
  refine becomes_onDev (Eq.refl (execNonceThreshold p keyId gen s)) (decide_eq_true hp) ?_
  simp only [hpart, hix, ge_iff_le, Nat.not_le.2 hleft, hlow, hfirst, if_false, decide_true, Bool.not_false, Bool.and_self, if_true]

end

/-- Settles O32: each row's guard holds under the clause's hypotheses, and its effect is the clause's. -/
theorem requestsEnd : Obligations.RequestsEnd := by
  intro s d
  exact ⟨fun tag r f poison data hr hpeer => exec_cxlMemResponse_answers poison data hr hpeer,
    fun tag r hr hthird => exec_staleMapRetryLimit_ends hr hthird, fun tag r hr hpeer => exec_requestTimeout_ends hr hpeer,
    fun p keyId gen hp => ⟨fun hn => exec_nonceThreshold_exhausted hp rfl rfl hn,
      fun hlow hleft hfirst => exec_nonceThreshold_low hp rfl rfl hlow hleft hfirst⟩⟩

end Sys2Proof.Machine
end

section
/-! SUPPORT and CERTIFICATES. 11_dxl_fabric_pool.md: DXL ports (R294, R295, R300, R303). -/

namespace Sys2Proof.Machine

/-! ### Flits received (R295, R303) -/

section

variable {d : Dev} {n : Nat} (mem : List Host.Cell) {bits : BitVec 2048} (hup : d.portUp n = true)

include hup

/-- A good DATA flit in order moves the number received on, its ACK and credits are taken, and its bytes join their frame. -/
theorem gotFlit_in_order (hgood : d.flitGood n (leBytes 256 bits.toNat) = true) (htype : flitType (leBytes 256 bits.toNat) = 1)
    (hseq : BitVec.ofNat 12 (leAt (leBytes 256 bits.toNat) 0 2) = (d.port n).rxSeq + 1) :
    let b := leBytes 256 bits.toNat
    let x := d.port n
    let t := (d.setPort n { x with rxSeq := x.rxSeq + 1, unacked := x.unacked + 1 }).flitLink n b
    d.gotFlit mem n bits = (if (t.port n).unacked ≥ 64 then t.sendIdle n 0 0 0 else t).assemble mem n b := by
  simp only [Dev.gotFlit, hup, hgood, htype, hseq, Bool.not_true, Bool.false_eq_true, ne_eq, not_true_eq_false, or_self, if_false]

theorem gotFlit_bad (hbad : d.flitGood n (leBytes 256 bits.toNat) = false) : d.gotFlit mem n bits = (d.badFlit n, []) := by
  simp only [Dev.gotFlit, hup, hbad, Bool.not_true, Bool.not_false, Bool.false_eq_true, if_false, if_true]

end

theorem exec_dataFlit {n : Nat} (hn : n < 32) (bits : BitVec 2048) (s : State) : exec (.dataFlit n bits) s =
    .next { s with dev := (s.dev.gotFlit s.mem n bits).1, mem := applyWrites s.mem (s.dev.gotFlit s.mem n bits).2 } :=
  guarded_wf (.dataFlit n bits) _ (decide_eq_true hn)

section

variable {s : State} {n : Nat} {bits : BitVec 2048} (hn : n < 32) (hup : s.dev.portUp n = true)

include hn hup

/-- A flit with a wrong CRC, of either type, asks for a repeat. -/
theorem exec_flit_bad (hbad : s.dev.flitGood n (leBytes 256 bits.toNat) = false) :
    Becomes (.dataFlit n bits) s (s.dev.badFlit n) ∧ Becomes (.idleFlit n bits) s (s.dev.badFlit n) := by
  constructor
  · rw [Becomes, exec_dataFlit hn, gotFlit_bad s.mem hup hbad]
    rfl
  · refine becomes_onDev (Eq.refl (execIdleFlit n bits s)) (decide_eq_true hn) ?_
    simp only [hup, hbad, Bool.not_true, Bool.not_false, Bool.false_eq_true, if_false, if_true]

/-- A good IDLE flit brings its ACK and credits. -/
theorem exec_idleFlit_links (hgood : s.dev.flitGood n (leBytes 256 bits.toNat) = true) (htype : flitType (leBytes 256 bits.toNat) = 0) :
    Becomes (.idleFlit n bits) s (s.dev.flitLink n (leBytes 256 bits.toNat)) := by
  refine becomes_onDev (Eq.refl (execIdleFlit n bits s)) (decide_eq_true hn) ?_
  simp only [hup, hgood, htype, Bool.not_true, Bool.false_eq_true, ne_eq, not_true_eq_false, if_false]

/-! ### Repeats and retraining (R303) -/

theorem exec_nak_replays (seq : BitVec 12) :
    let x := s.dev.port n
    let rest := if x.replay.any (fun f => f.1 == seq) then x.replay.dropWhile (fun f => f.1 != seq) else x.replay
    Becomes (.nak n seq) s (((s.dev.setPort n { x with
      replay := rest, nakSeq := seq, nakRun := if x.nakSeq = seq ∧ x.nakRun > 0 then x.nakRun + 1 else 1 }).replayFrom n rest).pump n) :=
  becomes_onDev (Eq.refl (execNak n seq s)) (decide_eq_true hn) (if_pos hup)

theorem exec_ackTimer_acknowledges (hun : 0 < (s.dev.port n).unacked) :
    Becomes (.ackTimer n) s ((s.dev.setPort n { s.dev.port n with unacked := 0 }).emit
      (.flit n (mkFlit 0 0 (s.dev.port n).rxSeq 0 0 false 0 0 0 []))) :=
  becomes_onDev (Eq.refl (execAckTimer n s)) (decide_eq_true hn) (if_pos (by rw [hup, Bool.true_and, decide_eq_true hun]))

/-- The eighth NAK of one SEQ starts a retraining. -/
theorem exec_portRetrainStart_starts (hrun : 8 ≤ (s.dev.port n).nakRun) : Becomes (.portRetrainStart n) s
    (((s.dev.setPort n { s.dev.port n with nakRun := 0 }).setF (FAB_PORT_STATE n) 4).incF (FAB_PORT_CNT_RETRAINS n)) :=
  becomes_onDev (Eq.refl (execPortRetrainStart n s)) (decide_eq_true hn) (if_pos (by rw [hup, Bool.true_and, decide_eq_true hrun]))

end

/-- A retrained port comes UP and repeats what it holds; one that fails counts the failure. -/
theorem exec_portRetrainDone {s : State} {n : Nat} (hn : n < 32) (hst : s.dev.getF (FAB_PORT_STATE n) = 4) :
    Becomes (.portRetrainDone n true) s (((s.dev.setF (FAB_PORT_STATE n) 3).replayFrom n (s.dev.port n).replay).pump n) ∧
    Becomes (.portRetrainDone n false) s (s.dev.retrainFailed n) :=
  ⟨becomes_onDev (Eq.refl (execPortRetrainDone n true s)) (decide_eq_true hn) (if_neg (not_not_intro hst)),
    becomes_onDev (Eq.refl (execPortRetrainDone n false s)) (decide_eq_true hn) (if_neg (not_not_intro hst))⟩

/-! ### Training (R294, R300) -/

@[simp] theorem getF_setPort (d : Dev) (n : Nat) (x : Port) (f : Fld) : (d.setPort n x).getF f = d.getF f :=
  getF_of_regs rfl f

@[simp] theorem regrant_regs (d : Dev) (n c : Nat) : (d.regrant n c).regs = d.regs := by
  unfold Dev.regrant
  dsimp only
  rw [move_regs]
  rfl

theorem regrants_regs (n : Nat) (cs : List Nat) (d : Dev) : (cs.foldl (fun d c => d.regrant n c) d).regs = d.regs := by
  induction cs generalizing d with
  | nil => rfl
  | cons c cs ih => rw [List.foldl_cons, ih, regrant_regs]

/-- The device whose port `n` has come UP with these pairs, before its channels have their credits. -/
def Dev.trained (d : Dev) (n : Nat) (r : Training) (pairs : BitVec 4) : Dev :=
  (((((d.setF (FAB_PORT_PAIRS n) pairs.toNat).setF (FAB_PORT_WIDTH n) (trainedWidth pairs)).setF (FAB_PORT_PEER_DEVICE n)
    r.peerDev).setF (FAB_PORT_PEER_PORT n) r.peerPort).setF (FAB_PORT_STATE n) 3).setPort n { delay := r.delay }

/-- A port that finds a peer of its family and a good pair comes UP, and its channels are granted their credits. -/
theorem exec_portTrainingDone_trains {s : State} {n : Nat} {r : Training} {pairs : BitVec 4} (hn : n < 32)
    (hdie : n / 8 < s.dev.getF GLB_ASSEMBLY_L_DIES) (hdown : s.dev.portUp n = false) (hfam : r.family = 0x07)
    (hpairs : r.pairs &&& ~~~(s.dev.markedPairs n) = pairs) (hw : trainedWidth pairs ≠ 0) :
    let t := s.dev.trained n r pairs
    Becomes (.portTrainingDone n r) s (t.channels.foldl (fun d c => d.regrant n c) t) := by
  refine becomes_onDev (Eq.refl (execPortTrainingDone n r s)) (decide_eq_true hn) ?_
  simp only [hpairs, hfam, hdown, if_true, ge_iff_le, Nat.not_le.2 hdie, Bool.false_eq_true, or_self, if_false, hw]
  rfl

theorem trainedWidth_le_eight (pairs : BitVec 4) : trainedWidth pairs ≤ 8 := by
  unfold trainedWidth
  dsimp only
  split
  · exact le_refl 8
  · split
    · decide
    · split <;> decide

/-- The registers of a trained port: no two of the fields share a bit. -/
theorem trained_fields (d : Dev) (n : Nat) (r : Training) (pairs : BitVec 4) :
    let t := d.trained n r pairs
    t.getF (FAB_PORT_STATE n) = 3 ∧ t.getF (FAB_PORT_WIDTH n) = trainedWidth pairs ∧ t.getF (FAB_PORT_PAIRS n) = pairs.toNat ∧
      t.getF (FAB_PORT_PEER_DEVICE n) = r.peerDev % 4096 ∧ t.getF (FAB_PORT_PEER_PORT n) = r.peerPort % 32 := by
  have hpairs : pairs.toNat < 16 := pairs.isLt
  have hwidth : trainedWidth pairs < 16 := Nat.lt_of_le_of_lt (trainedWidth_le_eight pairs) (by decide)
  simp [Dev.trained, getF_setF_same, getF_setF_apart, FAB_PORT_STATE, FAB_PORT_WIDTH, FAB_PORT_PAIRS, FAB_PORT_PEER_DEVICE,
    FAB_PORT_PEER_PORT, Nat.mod_eq_of_lt, hpairs, hwidth]

/-- Settles O33: each row's guard holds under the clause's hypotheses, and its effect is the clause's. -/
theorem portsTakeFlits : Obligations.PortsTakeFlits := by
  intro s n hn d x
  refine ⟨fun bits => ?_, fun seq hup => exec_nak_replays hn hup seq, fun hup hun => exec_ackTimer_acknowledges hn hup hun,
    fun hup hrun => exec_portRetrainStart_starts hn hup hrun, fun hst => exec_portRetrainDone hn hst, fun r hdie hdown hfam hw => ?_⟩
  · exact fun hup => ⟨fun hgood htype hseq => by rw [exec_dataFlit hn, gotFlit_in_order s.mem hup hgood htype hseq],
      fun hgood htype => exec_idleFlit_links hn hup hgood htype, fun hbad => exec_flit_bad hn hup hbad⟩
  · refine ⟨_, exec_portTrainingDone_trains hn hdie hdown hfam rfl hw, ?_⟩
    obtain ⟨hstate, hwidth, hpairs, hdev, hport⟩ := trained_fields s.dev n r (r.pairs &&& ~~~(s.dev.markedPairs n))
    simp only [Dev.portUp, getF_of_regs (regrants_regs n _ _)]
    exact ⟨beq_iff_eq.2 hstate, hwidth, hpairs, hdev, hport, trivial⟩

end Sys2Proof.Machine
end

section
/-! SUPPORT and CERTIFICATES. 11_dxl_fabric_pool.md: extents and maps (R308, R309, R314, R321), pool pages, host windows and appliances (R310,
R312, R313, R321). -/

namespace Sys2Proof.Machine

/-! ### Rows by their effect on the device at hand -/

theorem onHome_congr {s : State} {f g : Dev → Dev} (h : f s.dev = g s.dev) : s.onHome f = s.onHome g := by
  simp only [State.onHome, h]

/-- A row that may change the extents of this home. -/
theorem exec_onHome {i : Instr} {s : State} {f g : Dev → Dev} (hx : exec i s = guarded i (.next (s.onHome f)))
    (hw : i.wf = true) (hfg : f s.dev = g s.dev) : exec i s = .next (s.onHome g) := by
  rw [hx, guarded_wf _ _ hw, onHome_congr hfg]

/-- An opcode row of those whose checks pass answers its effect. -/
theorem op_onHome {i : Instr} {s : State} {op : Byte} {n : Nat} {x : Desc} {k : Nat} {e : DescEntry} {chk : Dev → Nat → Desc → Byte}
    {act : Dev → Nat → DescEntry → Dev} {g : Dev → Dev} (h : s.dev.Ready op n x k e)
    (hx : exec i s = guarded i (.next (s.onHome fun d => d.runOp op n x chk act))) (hw : i.wf = true) (hc : chk s.dev e.part x = stOk)
    (ha : act s.dev k e = g s.dev) : exec i s = .next (s.onHome g) :=
  exec_onHome hx hw ((runOp_act h hc).trans ha)

/-! ### EXTENT_REQUEST (R308) -/

section

/- The window `w` that descriptor `e` asks for, which is free. -/
variable {d : Dev} (k : Nat) {e : DescEntry} {w : Option Nat}
  (hw : (if (fieldAt e.d 19 1).testBit 1 then some (fieldAt e.d 25 1) else none) = w)
  (hfree : (w.any fun w => (tget d.fab.window (16 * e.part + w)).isSome) = false)

include hw hfree

theorem doExtentRequest_grants {t : Dev} {h : U64} {cls : Nat} (hhome : fieldAt e.d 16 2 % 4096 = d.id)
    (hgrant : d.grant d.id e.part (fieldAt e.d 18 1) (fieldAt e.d 20 4) (fieldAt e.d 24 1) ((fieldAt e.d 19 1).testBit 0)
      ((fieldAt e.d 19 1).testBit 2) w = .ok (t, h, cls)) :
    doExtentRequest d k e = (w.elim t fun w => t.mapWindow e.part w h).ok k h (BitVec.ofNat 32 cls) := by
  simp only [doExtentRequest, hw, hfree, Bool.false_eq_true, if_false, if_pos hhome, hgrant]

theorem doExtentRequest_asks (hhome : fieldAt e.d 16 2 % 4096 ≠ d.id) :
    doExtentRequest d k e = d.askHome k e.part (poolAddr (fieldAt e.d 16 2 % 4096) (fieldAt e.d 18 1) 0) (.extent 0) fun tag =>
      .extentRequest e.part (fieldAt e.d 18 1) (fieldAt e.d 20 4) (fieldAt e.d 24 1) ((fieldAt e.d 19 1).testBit 0)
        ((fieldAt e.d 19 1).testBit 2) w tag := by
  simp only [doExtentRequest, hw, hfree, Bool.false_eq_true, if_false, if_neg hhome]

end

/-! ### EXTENT_RETURN (R321) -/

section

variable {d : Dev} (k : Nat) {e : DescEntry} (htaken : (d.takenPages e.d.target).isEmpty = true)

include htaken

/-- At its home an extent whose pages are all the grantee's is freed under a new epoch. -/
theorem doExtentReturn_frees {y : Extent} (hhome : hExtHome e.d.target = d.id) (hy : tget d.fab.extent (hExtNum e.d.target) = some y)
    (hown : ∀ z ∈ d.dirIn y, z.2.st = .owned ∧ z.2.dev = y.dev ∧ z.2.part = y.owner) :
    doExtentReturn d k e = (d.raiseEpoch.freeExtent (hExtNum e.d.target) y).ok k 0 (BitVec.ofNat 32 y.pages) := by
  have hnone : ((d.dirIn y).any fun z => z.2.st != .owned || z.2.dev != y.dev || z.2.part != y.owner) = false := by
    rw [List.any_eq_false]
    intro z hz
    obtain ⟨hst, hdev, hpart⟩ := hown z hz
    simp [hst, hdev, hpart]
  simp only [doExtentReturn, htaken, hhome, hy, hnone, Bool.not_true, Bool.false_eq_true, ne_eq, not_true_eq_false, if_false]

theorem doExtentReturn_asks (hhome : hExtHome e.d.target ≠ d.id) :
    doExtentReturn d k e = d.askHome k e.part e.d.target (.extent e.d.target) fun tag => .extentReturn e.d.target tag := by
  simp only [doExtentReturn, htaken, Bool.not_true, Bool.false_eq_true, if_false, if_pos hhome]

end

/-! ### Revocations (R314) -/

/-- An EXTENT_REVOKE at the extent's home, under its generation, starts the revocation. -/
theorem exec_extentRevoke_revokes {s : State} {n : Nat} {x : Desc} {k : Nat} {e : DescEntry} {y : Extent} (hn : n < 4096)
    (h : s.dev.Ready 0x72 n x k e) (hhome : hExtHome x.target = s.dev.id) (hy : tget s.dev.fab.extent (hExtNum x.target) = some y)
    (hgen : y.gen = hExtGen x.target) : exec (.extentRevoke n x) s = .next (s.onHome fun d =>
      (d.wait k (.extent x.target)).revoke (hExtNum x.target) y (some k)) := by
  obtain ⟨-, -, rfl, -⟩ := ready_facts h
  refine op_onHome h (Eq.refl (execExtentRevoke n e.d s)) (decide_eq_true hn) ?_ ?_
  · simp only [hhome, hy, hgen, ne_eq, not_true_eq_false, if_false, if_true]
  · simp only [hy]

/-- An acknowledgement of a device that is waited for is counted, and the last one ends the revocation. -/
theorem exec_revokeAck_counts {s : State} {dev : Nat} {h : U64} {r : Revoking} (hdev : dev < 4096)
    (hr : tget s.dev.fab.revoke h.toNat = some r) (hwait : dev ∈ r.waiting) :
    let y := { r with waiting := r.waiting.filter (· != dev), acked := r.acked + 1 }
    let t := { s.dev with fab := { s.dev.fab with revoke := tput s.dev.fab.revoke h.toNat y } }
    exec (.revokeAck dev h) s = .next (s.onHome fun _ => if y.waiting.isEmpty then t.endRevoke h else t) := by
  refine exec_onHome (Eq.refl (execRevokeAck dev h s)) (decide_eq_true hdev) ?_
  simp only [hr, List.contains_iff_mem.2 hwait, if_true]

/-- A revocation that ends frees its extent, and answers how many devices answered and how many did not. -/
theorem endRevoke_frees {d : Dev} {h : U64} {r : Revoking} {y : Extent} (hr : tget d.fab.revoke h.toNat = some r)
    (hy : tget d.fab.extent (hExtNum h) = some y) :
    d.endRevoke h = r.descs.foldl (fun t k => t.ok k (BitVec.ofNat 64 r.acked) (BitVec.ofNat 32 r.waiting.length))
      (({ d with fab := { d.fab with revoke := tdel d.fab.revoke h.toNat } } : Dev).freeExtent (hExtNum h) y) := by
  simp only [Dev.endRevoke, hr, hy]

/-! ### Maps (R309) -/

section

variable {s : State} {home : Nat} {i : ExtentInfo} (hlt : home < 4096) (hhome : hExtHome i.handle = home)

include hlt hhome

/-- An entry without pages leaves the map, with what hangs on it; no EXTENT_RETURN waits for it. -/
theorem exec_mapUpdate_removes (hpages : i.pages = 0)
    (hnone : (tkeys s.dev.rng.descs fun _ z => z.op == 0x71 && z.st == .waiting (.extent i.handle)) = []) :
    Becomes (.mapUpdate home i) s { s.dev with fab := { s.dev.fab with map := tdel s.dev.fab.map i.handle.toNat,
                                                                       taken := tdel s.dev.fab.taken i.handle.toNat,
                                                                       window := s.dev.fab.window.filter fun z => z.2.extent != i.handle } } := by
  refine becomes_onDev (Eq.refl (execMapUpdate home i s)) (decide_eq_true hlt) ?_
  simp only [hhome, hpages, hnone, ne_eq, not_true_eq_false, if_false, if_true, List.foldl_nil]

theorem exec_mapUpdate_notes (hpages : i.pages ≠ 0) (hnone : s.dev.grantedTo home i = none) :
    Becomes (.mapUpdate home i) s (s.dev.noteExtent i) := by
  refine becomes_onDev (Eq.refl (execMapUpdate home i s)) (decide_eq_true hlt) ?_
  simp only [hhome, if_neg hpages, hnone, ne_eq, not_true_eq_false, if_false, Option.bind_none]

/-- An entry that answers an EXTENT_REQUEST without a window completes it. -/
theorem exec_mapUpdate_grants {k : Nat} {e : DescEntry} (hpages : i.pages ≠ 0) (hk : s.dev.grantedTo home i = some k)
    (he : tget s.dev.rng.descs k = some e) (hwin : (fieldAt e.d 19 1).testBit 1 = false) :
    Becomes (.mapUpdate home i) s (((s.dev.noteExtent i).endAsk k).ok k i.handle (BitVec.ofNat 32 i.cls)) := by
  have he' : tget (s.dev.noteExtent i).rng.descs k = some e := he
  refine becomes_onDev (Eq.refl (execMapUpdate home i s)) (decide_eq_true hlt) ?_
  simp only [hhome, if_neg hpages, hk, he', hwin, ne_eq, not_true_eq_false, if_false, Option.bind_some, Option.map_some, Bool.false_eq_true]

end

/-- Settles O34: each row's guard holds under the clause's hypotheses, and its effect is the clause's. That a request to another home is
answered by a MAP_UPDATE is the model's reading (log 38). -/
theorem extentCommandsTakeEffect : Obligations.ExtentCommandsTakeEffect := by
  intro s n x k e hn d
  have hwf := decide_eq_true hn
  refine ⟨fun h hchk hfree => ?_, fun h hst htaken => ?_, fun y h hhome hy hgen => exec_extentRevoke_revokes hn h hhome hy hgen,
    fun home h hlt hhome => becomes_onDev (Eq.refl (execRevoke home h s)) (decide_eq_true hlt) (if_pos hhome),
    fun dev h r hdev hr hwait => exec_revokeAck_counts hdev hr hwait,
    fun h r y hr hy => exec_onHome (Eq.refl (execRevokeAckTimeout h s)) rfl (endRevoke_frees hr hy),
    fun home i hlt hhome => ⟨fun hpages hnone => exec_mapUpdate_removes hlt hhome hpages hnone,
      fun hpages hnone => exec_mapUpdate_notes hlt hhome hpages hnone,
      fun k e hpages hk he hwin => exec_mapUpdate_grants hlt hhome hpages hk he hwin⟩⟩
  all_goals obtain ⟨-, -, rfl, -⟩ := ready_facts h
  · exact ⟨fun t h' cls hhome hgrant =>
        op_onHome h (Eq.refl (execExtentRequest n e.d s)) hwf hchk (doExtentRequest_grants k rfl hfree hhome hgrant),
      fun hhome => op_onHome h (Eq.refl (execExtentRequest n e.d s)) hwf hchk (doExtentRequest_asks k rfl hfree hhome)⟩
  · exact ⟨fun y hhome hy hown =>
        op_onHome h (Eq.refl (execExtentReturn n e.d s)) hwf hst (doExtentReturn_frees k htaken hhome hy hown),
      fun hhome => op_onHome h (Eq.refl (execExtentReturn n e.d s)) hwf hst (doExtentReturn_asks k htaken hhome)⟩

/-! ### POOL_FLUSH (R313) -/

theorem doPoolFlush_without_window {d : Dev} (k : Nat) {e : DescEntry} (hv : tget d.fab.window (16 * e.part + fieldAt e.d 16 1) = none) :
    doPoolFlush d k e = d.ok k 0 0 := by
  simp only [doPoolFlush, hv]

/-- A flush of a window whose extent is live waits for the writes of the window that are on their way. -/
theorem doPoolFlush_waits {d : Dev} (k : Nat) {e : DescEntry} {w : Nat} {v : HostWindow} (hw : fieldAt e.d 16 1 = w)
    (hv : tget d.fab.window (16 * e.part + w) = some v) (hlive : (d.extentInfo v.extent).any (fun z => z.live) = true) :
    let ts := tkeys d.fab.req fun _ r => r.isWrite && r.part == e.part && (match r.purpose with
      | .hostLine _ off _ => off / 2 ^ 40 == w
      | _ => false)
    doPoolFlush d k e = (d.wait k (.lines w ts v.written)).flushLines k := by
  simp only [doPoolFlush, hw, hv]
  exact if_neg (by rw [hlive]; decide)

/-! ### Host windows (R312) -/

theorem tupd_of_some {α : Type} {t : Tbl α} {k : Nat} {v : α} (h : tget t k = some v) (f : α → α) : tupd t k f = tput t k (f v) := by
  simp only [tupd, h]

section

variable {s : State} {a : Access} {w off p : Nat} {v : HostWindow} {i : ExtentInfo} (hwf : (a.wf && decide (w < 16)) = true)
  (hp : s.dev.fnReaches a = some p) (hv : tget s.dev.fab.window (16 * p + w) = some v) (hi : s.dev.extentInfo v.extent = some i)
  (hlive : i.live = true) (hin : off < i.pages * pageBytes) (hoff : off < 2 ^ 40)

include hwf hp hv hi hlive hin hoff

theorem exec_hostLineAccess_reads : Becomes (.hostLineAccess a w off none) s
    (s.dev.request p (.hostLine a.fn (w * 2 ^ 40 + off) false) (poolAddr (hExtHome i.handle) i.space (i.base + off)) 64 none) := by
  refine becomes_onDev (Eq.refl (execHostLineAccess a w off none s)) hwf ?_
  simp only [hp, hv, Option.bind_some, hi, hlive, ge_iff_le, Nat.not_le.2 hin, Nat.mod_eq_of_lt hoff, Option.isSome_none, Bool.not_true,
    Bool.false_eq_true, or_self, if_false]

/-- A write is noted in the window's bitmap; while no flush of the window waits, it is noted there alone. -/
theorem exec_hostLineAccess_writes (bs : List Byte) (hidle : (s.dev.rng.descs.any fun z => z.2.part == p &&
      (match z.2.st with | .waiting (.lines w' _ _) => w' == w | _ => false)) = false) :
    let y := { v with written := if v.written.contains (off / pageBytes) then v.written else v.written ++ [off / pageBytes] }
    Becomes (.hostLineAccess a w off (some bs)) s
      (({ s.dev with fab := { s.dev.fab with window := tput s.dev.fab.window (16 * p + w) y } } : Dev).request p
        (.hostLine a.fn (w * 2 ^ 40 + off) true) (poolAddr (hExtHome i.handle) i.space (i.base + off)) 64 (some bs)) := by
  refine becomes_onDev (Eq.refl (execHostLineAccess a w off (some bs) s)) hwf ?_
  simp only [hp, hv, Option.bind_some, hi, hlive, ge_iff_le, Nat.not_le.2 hin, Nat.mod_eq_of_lt hoff, Option.isSome_some, Bool.not_true,
    Bool.false_eq_true, or_self, if_false, if_true, tupd_of_some hv]
  generalize hbusy : s.dev.rng.descs.any _ = busy
  rw [hbusy.symm.trans hidle]
  rfl

end

/-! ### Appliances (R310) -/

theorem exec_dcdCapacityAdd_joins {s : State} {space base pages : Nat} (hport : s.dev.poolPort space = true) (hpages : pages ≠ 0)
    (hapart : ∀ r ∈ s.dev.spaceRanges space, overlap r (base, pages) = 0) : Becomes (.dcdCapacityAdd space base pages) s
      (({ s.dev with fab := { s.dev.fab with added := s.dev.fab.added ++ [(space, base, pages)] } } : Dev).move 4 space outside 0 pages none) := by
  have hnone : ((s.dev.spaceRanges space).any fun r => overlap r (base, pages) != 0) = false := by
    rw [List.any_eq_false]
    intro r hr
    simp [hapart r hr]
  refine becomes_onDev (Eq.refl (execDcdCapacityAdd space base pages s)) rfl ?_
  simp only [hport, hnone, decide_eq_false hpages, Bool.not_true, Bool.or_self, Bool.false_eq_true, if_false]

/-- Capacity that no extent uses leaves the space, and no extent is revoked. -/
theorem exec_dcdCapacityRelease_leaves {s : State} {space base pages : Nat} (hport : s.dev.poolPort space = true)
    (hapart : ∀ z ∈ s.dev.fab.extent, z.2.space = space →
      z.2.base / pageBytes + z.2.pages ≤ base ∨ base + pages ≤ z.2.base / pageBytes) :
    let left := s.dev.fab.added.flatMap fun (z : Nat × Nat × Nat) => if z.1 = space then cutRange z base pages else [z]
    let t : Dev := { s.dev with fab := { s.dev.fab with added := left } }
    exec (.dcdCapacityRelease space base pages) s =
      .next (s.onHome fun _ => t.move 4 space 0 outside (s.dev.spacePages space - t.spacePages space) none) := by
  have hnone : (s.dev.fab.extent.filter fun (z : Nat × Extent) => z.2.space == space &&
      decide (base < z.2.base / pageBytes + z.2.pages ∧ z.2.base / pageBytes < base + pages)) = [] := by
    rw [List.filter_eq_nil_iff]
    intro z hz hmeets
    simp only [Bool.and_eq_true, beq_iff_eq, decide_eq_true_eq] at hmeets
    obtain ⟨hspace, hlow, hhigh⟩ := hmeets
    have := hapart z hz hspace
    omega
  refine exec_onHome (Eq.refl (execDcdCapacityRelease space base pages s)) rfl ?_
  simp only [hport, hnone, Bool.not_true, Bool.false_eq_true, if_false, List.map_nil, List.sum_nil, List.foldl_nil, Nat.sub_zero]

/-- Settles O35: each row's guard holds under the clause's hypotheses, and its effect is the clause's. -/
theorem poolCommandsTakeEffect : Obligations.PoolCommandsTakeEffect := by
  intro s n x k e hn d
  have hwf := decide_eq_true hn
  refine ⟨fun h hchk => ?_, fun h hchk => ?_, fun h hle => ?_, fun a w off p v i ha hw hp hv hi hlive hin hoff => ?_,
    fun port why hport hrole => becomes_onDev (Eq.refl (execHostLinkLost port why s)) (decide_eq_true hport) ?_,
    fun src pages hsrc => becomes_onDev (Eq.refl (execPoison src pages s)) (decide_eq_true hsrc) rfl,
    fun space base pages hport hpages hapart => exec_dcdCapacityAdd_joins hport hpages hapart,
    fun space base pages hport hapart => exec_dcdCapacityRelease_leaves hport hapart⟩
  · obtain ⟨-, -, rfl, -⟩ := ready_facts h
    exact op_becomes h (Eq.refl (execPoolPageWrite n e.d s)) hwf hchk rfl
  · exact op_becomes h (Eq.refl (execPoolPageRead n x s)) hwf hchk rfl
  · obtain ⟨-, -, rfl, -⟩ := ready_facts h
    have hchk : (if fieldAt e.d 16 1 > 15 then stBad else stOk) = stOk := if_neg (Nat.not_lt.2 hle)
    exact ⟨fun hv => op_becomes h (Eq.refl (execPoolFlush n e.d s)) hwf hchk (doPoolFlush_without_window k hv),
      fun v hv hlive => op_becomes h (Eq.refl (execPoolFlush n e.d s)) hwf hchk (doPoolFlush_waits k rfl hv hlive)⟩
  · have hok : (a.wf && decide (w < 16)) = true := by simp [ha, hw]
    exact ⟨exec_hostLineAccess_reads hok hp hv hi hlive hin hoff,
      fun bs hidle => exec_hostLineAccess_writes hok hp hv hi hlive hin hoff bs hidle⟩
  · simp only [hrole, Bool.not_true, Bool.false_eq_true, if_false, d]

end Sys2Proof.Machine
end

section
/-! SUPPORT and CERTIFICATES. 11_dxl_fabric_pool.md: a hand-over of ownership at its source, its destination and its homes (R315–R318). -/

namespace Sys2Proof.Machine

/-! ### At the source (R315–R317) -/

/-- An object that may be handed over, under a TXN that is new, is fenced, and PREPARE goes to the home of each of its pages. -/
theorem doOwnOffer_prepares {d : Dev} (k : Nat) {e : DescEntry} {isSes : Bool} {obj : Nat} {anchor : U64} {rest : List U64}
    (hroom : d.fab.offer.length < offerLimit) (hobj : d.offerObject e.part e.d.target = some (isSes, obj, anchor :: rest))
    (hnew : tget d.fab.offer (BitVec.ofNat 32 (fieldAt e.d 20 4)).toNat = none) :
    let txn := BitVec.ofNat 32 (fieldAt e.d 20 4)
    let pages := anchor :: rest
    let msg : DirMsg := { txn := txn, src := d.id, srcPart := e.part, dst := fieldAt e.d 16 2 % 4096, dstPart := fieldAt e.d 18 1,
                          anchor := anchor, pages := pages, deadline := fieldAt e.d 24 2, outcome := 0, handle := 0 }
    let homes := (pages.map poolHome).eraseDups
    let t := if isSes then d.enter obj .closing else d.modRegion obj fun r => { r with offered := true }
    let o : OfferTxn := { desc := k, isSession := isSes, obj := obj, msg := msg, homes := homes }
    let u : Dev := { t with fab := { t.fab with offer := tput t.fab.offer txn.toNat o } }
    doOwnOffer d k e = homes.foldl (fun v h => v.emit (.ctrl h (.prepare { msg with pages := atHome pages h }))) (u.wait k (.offer txn)) := by
  simp only [doOwnOffer, ge_iff_le, Nat.not_le.2 hroom, if_false, Dev.startOffer, hobj, hnew, Option.isSome_none, Bool.false_eq_true]

section

/- A PREPARED for hand-over `t` of this source, whose OFFER has not gone out. -/
variable {s : State} {m : DirMsg} {t : OfferTxn} (hm : m.wf = true) (ht : tget s.dev.fab.offer m.txn.toNat = some t) (hsrc : m.src = s.dev.id)
  (hnot : t.offered = false)

include hm ht hsrc hnot

/-- The home is noted, and OFFER goes out once every home has answered. -/
theorem exec_prepared_notes :
    let home := (m.pages.head?.map poolHome).getD (poolHome m.anchor)
    let y := { t with prepared := if t.prepared.contains home then t.prepared else home :: t.prepared }
    let all := y.homes.all fun h => y.prepared.contains h
    let u : Dev := { s.dev with fab := { s.dev.fab with offer := tput s.dev.fab.offer m.txn.toNat { y with offered := all } } }
    Becomes (.prepared m true) s (if all then u.emit (.ctrl t.msg.dst (.offer t.msg (u.offerBody y))) else u) := by
  refine becomes_onDev (Eq.refl (execPrepared m true s)) hm ?_
  simp only [ht, hsrc, hnot, ne_eq, not_true_eq_false, Bool.false_eq_true, or_self, Bool.not_true, if_false]

theorem exec_prepared_refused : Becomes (.prepared m false) s (s.dev.sendAbort t.msg) := by
  refine becomes_onDev (Eq.refl (execPrepared m false s)) hm ?_
  simp only [ht, hsrc, hnot, ne_eq, not_true_eq_false, Bool.false_eq_true, or_self, Bool.not_false, if_false, if_true]

end

theorem exec_ownOfferTimeout_aborts {s : State} {i : U32} {t : OfferTxn} (ht : tget s.dev.fab.offer i.toNat = some t) :
    Becomes (.ownOfferTimeout i) s (s.dev.sendAbort t.msg) := by
  refine becomes_onDev (Eq.refl (execOwnOfferTimeout i s)) rfl ?_
  rw [ht, Option.elim_some]

/-! ### At the destination (R316, R317) -/

theorem exec_offer_held {s : State} {m : DirMsg} (o : OfferObj) (hm : m.wf = true)
    (hnone : tget s.dev.fab.accept (acceptKey m.src m.txn) = none) (hroom : s.dev.fab.hold.length < 64) :
    Becomes (.offer m o) s { s.dev with fab := { s.dev.fab with hold := s.dev.fab.hold ++ [(m, o)] } } := by
  refine becomes_onDev (Eq.refl (execOffer m o s)) hm ?_
  simp only [hnone, ge_iff_le, Nat.not_le.2 hroom, if_false]

/-- Handle of an offered object under the number and generation set aside for it. -/
def OfferObj.handleUnder (o : OfferObj) (dev part gen num : Nat) : U64 :=
  match o with
  | .session _ _ _ _ => mkHandle dev part gen num
  | .region _ _ _ _ _ _ _ => mkRegionHandle dev part gen num

/-- An object whose key is there, with frames and a number free for it, takes them, and COMMIT goes to the anchor home. -/
theorem matchOffer_commits {d t : Dev} {a : AcceptTxn} {o : OfferObj} {num g : Nat} (key : Nat) (m : DirMsg)
    (hkey : (d.storeKey a.part (OfferObj.keyId o)).isSome = true) (hframes : (OfferObj.frames o).1 ≤ d.freeFrames a.part)
    (hset : d.setAside a.part o = some (num, g, t)) :
    let u := t.moveFrames a.part 0 (OfferObj.frames o).2 (OfferObj.frames o).1
    d.matchOffer key a m o =
      ({ u with fab := { u.fab with accept := tput u.fab.accept key { a with offer := some (m, o, num, g) } } } : Dev).emit
        (.ctrl (poolHome m.anchor) (.commit { m with handle := OfferObj.handleUnder o t.id a.part g num })) := by
  simp only [Dev.matchOffer, Option.isNone_eq_false_iff.2 hkey, Nat.not_lt.2 hframes, hset, Bool.false_eq_true, if_false]
  rfl

/-- An OFFER whose OWN_ACCEPT waits meets it. -/
theorem exec_offer_meets {s : State} {m : DirMsg} {a : AcceptTxn} (o : OfferObj) (hm : m.wf = true)
    (ha : tget s.dev.fab.accept (acceptKey m.src m.txn) = some a) (hpart : a.part = m.dstPart) (hnone : a.offer = none) :
    Becomes (.offer m o) s (s.dev.matchOffer (acceptKey m.src m.txn) a m o) := by
  refine becomes_onDev (Eq.refl (execOffer m o s)) hm ?_
  simp only [ha, hpart, hnone, Option.isNone_none, and_self, if_true]

section

/- An OWN_ACCEPT under a TXN of a source that no other one waits for, once it waits. -/
variable {d t : Dev} {k : Nat} {e : DescEntry} {src : Nat} {txn : U32} {a : AcceptTxn} (hsrc : fieldAt e.d 16 2 % 4096 = src)
  (htxn : BitVec.ofNat 32 (fieldAt e.d 20 4) = txn) (hnew : tget d.fab.accept (acceptKey src txn) = none)
  (ha : { desc := k, part := e.part, memIdx := BitVec.ofNat 32 (fieldAt e.d 28 4) } = a)
  (ht : ({ d with fab := { d.fab with accept := tput d.fab.accept (acceptKey src txn) a } } : Dev).wait k (.accept src txn) = t)

include hsrc htxn hnew ha ht

theorem doOwnAccept_waits
    (hnone : (d.fab.hold.find? fun z => z.1.src == src && z.1.txn == txn && z.1.dstPart == e.part) = none) : doOwnAccept d k e = t := by
  have hold : t.fab.hold = d.fab.hold := ht ▸ rfl
  simp only [doOwnAccept, hsrc, htxn, hnew, Option.isSome_none, Bool.false_eq_true, if_false, ha, ht, hold, hnone]

theorem doOwnAccept_meets {m : DirMsg} {o : OfferObj}
    (hheld : (d.fab.hold.find? fun z => z.1.src == src && z.1.txn == txn && z.1.dstPart == e.part) = some (m, o)) :
    doOwnAccept d k e = ({ t with fab := { t.fab with hold := t.fab.hold.filter fun z => !(z.1.src == src && z.1.txn == txn) } } :
      Dev).matchOffer (acceptKey src txn) a m o := by
  have hold : t.fab.hold = d.fab.hold := ht ▸ rfl
  simp only [doOwnAccept, hsrc, htxn, hnew, Option.isSome_none, Bool.false_eq_true, if_false, ha, ht, hold, hheld]

end

theorem exec_ownAcceptTimeout_ends {s : State} {src : Nat} {i : U32} {a : AcceptTxn} (hsrc : src < 4096)
    (ha : tget s.dev.fab.accept (acceptKey src i) = some a) (hnone : a.offer = none) :
    Becomes (.ownAcceptTimeout src i) s ((s.dev.failOpen a.desc stWrong none).dropAccept (acceptKey src i)) := by
  refine becomes_onDev (Eq.refl (execOwnAcceptTimeout src i s)) (decide_eq_true hsrc) ?_
  simp only [ha, hnone, Option.isNone_none, if_true]

/-- At the destination COMMITTED makes the object. -/
theorem exec_committed_creates {s : State} {m m' : DirMsg} {a : AcceptTxn} {o : OfferObj} {num g : Nat} (h : U64) (hm : m.wf = true)
    (hdst : m.dst = s.dev.id) (hsrc : m.src ≠ s.dev.id) (ha : tget s.dev.fab.accept (acceptKey m.src m.txn) = some a)
    (ho : a.offer = some (m', o, num, g)) : Becomes (.committed m h) s
      (((s.dev.createObject a.part a.memIdx o num g).ok a.desc h (BitVec.ofNat 32 m'.pages.length)).dropAccept (acceptKey m.src m.txn)) := by
  refine becomes_onDev (Eq.refl (execCommitted m h s)) hm ?_
  simp only [if_pos hdst, if_neg hsrc, ha, ho]

/-- At the source COMMITTED lets the session go, and its OWN_OFFER completes. -/
theorem exec_committed_lets_session_go {s : State} {m : DirMsg} {t : OfferTxn} (h : U64) (hm : m.wf = true) (hsrc : m.src = s.dev.id)
    (hdst : m.dst ≠ s.dev.id) (ht : tget s.dev.fab.offer m.txn.toNat = some t) (hses : t.isSession = true) : Becomes (.committed m h) s
      ((((s.dev.modSes t.obj fun z => { z with pages := [], blocks := [], dropped := 0 }).retable t.obj).ok t.desc h
        (BitVec.ofNat 32 t.msg.pages.length)).endOffer m.txn.toNat) := by
  refine becomes_onDev (Eq.refl (execCommitted m h s)) hm ?_
  simp only [if_neg hdst, if_pos hsrc, ht, hses, if_true]

/-- Settles O36: each row's guard holds under the clause's hypotheses, and its effect is the clause's. -/
theorem offersTakeEffect : Obligations.OffersTakeEffect := by
  intro s n x k e m hn hm d txn key
  have hwf := decide_eq_true hn
  refine ⟨fun h hchk => ?_, fun t ht hsrc hnot => ?_, fun i t ht => exec_ownOfferTimeout_aborts ht,
    fun o hnone hroom => exec_offer_held o hm hnone hroom, fun o a ha hpart hnone hkey hframes num g t hset => ?_,
    fun src i hsrc => becomes_onDev (Eq.refl (execOfferHoldTimeout src i s)) (decide_eq_true hsrc) rfl, ?_,
    fun src i a hsrc ha hnone => exec_ownAcceptTimeout_ends hsrc ha hnone,
    fun h a m' o num g hdst hsrc ha ho => exec_committed_creates h hm hdst hsrc ha ho,
    fun h t hsrc hdst ht hses => exec_committed_lets_session_go h hm hsrc hdst ht hses⟩
  · obtain ⟨-, -, rfl, -⟩ := ready_facts h
    exact ⟨fun hfull => op_becomes h (Eq.refl (execOwnOffer n e.d s)) hwf hchk (if_pos hfull),
      fun isSes obj anchor rest hroom hobj hnew =>
        op_becomes h (Eq.refl (execOwnOffer n e.d s)) hwf hchk (doOwnOffer_prepares k hroom hobj hnew)⟩
  · have hnotes := exec_prepared_notes hm ht hsrc hnot
    exact ⟨fun hsome => hnotes.trans (by rw [if_neg (Bool.eq_false_iff.1 hsome)]), fun hall => hnotes.trans (by rw [if_pos hall]),
      exec_prepared_refused hm ht hsrc hnot⟩
  · rw [Becomes, exec_offer_meets o hm ha hpart hnone, matchOffer_commits key m hkey hframes hset]
    rfl
  · intro src key h hmin hmax hmem hnew a t mine
    obtain ⟨-, -, rfl, -⟩ := ready_facts h
    have hchk : (if fieldAt e.d 24 2 = 0 ∨ fieldAt e.d 24 2 > 60000 ∨ !d.memIndexOk e.part (fieldAt e.d 28 4) then stBad else stOk) = stOk := by
      rw [if_neg]
      simp [hmem]
      omega
    exact ⟨fun hnone => op_becomes h (Eq.refl (execOwnAccept n e.d s)) hwf hchk (doOwnAccept_waits rfl rfl hnew rfl rfl hnone),
      fun m o hheld => op_becomes h (Eq.refl (execOwnAccept n e.d s)) hwf hchk (doOwnAccept_meets rfl rfl hnew rfl rfl hheld)⟩

/-! ### PREPARE (R316) -/

section

variable {s : State} {m : DirMsg} (hm : m.wf = true)

include hm

theorem exec_prepare_makes_pending (hall : ∀ a ∈ m.pages, s.dev.handable m a = true) : Becomes (.prepare m) s
    ((m.pages.foldl (fun (t : Dev) a => t.pageTo (poolSpace a) (poolOffset a / pageBytes) fun y =>
      { y with st := .pending, hand := some (DirMsg.hand m) }) s.dev).emit (.ctrl m.src (.prepared m true))) :=
  becomes_onDev (Eq.refl (execPrepare m s)) hm (if_pos (List.all_eq_true.2 hall))

theorem exec_prepare_refuses (hsome : ∃ a ∈ m.pages, s.dev.handable m a = false) :
    Becomes (.prepare m) s (s.dev.emit (.ctrl m.src (.prepared m false))) := by
  obtain ⟨a, ha, hno⟩ := hsome
  refine becomes_onDev (Eq.refl (execPrepare m s)) hm (if_neg fun hall => ?_)
  exact Bool.false_ne_true (hno.symm.trans (List.all_eq_true.1 hall a ha))

/-! ### COMMIT and ABORT (R316, R317) -/

theorem exec_commit_elsewhere (haway : poolHome m.anchor ≠ s.dev.id) :
    exec (.commit m) s = .next (s.onHome fun d => d.decidePages m true) :=
  exec_onHome (Eq.refl (execCommit m s)) hm (if_pos haway)

section

variable (hanchor : poolHome m.anchor = s.dev.id)

include hanchor

/-- The first COMMIT at the anchor home is the commit point: it is recorded, and everyone is told. -/
theorem exec_commit_decides (hopen : s.dev.verdict m = none) (hheld : (s.dev.heldBy m).isEmpty = false) :
    exec (.commit m) s = .next (s.onHome fun d =>
      let t : Dev := { d with fab := { d.fab with decided := (m.src, m.txn, 1) :: d.fab.decided } }
      let u := (t.emit (.ctrl m.dst (.committed m m.handle))).emit (.ctrl m.src (.committed m m.handle))
      ((u.otherHomes m).foldl (fun v h => v.emit (.ctrl h (.commit m))) u).decidePages m true) := by
  refine exec_onHome (Eq.refl (execCommit m s)) hm ?_
  simp only [if_neg (not_not_intro hanchor), hopen, hheld, Bool.false_eq_true, if_false]

theorem exec_commit_after_abort (haborted : s.dev.verdict m = some 2) :
    exec (.commit m) s = .next (s.onHome fun d => d.emit (.ctrl m.dst (.abort m))) := by
  refine exec_onHome (Eq.refl (execCommit m s)) hm ?_
  simp only [if_neg (not_not_intro hanchor), haborted]

theorem exec_abort_after_commit (hcommitted : s.dev.verdict m = some 1) : exec (.abort m) s = .next (s.onHome fun d => d) :=
  exec_onHome (Eq.refl (execAbort m s)) hm (if_pos ⟨hanchor, hcommitted⟩)

/-- The first ABORT at an anchor home that is neither the source nor the destination. -/
theorem exec_abort_decides (hopen : s.dev.verdict m = none) (hsrc : m.src ≠ s.dev.id) (hdst : m.dst ≠ s.dev.id) :
    exec (.abort m) s = .next (s.onHome fun d => d.abortHere m) := by
  refine exec_onHome (Eq.refl (execAbort m s)) hm ?_
  simp only [hanchor, hopen, if_neg hsrc, if_neg hdst, reduceCtorEq, and_false, decide_true, Bool.not_true,
    Bool.false_eq_true, false_and, if_false, if_true]

end

section

variable (haway : poolHome m.anchor ≠ s.dev.id)

include haway

theorem exec_abort_at_source (hsrc : m.src = s.dev.id) (hdst : m.dst ≠ s.dev.id) (hzero : m.outcome = 0) :
    exec (.abort m) s = .next (s.onHome fun d => (d.decidePages m false).offerAborted m.txn.toNat stWrong) := by
  refine exec_onHome (Eq.refl (execAbort m s)) hm ?_
  simp only [haway, hzero, if_pos hsrc, if_neg hdst, false_and, ne_eq, not_true_eq_false, if_false, if_true]

theorem exec_abort_at_destination (hsrc : m.src ≠ s.dev.id) (hdst : m.dst = s.dev.id) :
    exec (.abort m) s = .next (s.onHome fun d =>
      (d.decidePages m false).acceptAborted m (if m.outcome = 0 then stWrong else BitVec.ofNat 8 m.outcome)) := by
  refine exec_onHome (Eq.refl (execAbort m s)) hm ?_
  simp only [haway, hsrc, if_pos hdst, false_and, and_false, if_false]

end

/-! ### Deadlines and queries (R318) -/

section

/- A QUERY at the anchor home, for a page of another home. -/
variable {a : U64} {rest : List U64} (hanchor : poolHome m.anchor = s.dev.id) (hpages : m.pages = a :: rest) (hfar : poolHome a ≠ s.dev.id)

include hanchor hpages hfar

/-- The anchor home answers with its record, which is an abort where it had none. -/
theorem exec_query_answers : exec (.query m) s = .next (s.onHome fun d =>
    let t := if d.verdict m = none then d.abortHere m else d
    t.emit (.ctrl (poolHome a) (if t.verdict m = some 1 then .commit m else .abort m))) := by
  refine exec_onHome (Eq.refl (execQuery m s)) hm ?_
  simp only [if_neg (not_not_intro hanchor), hpages, List.head?_cons, Option.map_some, Option.getD_some, if_neg hfar]

theorem exec_query_unknown (hopen : s.dev.verdict m = none) : exec (.query m) s = .next (s.onHome fun d =>
    let t := d.abortHere m
    t.emit (.ctrl (poolHome a) (if t.verdict m = some 1 then .commit m else .abort m))) := by
  rw [exec_query_answers hm hanchor hpages hfar]
  refine congrArg _ (onHome_congr ?_)
  simp only [hopen, if_true]

theorem exec_query_known {v : Nat} (hv : s.dev.verdict m = some v) : exec (.query m) s = .next (s.onHome fun d =>
    d.emit (.ctrl (poolHome a) (if v = 1 then .commit m else .abort m))) := by
  rw [exec_query_answers hm hanchor hpages hfar]
  refine congrArg _ (onHome_congr ?_)
  simp only [hv, reduceCtorEq, if_false, Option.some.injEq]

end

end

/-- A PENDING page of this home whose deadline is over freezes, and the anchor home is asked. -/
theorem exec_pendingPageDeadline_freezes {s : State} {page : U64} {h : Hand} (hhome : poolHome page = s.dev.id)
    (hst : (s.dev.dirOf (poolSpace page) (poolOffset page / pageBytes)).st = .pending)
    (hhand : (s.dev.dirOf (poolSpace page) (poolOffset page / pageBytes)).hand = some h) : Becomes (.pendingPageDeadline page) s
      ((((s.dev.pageTo (poolSpace page) (poolOffset page / pageBytes) fun y => { y with st := .frozen }).flag
        FAB_STATUS_PAGE_FROZEN FAB_EVENTS_FROZEN_COUNT).raiseAt none 0x0A15 page 2 0x203 (0x0A00 + poolSpace page) 0xFF).emit
        (.ctrl (poolHome h.anchor) (.query (h.msg [pageStart page] 0)))) := by
  refine becomes_onDev (Eq.refl (execPendingPageDeadline page s)) rfl ?_
  simp only [hhome, hst, hhand, and_self, if_true]

/-! ### OWN_RESOLVE (R318) -/

/-- OWN_RESOLVE's effect on page `a`: both devices are told the side, and the page is that side's. -/
def Dev.resolvePage (side : Nat) (t : Dev) (a : U64) : Dev :=
  let y := t.dirOf (poolSpace a) (poolOffset a / pageBytes)
  let told := y.hand.elim t fun h =>
    let c := if side = 1 then Ctrl.committed (h.msg [a] 0) 0 else Ctrl.abort (h.msg [a] 0)
    (t.emit (.ctrl h.src c)).emit (.ctrl h.dst c)
  told.pageTo (poolSpace a) (poolOffset a / pageBytes) fun y => y.decide (side == 1)

/-- Every page is FROZEN and its anchor home out of reach: each is decided. -/
theorem doOwnResolve_decides {d : Dev} (k : Nat) {e : DescEntry}
    (hfrozen : ∀ a ∈ resolvePages e.d, (d.dirOf (poolSpace a) (poolOffset a / pageBytes)).st = .frozen ∧
      ∃ h, (d.dirOf (poolSpace a) (poolOffset a / pageBytes)).hand = some h ∧ d.reaches (poolHome h.anchor) = false) :
    doOwnResolve d k e =
      ((resolvePages e.d).foldl (Dev.resolvePage (fieldAt e.d 28 1)) d).ok k (BitVec.ofNat 64 (resolvePages e.d).length) 0 := by
  have hall : ((resolvePages e.d).all fun a => (d.dirOf (poolSpace a) (poolOffset a / pageBytes)).st == .frozen &&
      (d.dirOf (poolSpace a) (poolOffset a / pageBytes)).hand.any fun h => !d.reaches (poolHome h.anchor)) = true := by
    rw [List.all_eq_true]
    intro a ha
    obtain ⟨hst, h, hhand, hfar⟩ := hfrozen a ha
    simp [hst, hhand, hfar]
  simp only [doOwnResolve, hall, Bool.not_true, Bool.false_eq_true, if_false]
  refine congrArg (fun f => Dev.ok ((resolvePages e.d).foldl f d) k _ 0) (funext₂ fun t a => ?_)
  dsimp only [Dev.resolvePage]
  cases (t.dirOf (poolSpace a) (poolOffset a / pageBytes)).hand with
  | none => rfl
  | some h => simp only [beq_iff_eq, Option.elim_some]

/-- Settles O37: each row's guard holds under the clause's hypotheses, and its effect is the clause's. -/
theorem homesTakeEffect : Obligations.HomesTakeEffect := by
  intro s n x k e m hn hm d
  refine ⟨exec_prepare_makes_pending hm, exec_prepare_refuses hm, exec_commit_elsewhere hm, exec_commit_decides hm,
    exec_commit_after_abort hm, exec_abort_after_commit hm, exec_abort_decides hm, exec_abort_at_source hm,
    exec_abort_at_destination hm, fun page h hhome hst hhand => exec_pendingPageDeadline_freezes hhome hst hhand,
    fun a rest hanchor hpages hfar => ⟨exec_query_known hm hanchor hpages hfar, exec_query_known hm hanchor hpages hfar,
      exec_query_unknown hm hanchor hpages hfar⟩,
    fun h hchk hfrozen => ?_⟩
  obtain ⟨-, -, rfl, -⟩ := ready_facts h
  exact op_onHome h (Eq.refl (execOwnResolve n e.d s)) (decide_eq_true hn) hchk (doOwnResolve_decides k hfrozen)

end Sys2Proof.Machine
end

section
/-! SUPPORT and CERTIFICATES. The step and the queue, what a command may do to the memory lent to the pool (11 R297, R308, R314), the state
after reset, and the encodings of descriptors (03 Table 03.3) and register fields. -/

namespace Sys2Proof.Machine

/-! ### What one command can do to the state -/

/-- What command `i` may make of `s`: it changes the device; with it pages of lent HBM are zeroed as they enter and leave an extent; power may
go from the HBM; a start finds nothing lent; and WRITE and DATA_FLIT alone store bytes. -/
inductive Effect (i : Instr) (s : State) : State → Prop
  | dev (d : Dev) : Effect i s { s with dev := d }
  | home (f : Dev → Dev) : Effect i s (s.onHome f)
  | power (f : Dev → Dev) : Effect i s (s.onPower f)
  | lost (d : Dev) : Effect i s { s with dev := d, mem := [] }
  | stores (d : Dev) (ws : List (Nat × List Byte)) (h : (∃ f, i = .write f) ∨ ∃ n b, i = .dataFlit n b) :
    Effect i s { s with dev := d, mem := applyWrites s.mem ws }

/-- Of the frame types only WRITE stores bytes. -/
theorem takeFrame_stores_nothing {d : Dev} {f : Frame} (h : f.type ≠ 0x03) (mem : List Host.Cell) (info : Option ExtentInfo) :
    (d.takeFrame mem f info).2 = [] := by
  unfold Dev.takeFrame
  split
  case h_3 h3 => exact absurd (BitVec.eq_of_toNat_eq h3) h
  all_goals rfl

theorem getFrame_stores_nothing {d : Dev} {f : Frame} (h : f.type ≠ 0x03) (mem : List Host.Cell) (cls : Nat) (info : Option ExtentInfo) :
    (d.getFrame mem f cls info).2 = [] := by
  unfold Dev.getFrame
  split
  · rfl
  · split
    · rfl
    · split
      · rfl
      · next hopen => exact takeFrame_stores_nothing (by rwa [openFrame_type hopen]) mem info

theorem getFrame_effect {s : State} {type : Byte} (i : Instr) (f : Frame) (h : type ≠ 0x03) (info : Option ExtentInfo) :
    Effect i s (s.getFrame { f with type := type } info) := by
  rw [State.getFrame, getFrame_stores_nothing (f := { f with type := type }) h]
  exact .dev _

/-- Every command answers one of these effects when its operands are in range. -/
theorem exec_effect (i : Instr) (s : State) : ∃ t, exec i s = guarded i (.next t) ∧ Effect i s t := by
  cases i with
  | extentRequest | extentReturn | extentRevoke | revokeAck | revokeAckTimeout | dcdCapacityRelease | commit | abort | query | ownResolve
  | scrubComplete => exact ⟨_, rfl, .home _⟩
  | selftestPhaseDone | shutdownStepTimeout | snapshotChargeTimeout | modResetHeld5s | watchdogTimeout | railFault | thermalTripTimeout
  | inputVoltageEvent | manifestWriteDone | snapshotWriteDone | durableCommitDone | holdupMeasure | leakDetect | coolantSample
  | coolantConditionTimeout | coolantReversedTimeout | powerConnect | overvoltageRestart | standbyRailsUp | coolantCheckTick | resetRelease
  | modResetRelease | pldmShutdown | registerWrite | shutdown | restart => exact ⟨_, rfl, .power _⟩
  | localSafePoint | safeReport | idleBoundaryTimer | stepSyncEdge | stepMarkToken | syncWindowExpiry | commitToken | linkCreditDrained
  | drainTimeout | rebuildTimeout | peerLossTimeout | shrinkToken | mirrorAck | mirrorAckTimeout | partReset | patrolScrubTick =>
    exact ⟨_, rfl, .power _⟩
  | read | readData | writeAck | tile => exact ⟨_, rfl, getFrame_effect _ _ (by decide) none⟩
  | write f => exact ⟨_, rfl, .stores _ _ (.inl ⟨f, rfl⟩)⟩
  | dataFlit n b => exact ⟨_, rfl, .stores _ _ (.inr ⟨n, b, rfl⟩)⟩
  | errorResponse f e =>
    cases hoffer : (if f.dst = s.dev.id then s.dev.offerTag f.tag else none) with
    | none => exact ⟨_, exec_errorResponse_of_no_offer hoffer, getFrame_effect _ _ (by decide) e⟩
    | some t =>
      refine ⟨{ s with dev := if t.msg.dst = f.src then s.dev.sendAbort t.msg else s.dev }, ?_, .dev _⟩
      change execErrorResponse f e s = _
      rw [execErrorResponse, hoffer]
      rfl
  | startPhasesDone r =>
    by_cases hseq : s.dev.pwr.seq = .u5
    · refine ⟨{ s with dev := s.dev.startUp s.hw r, mem := [] }, ?_, .lost _⟩
      change execStartPhasesDone r s = _
      rw [execStartPhasesDone, if_pos hseq]
    · refine ⟨s, ?_, .dev s.dev⟩
      change execStartPhasesDone r s = _
      rw [execStartPhasesDone, if_neg hseq]
  | _ => exact ⟨_, rfl, .dev _⟩

/-- A command that answers a next state is well formed, and has one of these effects. -/
theorem exec_next_effect {i : Instr} {s t : State} (h : exec i s = .next t) : Effect i s t := by
  obtain ⟨u, hexec, heff⟩ := exec_effect i s
  cases hwf : i.wf with
  | true =>
    rw [hexec, guarded_wf _ _ hwf] at h
    cases h
    exact heff
  | false =>
    rw [hexec, guarded_not_wf _ _ hwf] at h
    cases h

theorem Effect.hw_eq {i : Instr} {s t : State} (h : Effect i s t) : t.hw = s.hw := by cases h <;> rfl

theorem Effect.pending_eq {i : Instr} {s t : State} (h : Effect i s t) : t.pending = s.pending := by cases h <;> rfl

/-- Settles O3: a command in range answers one of the effects, each of which leaves the option and the queue alone; that any other is refused by
name is the model's (log 94). -/
theorem wellFormedCommandsAnswer : Obligations.WellFormedCommandsAnswer := by
  intro i s
  obtain ⟨t, hexec, heff⟩ := exec_effect i s
  rw [hexec]
  exact ⟨fun hwf => ⟨t, guarded_wf _ _ hwf, heff.hw_eq, heff.pending_eq⟩, fun hwf => guarded_not_wf _ _ hwf⟩

/-- Settles O1: the step takes the command off the queue, and the queue that is left is the state's own. -/
theorem stepRunsTheFrontCommand : Obligations.StepRunsTheFrontCommand := fun _ _ => rfl

/-! ### The canonical form of the lent memory (11 R308) -/

theorem Effect.keeps_wf {i : Instr} {s t : State} (h : Effect i s t) (hm : Memory.wf s.mem = true) : Memory.wf t.mem = true := by
  cases h with
  | dev d => exact hm
  | home f => exact onHome_wf s f hm
  | power f => exact onPower_wf s f hm
  | lost d => rfl
  | stores d ws => exact applyWrites_wf ws hm

/-- Settles O4: a tick leaves the memory alone, and every effect of a command keeps the canonical form. -/
theorem stepKeepsMemoryCanonical : Obligations.StepKeepsMemoryCanonical := by
  intro s t hm hstep
  unfold step at hstep
  split at hstep
  · cases hstep
    exact hm
  · exact (exec_next_effect hstep).keeps_wf hm

/-! ### Bytes that commands other than WRITE and DATA_FLIT change (11 R297, R308, R314) -/

/-- Each byte of memory `m` is that of `l`, or 0. -/
def OnlyZeroed (l m : List Host.Cell) : Prop := ∀ a, memRead m a = memRead l a ∨ memRead m a = 0

theorem OnlyZeroed.trans {l m n : List Host.Cell} (h : OnlyZeroed l m) (k : OnlyZeroed m n) : OnlyZeroed l n := by
  intro a
  rcases k a with hk | hk
  · rw [hk]
    exact h a
  · exact .inr hk

theorem memRead_memZero (m : List Host.Cell) (b n a : Nat) : memRead (memZero m b n) a = if b ≤ a ∧ a < b + n then 0 else memRead m a := by
  unfold memZero
  induction m with
  | nil => simp only [List.filter_nil, memRead, ite_self]
  | cons c r ih =>
    obtain ⟨k, v⟩ := c
    by_cases hk : k < b ∨ b + n ≤ k
    · rw [List.filter_cons_of_pos (by simpa using hk), memRead, memRead, ih]
      by_cases hka : k = a
      · rw [if_pos hka, if_pos hka, if_neg (by omega)]
      · rw [if_neg hka, if_neg hka]
    · rw [List.filter_cons_of_neg (by simpa using hk), memRead, ih]
      split
      · rfl
      · rw [if_neg (by omega)]

theorem memZero_onlyZeroed (m : List Host.Cell) (b n : Nat) : OnlyZeroed m (memZero m b n) := by
  intro a
  rw [memRead_memZero]
  split
  · exact .inr rfl
  · exact .inl rfl

theorem foldl_memZero_onlyZeroed {β : Type} (base len : β → Nat) (xs : List β) (m : List Host.Cell) :
    OnlyZeroed m (xs.foldl (fun m x => memZero m (base x) (len x)) m) := by
  induction xs generalizing m with
  | nil => exact fun a => .inl rfl
  | cons x xs ih => exact (memZero_onlyZeroed m _ _).trans (ih _)

theorem Effect.onlyZeroed {i : Instr} {s t : State} (h : Effect i s t) (hw : ∀ f, i ≠ .write f) (hd : ∀ n b, i ≠ .dataFlit n b) :
    OnlyZeroed s.mem t.mem := by
  cases h with
  | dev d => exact fun a => .inl rfl
  | home f => exact foldl_memZero_onlyZeroed (fun e : Nat × Extent => e.2.base) (fun e => e.2.pages * pageBytes) _ s.mem
  | power f =>
    intro a
    unfold State.onPower
    dsimp only
    split
    · exact .inr rfl
    · exact .inl rfl
  | lost d => exact fun a => .inr rfl
  | stores d ws h =>
    obtain ⟨f, rfl⟩ | ⟨n, b, rfl⟩ := h
    · exact absurd rfl (hw f)
    · exact absurd rfl (hd n b)

/-- Settles O6: every effect but that of WRITE and DATA_FLIT leaves a byte or makes it 0. A frame to the device's own home comes back as a
WRITE (log 19). -/
theorem onlyWritesStoreData : Obligations.OnlyWritesStoreData :=
  fun _ _ _ hw hd h => (exec_next_effect h).onlyZeroed hw hd

/-- Settles O5: the fields of the state after reset (logs 2, 5, 6, 8), which stands at U5. -/
theorem resetHoldsNothing : Obligations.ResetHoldsNothing := ⟨rfl, rfl, rfl, rfl, rfl, rfl, rfl⟩

/-! ### The 64 bytes of a descriptor (03 Table 03.3) -/

/-- Bit `n` of a descriptor's 64 bytes lies in the field whose bytes hold it. -/
theorem getLsbD_encodeDesc (op : Byte) (x : Desc) (n : Nat) : (encodeDesc op x).getLsbD n =
    if n < 8 then op.getLsbD n else if n < 16 then x.flags.getLsbD (n - 8) else if n < 32 then x.rsv.getLsbD (n - 16)
    else if n < 64 then x.tag.getLsbD (n - 32) else if n < 128 then x.target.getLsbD (n - 64) else x.body.getLsbD (n - 128) := by
  simp only [encodeDesc, BitVec.getLsbD_append]
  grind

/-- A field that the bytes from bit `lo` hold is read back from there. -/
theorem extract_encodeDesc {w : Nat} (op : Byte) (x : Desc) (lo : Nat) (v : BitVec w)
    (h : ∀ n, n < w → (encodeDesc op x).getLsbD (lo + n) = v.getLsbD n) : (encodeDesc op x).extractLsb' lo w = v :=
  BitVec.eq_of_getLsbD_eq fun n hn => by rw [BitVec.getLsbD_extractLsb', decide_eq_true hn, Bool.true_and, h n hn]

theorem decodeDesc_encodeDesc (op : Byte) (x : Desc) : decodeDesc (encodeDesc op x) = (op, x) := by
  have hop := extract_encodeDesc op x 0 op fun n hn => by grind [getLsbD_encodeDesc]
  have hflags := extract_encodeDesc op x 8 x.flags fun n hn => by grind [getLsbD_encodeDesc]
  have hrsv := extract_encodeDesc op x 16 x.rsv fun n hn => by grind [getLsbD_encodeDesc]
  have htag := extract_encodeDesc op x 32 x.tag fun n hn => by grind [getLsbD_encodeDesc]
  have htarget := extract_encodeDesc op x 64 x.target fun n hn => by grind [getLsbD_encodeDesc]
  have hbody := extract_encodeDesc op x 128 x.body fun n hn => by grind [getLsbD_encodeDesc]
  rw [decodeDesc, hop, hflags, hrsv, htag, htarget, hbody]

theorem encodeDesc_decodeDesc (w : BitVec 512) : encodeDesc (decodeDesc w).1 (decodeDesc w).2 = w := by
  refine BitVec.eq_of_getLsbD_eq fun n hn => ?_
  rw [getLsbD_encodeDesc]
  simp only [decodeDesc, BitVec.getLsbD_extractLsb']
  grind

/-- Settles O8: the fields lie side by side in the 64 bytes, and fill them. -/
theorem descriptorEncodingRoundTrips : Obligations.DescriptorEncodingRoundTrips := ⟨decodeDesc_encodeDesc, encodeDesc_decodeDesc⟩

/-- Settles O12: a field put into a register changes the field's bits of that register alone. -/
theorem fieldReadsBack : Obligations.FieldReadsBack :=
  fun d f v hf => ⟨getF_setF_same d f v hf, fun g _ happart _ => getF_setF_apart d f g v (.inr happart), fun o ho => reg_setF_other d f o v ho⟩

end Sys2Proof.Machine
end

section
/-! SUPPORT and CERTIFICATES. 12_sluice_traffic.md: policers (R325, R326) and Sluice's commands (R324, R330, R332–R334, R337, R339, R340). -/

namespace Sys2Proof.Machine

/-! ### Policers (R325, R326) -/

/-- A refilled bucket holds no more than its burst (R325). -/
theorem refill_le_burst (q : Policer) (now : U64) :
    (q.refill now).descTok ≤ q.descBurst * descToken ∧ (q.refill now).byteTok ≤ q.byteBurst * byteToken :=
  ⟨Nat.min_le_right _ _, Nat.min_le_right _ _⟩

/-- A descriptor conforms to a refilled bucket: a whole descriptor token is there, and its bytes' tokens where bytes are policed (R326). -/
def Policer.Conforms (q : Policer) (bytes : Nat) : Prop := descToken ≤ q.descTok ∧ (q.byteRate = 0 ∨ bytes * byteToken ≤ q.byteTok)

theorem decide_of_conforms {q : Policer} {now : U64} {bytes : Nat} (h : (q.refill now).Conforms bytes) :
    q.decide now bytes = (true, { q.refill now with
      descTok := (q.refill now).descTok - descToken,
      byteTok := if q.byteRate = 0 then (q.refill now).byteTok else (q.refill now).byteTok - bytes * byteToken }) := if_pos h

theorem decide_of_not_conforms {q : Policer} {now : U64} {bytes : Nat} (h : ¬ (q.refill now).Conforms bytes) :
    q.decide now bytes = (false, q.refill now) := if_neg h

/-- Settles O30: a descriptor that conforms takes its tokens, which are there; another leaves the refilled buckets. -/
theorem policersTakeTokensOrNone : Obligations.PolicersTakeTokensOrNone := by
  intro q now bytes r t
  obtain ⟨hdesc, hbyte⟩ := refill_le_burst q now
  by_cases hconf : r.Conforms bytes
  · have ht := decide_of_conforms hconf
    have hcost : descToken ≤ r.descTok ∧ (q.byteRate = 0 ∨ bytes * byteToken ≤ r.byteTok) := hconf
    have hbytes : q.byteRate ≠ 0 → t.2.byteTok + bytes * byteToken = r.byteTok := fun hrate => by
      simp only [t, ht, if_neg hrate]
      exact Nat.sub_add_cancel (hcost.2.resolve_left hrate)
    refine ⟨⟨fun _ => hcost, fun _ => congrArg Prod.fst ht⟩, fun _ => ⟨?_, hbytes⟩, fun hfail => ?_, hdesc, hbyte, ?_⟩
    · simp only [t, ht]
      exact Nat.sub_add_cancel hcost.1
    · exact absurd (hfail.symm.trans (congrArg Prod.fst ht)) Bool.false_ne_true
    · simp only [t, ht]
      rfl
  · have ht := decide_of_not_conforms hconf
    have hfail : ¬ t.1 = true := fun hpass => absurd ((congrArg Prod.fst ht).symm.trans hpass) Bool.false_ne_true
    exact ⟨⟨fun hpass => absurd hpass hfail, fun hc => absurd hc hconf⟩, fun hpass => absurd hpass hfail, fun _ => congrArg Prod.snd ht,
      hdesc, hbyte, congrArg (fun u : Bool × Policer => u.2.at_) ht⟩

/-! ### Sluice's commands (R324, R330, R332–R334, R337, R339, R340) -/

/-- The shaper that a SHAPER_SET `x` of partition `p` makes of `old` at time `now`. -/
def shaperOf (p : Nat) (x : Desc) (now : U64) (old : Option Shaper) : Shaper :=
  { part := p, egress := fieldAt x 18 1, classes := BitVec.ofNat 8 (fieldAt x 19 1), rate := fieldAt x 20 4, burst := fieldAt x 24 4,
    tokens := if fieldAt x 28 1 = 0 then (fieldAt x 24 4 * 65536 : Nat) else 0, at_ := now, held := old.elim [] fun y => y.held }

/-- A SHAPER_SET whose classes no other shaper of the partition takes at that egress point sets the shaper and judges what it holds. -/
theorem doShaperSet_sets {d t : Dev} (k : Nat) {e : DescEntry} {n : Nat} {old : Option Shaper} (hn : fieldAt e.d 16 2 = n)
    (hfree : d.overlaps e.part n (fieldAt e.d 18 1) (BitVec.ofNat 8 (fieldAt e.d 19 1)) = false)
    (ht : (if (tget d.slu.shaper n).any (fun y => y.egress != fieldAt e.d 18 1 || y.classes != BitVec.ofNat 8 (fieldAt e.d 19 1))
      then (d.clearShaper n).1 else d) = t) (hold : (tget t.slu.shaper n).map (fun y => y.refill t.clock.now) = old) :
    doShaperSet d k e = ((t.setShaper n (shaperOf e.part e.d t.clock.now old)).judge n).ok k
      (BitVec.ofInt 64 (old.elim 0 fun y => y.tokens / 65536)) 0 := by
  simp only [doShaperSet, hn, hfree, ht, hold, Bool.false_eq_true, if_false]
  rfl

theorem clearShaper_some {d : Dev} {n : Nat} {y : Shaper} (hy : tget d.slu.shaper n = some y) :
    d.clearShaper n = (y.held.foldl (fun (t : Dev) h => t.shape h.tag) { d with slu := { d.slu with shaper := tdel d.slu.shaper n } },
      y.held.length) := by
  simp only [Dev.clearShaper, hy]

theorem clearShaper_none {d : Dev} {n : Nat} (hn : tget d.slu.shaper n = none) : d.clearShaper n = (d, 0) := by
  simp only [Dev.clearShaper, hn]

theorem judge_some {d : Dev} {n : Nat} {y : Shaper} (hy : tget d.slu.shaper n = some y) :
    d.judge n = (d.setShaper n (y.refill d.clock.now)).drainShaper (y.held.length + 1) n := by
  simp only [Dev.judge, hy]

/-- A SHAPER_CLEAR or POLICER_CLEAR of a number in range that the partition owns passes its checks. -/
theorem chkOwned_ok {n bound : Nat} {owned : Bool} (hn : n < bound) (howned : owned = true) :
    (if n ≥ bound then stBad else if !owned then stDenied else stOk) = stOk := by
  rw [if_neg (Nat.not_le.2 hn), howned]
  rfl

theorem exec_shaperClear {s : State} {n : Nat} {x : Desc} {k : Nat} {e : DescEntry} {r : Dev × Nat} (hn : n < 4096)
    (h : s.dev.Ready 0x81 n x k e) (hj : fieldAt x 16 2 < 16384) (howned : s.dev.shaperOwned e.part (fieldAt x 16 2) = true)
    (hr : s.dev.clearShaper (fieldAt x 16 2) = r) : Becomes (.shaperClear n x) s (r.1.ok k 0 (BitVec.ofNat 32 r.2)) := by
  obtain ⟨-, -, rfl, -⟩ := ready_facts h
  exact op_becomes h rfl (decide_eq_true hn) (chkOwned_ok hj howned) (by rw [hr])

/-- Settles O29: each opcode's checks pass, and each row's effect is the clause's. -/
theorem sluiceCommandsTakeEffect : Obligations.SluiceCommandsTakeEffect := by
  intro s n x k e hn d j
  have hwf := decide_eq_true hn
  refine ⟨fun h hchk hfree => ?_, fun y h hj howned hy => exec_shaperClear hn h hj howned (clearShaper_some hy),
    fun h hj howned hnone => exec_shaperClear hn h hj howned (clearShaper_none hnone), fun h hchk => ?_, fun h hj howned => ?_,
    fun m y hm hy => becomes_onDev rfl (decide_eq_true hm) (judge_some hy), becomes_onDev (Eq.refl (execDepthSample s)) rfl rfl,
    becomes_onDev (Eq.refl (execSluiceWindowClose s)) rfl rfl⟩
  all_goals obtain ⟨-, -, rfl, -⟩ := ready_facts h
  · exact op_becomes h rfl hwf hchk (doShaperSet_sets k rfl hfree rfl rfl)
  · exact op_becomes h rfl hwf hchk (by simp only [doPolicerSet, beq_iff_eq]; rfl)
  · exact op_becomes h rfl hwf (chkOwned_ok hj howned) rfl

end Sys2Proof.Machine
end

section
/-! SUPPORT and CERTIFICATES. 13_partitions_keys.md: keys and their retirement (R350, R351, R354, R355), ACL_READ (R361), TDI states (R357, R358),
and the SPDM responder (R359, R360). -/

namespace Sys2Proof.Machine

/-! ### Keys (R350, R351, R354, R355) -/

/-- A key operand of 0, or a generation of 0, is out of range. -/
theorem chkKey_ok {id gen : Nat} (hid : id ≠ 0) (hgen : gen ≠ 0) : (if id = 0 ∨ gen = 0 then stBad else stOk) = stOk :=
  if_neg (not_or.2 ⟨hid, hgen⟩)

section

variable {d : Dev} {k : Nat} {e : DescEntry}

/-- With a KEK, a record that takes the generation and quota left, KEY_INSTALL waits only on the unwrap: its key is CURRENT, or NEXT where the
key has a CURRENT generation. -/
theorem doKeyInstall_unwraps {kek : BitVec 256} {old : Key} {store : Bool} (hkek : tget d.sec.kek e.part = some kek)
    (hstore : (fieldAt e.d 20 1 == 2) = store)
    (hkey : ((d.key e.part (fieldAt e.d 16 2)).any fun y => y.store != store || decide (fieldAt e.d 18 2 ≤ y.highest) ||
      decide (2 ≤ y.gens.length) || (y.genIn .retiring).isSome || (store && !y.gens.isEmpty)) = false)
    (hquota : d.keysLive e.part < d.getF (SEC_PART_KEY_QUOTA e.part))
    (hold : (d.key e.part (fieldAt e.d 16 2)).getD { store := store, tenant := 0 } = old) :
    doKeyInstall d k e =
      let st := if (old.genIn .current).isSome then KeyState.next else KeyState.current
      let gens := fun (key : BitVec 256) => old.gens ++ [{ gen := fieldAt e.d 18 2, st := st, key := key }]
      let new := fun (key : BitVec 256) =>
        ({ old with store := store, tenant := fieldAt e.d 22 2, removed := false, highest := fieldAt e.d 18 2, gens := gens key } : Key)
      match Config.aesUnwrap kek (BitVec.ofNat 320 (fieldAt e.d 24 40)) with
      | some key => (d.setKey (keyIndex e.part (fieldAt e.d 16 2)) (new key)).ok k (Config.keyStateCode st.row) 0
      | none => d.refuse k stBad := by
  have hst : d.installStatus e.part (fieldAt e.d 16 2) (fieldAt e.d 18 2) store (BitVec.ofNat 320 (fieldAt e.d 24 40)) =
      if (Config.aesUnwrap kek (BitVec.ofNat 320 (fieldAt e.d 24 40))).isNone then stBad else stOk := by
    simp only [Dev.installStatus, hkek, ge_iff_le, hkey, Bool.false_eq_true, if_false, if_neg (Nat.not_le.2 hquota)]
  simp only [doKeyInstall, hstore, hst, hold, hkek, Option.bind_some]
  cases Config.aesUnwrap kek (BitVec.ofNat 320 (fieldAt e.d 24 40)) with
  | none => rfl
  | some key => rfl

theorem doKeyActivate_activates {y : Key} {c : KeyGen} (hy : tget d.sec.key (keyIndex e.part (fieldAt e.d 16 2)) = some y)
    (hret : y.genIn .retiring = none) (hnext : (y.gens.any fun g => g.gen == fieldAt e.d 18 2 && g.st == .next) = true)
    (hcur : y.genIn .current = some c) :
    doKeyActivate d k e =
      (d.setKey (keyIndex e.part (fieldAt e.d 16 2)) ((y.setGen c.gen .prior).setGen (fieldAt e.d 18 2) .current)).ok k 0 0 := by
  simp only [doKeyActivate, hy, hret, hnext, hcur, Option.isSome_none, Bool.not_true, Bool.or_self, Bool.false_eq_true, if_false,
    Option.elim_some]

theorem doKeyRetire_drains {y : Key} (hy : tget d.sec.key (keyIndex e.part (fieldAt e.d 16 2)) = some y)
    (hret : y.retirable (fieldAt e.d 18 2) = true) :
    doKeyRetire d k e = (d.wait k .drain).startDrain [k] (keyIndex e.part (fieldAt e.d 16 2)) (fieldAt e.d 18 2) := by
  simp only [doKeyRetire, hy, Option.any_some, hret, if_true]

theorem doTenantRemove_drains (hidle : d.removingTenant e.part (fieldAt e.d 16 2) = false) :
    doTenantRemove d k e = let r := (d.wait k .drain).removeKeys e.part (some (fieldAt e.d 16 2)) [k]
      if r.2 = 0 then r.1.ok k 0 0 else r.1.setResult k r.2 := by
  simp only [doTenantRemove, hidle, Bool.false_eq_true, if_false]

end

section

variable {s : State} {p : Nat} {id gen : U16} {y : Drain} (hp : p < 8) (hy : s.dev.drainOf p id gen = some y)

include hp hy

/-- A drain ends when nothing holds its generation, or its time is over. -/
theorem exec_keyDrainComplete_ends (hdone : s.dev.keyBusy p id.toNat gen.toNat = false ∨ y.expired = true) :
    Becomes (.keyDrainComplete p id gen) s (s.dev.endDrain y) := by
  refine becomes_onDev (Eq.refl (execKeyDrainComplete p id gen s)) (decide_eq_true hp) ?_
  have hfree : ¬ (s.dev.keyBusy p id.toNat gen.toNat && !y.expired) = true := by
    obtain h | h := hdone <;> simp [h]
  simp only [hy, if_neg hfree]

/-- At the end of its time what still holds the generation aborts. -/
theorem exec_keyDrainTimeout_aborts (hbusy : s.dev.keyBusy p id.toNat gen.toNat = true) :
    let d := s.dev
    let hs := if (d.key p id.toNat).any (fun z => z.store) then d.holders p id.toNat else []
    let ops := ((hs.filterMap fun t => (d.req t).map fun r => r.purpose.operation).eraseDups).length
    let t := (d.flag SEC_STATUS_DRAIN_ABORT SEC_EVENTS_DRAIN_ABORT_COUNT).raiseOpen (some p) 0x0C15 0x106
    let u := y.descs.foldl (fun v n => v.modDesc n fun z => { z with detail := z.detail + BitVec.ofNat 32 ops }) t
    let late := u.sec.drain.map fun z => if z.key = y.key ∧ z.gen = y.gen then { z with expired := true } else z
    Becomes (.keyDrainTimeout p id gen) s
      (hs.foldl (fun v t => v.respond t (.error stTenant)) { u with sec := { u.sec with drain := late } }) := by
  refine becomes_onDev (Eq.refl (execKeyDrainTimeout p id gen s)) (decide_eq_true hp) ?_
  simp only [hy, hbusy, Bool.not_true, Bool.false_eq_true, if_false]

end

/-- Settles O38: each opcode's checks pass, and each row's effect is the clause's. The code in RESULT of KEY_INSTALL is left open (log 36), and
that a STORE key has one generation is the model's (log 72). -/
theorem keyCommandsTakeEffect : Obligations.KeyCommandsTakeEffect := by
  intro s n x k e hn d id gen ix
  have hwf := decide_eq_true hn
  refine ⟨fun kek h hid hgen hkind hkek => ?_, fun y c h hid hgen hy hret hnext hcur => ?_,
    fun y h hid hgen hmin hmax hy hret => ?_, fun h hmin hmax hidle => ?_, fun p id gen y hp hy => exec_keyDrainComplete_ends hp hy,
    fun p id gen y hp hy => exec_keyDrainTimeout_aborts hp hy, fun h haddr htarget hmin hmax => ?_⟩
  all_goals obtain ⟨-, -, rfl, -⟩ := ready_facts h
  · intro store hkey hquota
    exact op_becomes h (Eq.refl (execKeyInstall n e.d s)) hwf (if_neg (by omega)) (doKeyInstall_unwraps hkek rfl hkey hquota rfl)
  · exact op_becomes h (Eq.refl (execKeyActivate n e.d s)) hwf (chkKey_ok hid hgen) (doKeyActivate_activates hy hret hnext hcur)
  · exact op_becomes h (Eq.refl (execKeyRetire n e.d s)) hwf (if_neg (by omega)) (doKeyRetire_drains hy hret)
  · exact op_becomes h (Eq.refl (execTenantRemove n e.d s)) hwf (if_neg (by omega)) (doTenantRemove_drains hidle)
  · refine op_becomes h (Eq.refl (execAclRead n e.d s)) hwf (if_neg ?_) rfl
    rw [htarget]
    simp only [Bool.not_true, Bool.false_eq_true, false_or]
    omega

/-! ### TDI states (R357, R358) -/

section

variable {s : State} {p : Nat} (hp : p < 8)

include hp

theorem exec_scrubComplete_unlocks (hst : s.dev.tdi p = .scrubbing) : exec (.scrubComplete p) s = .next (s.onHome fun d =>
    let t := (d.sec.drain.filter fun y => y.key / 65536 == p).foldl (fun v y => v.endDrain y) d
    ((((t.endWaiting p stTenant).wipe p).returnExtents p).setTdi p .unlocked).emit
      (.answer (.tdisp p "STOP_INTERFACE_RESPONSE" []))) :=
  exec_onHome (Eq.refl (execScrubComplete p s)) (decide_eq_true hp) (if_neg (not_not_intro hst))

theorem exec_tdiErrorTrigger_fails {g : TdiTrigger} (h : s.dev.tdi p = .run ∨ (s.dev.tdi p = .locked ∧ g ≠ .access)) :
    Becomes (.tdiErrorTrigger p g) s (s.dev.tdiFail p) :=
  becomes_onDev (Eq.refl (execTdiErrorTrigger p g s)) (decide_eq_true hp) (if_pos h)

/-- A T = 0 access of a locked TDI is no error. -/
theorem exec_tdiErrorTrigger_locked_access (hst : s.dev.tdi p = .locked) : Becomes (.tdiErrorTrigger p .access) s s.dev := by
  refine becomes_onDev (Eq.refl (execTdiErrorTrigger p .access s)) (decide_eq_true hp) (if_neg ?_)
  rw [hst]
  decide

variable (hup : s.dev.funcUp p = true)

include hup

theorem exec_lockInterfaceRequest : Becomes (.lockInterfaceRequest p) s
    (if s.dev.tdi p = .unlocked then (s.dev.setTdi p .locked).emit (.answer (.tdisp p "LOCK_INTERFACE_RESPONSE" []))
      else s.dev.emit (.answer (.tdispError p "LOCK_INTERFACE_REQUEST"))) :=
  becomes_onDev (Eq.refl (execLockInterfaceRequest p s)) (decide_eq_true hp) (if_neg (by simp [hup]))

theorem exec_startInterfaceRequest : Becomes (.startInterfaceRequest p) s
    (if s.dev.tdi p = .locked then (s.dev.setTdi p .run).emit (.answer (.tdisp p "START_INTERFACE_RESPONSE" []))
      else s.dev.emit (.answer (.tdispError p "START_INTERFACE_REQUEST"))) :=
  becomes_onDev (Eq.refl (execStartInterfaceRequest p s)) (decide_eq_true hp) (if_neg (by simp [hup]))

/-- STOP_INTERFACE_REQUEST starts the scrub: the partition's keys drain, its scans stop and its KEK is zeroised. -/
theorem exec_stopInterfaceRequest_scrubs (hst : s.dev.tdi p = .locked ∨ s.dev.tdi p = .run ∨ s.dev.tdi p = .error) :
    let t := (s.dev.removeKeys p none []).1.modPr p fun y => { y with scan := [], pending := false, timer := false }
    Becomes (.stopInterfaceRequest p) s
      ((({ t with sec := { t.sec with kek := tdel t.sec.kek p } } : Dev).setF (SEC_TDI_KEK_SET p) 0).setTdi p .scrubbing) := by
  refine becomes_onDev (Eq.refl (execStopInterfaceRequest p s)) (decide_eq_true hp) ?_
  have hother : ¬ (s.dev.tdi p = .unlocked ∨ s.dev.tdi p = .scrubbing) := by
    obtain h | h | h := hst <;> rw [h] <;> decide
  simp only [hup, Bool.not_true, Bool.false_eq_true, if_false, if_neg hother]

end

/-- Settles O39: each request acts in its state and is answered with an error in another; the scrub ends in CONFIG_UNLOCKED. -/
theorem tdiStatesMove : Obligations.TdiStatesMove := by
  intro s p hp d
  refine ⟨fun hup => ?_, fun g => exec_tdiErrorTrigger_fails hp, exec_tdiErrorTrigger_locked_access hp, exec_scrubComplete_unlocks hp⟩
  have hlock := exec_lockInterfaceRequest hp hup
  have hstart := exec_startInterfaceRequest hp hup
  refine ⟨fun hst => ?_, fun hst => ?_, fun hst => ?_, fun hst => ?_, exec_stopInterfaceRequest_scrubs hp hup⟩
  · rwa [if_pos hst] at hlock
  · rwa [if_neg hst] at hlock
  · rwa [if_pos hst] at hstart
  · rwa [if_neg hst] at hstart

/-! ### The SPDM responder (R350, R357, R359, R360) -/

/-- A request to a mailbox that is there has its effect. -/
theorem becomes_mailed {i : Instr} {s : State} {mb : Mailbox} {f : Dev → Dev} {t : Dev} (hx : exec i s = guarded i (onDev s fun d => d.mailed mb f))
    (hw : i.wf = true) (hmb : s.dev.mailbox mb = true) (hf : f s.dev = t) : Becomes i s t :=
  becomes_onDev hx hw ((if_pos hmb).trans hf)

theorem inSession_done {d : Dev} {mb : Mailbox} {sid : Nat} {y : SpdmSession} (hy : d.spdmSes mb sid = some y) (hdone : y.done = true)
    (name : String) (f : SpdmSession → Dev) : d.inSession mb sid name f = f y := by
  simp only [Dev.inSession, hy, hdone, if_true]

theorem inSession_none {d : Dev} {mb : Mailbox} {sid : Nat} (hnone : d.spdmSes mb sid = none) (name : String) (f : SpdmSession → Dev) :
    d.inSession mb sid name f = d.spdmBad mb name := by
  simp only [Dev.inSession, hnone]

section

variable {s : State} {mb : Mailbox} (hwf : mb.wf = true) (hmb : s.dev.mailbox mb = true)

include hwf hmb

theorem exec_getMeasurements_answers {i : Nat} {bs : List Byte} (nonce : BitVec 256) (hi : i ≠ 0)
    (hbs : s.dev.measures (s.dev.mailPart mb) i = some bs) : Becomes (.getMeasurements mb i nonce) s
      (s.dev.spdm mb "MEASUREMENTS" bs (some (signed 1 (bs ++ leBytes 32 nonce.toNat)))) := by
  refine becomes_mailed (Eq.refl (execGetMeasurements mb i nonce s)) hwf hmb ?_
  simp only [if_neg hi, hbs]

variable {sid : Nat} {y : SpdmSession} (hy : s.dev.spdmSes mb sid = some y)

include hy

/-- FINISH establishes the session that a KEY_EXCHANGE opened. -/
theorem exec_finish_establishes (hopen : y.done = false) :
    Becomes (.finish mb sid) s ((s.dev.setSpdm sid { y with done := true }).spdm mb "FINISH_RSP" [] none) := by
  refine becomes_mailed (Eq.refl (execFinish mb sid s)) hwf hmb ?_
  simp only [hy, hopen, Bool.false_eq_true, if_false]

variable (hdone : y.done = true)

include hdone

theorem exec_kekSet_sets {p : Nat} (kek : BitVec 256) (hp : s.dev.mailPart mb = some p) (hst : s.dev.tdi p ≠ .scrubbing) :
    Becomes (.kekSet mb sid kek) s
      ((({ s.dev with sec := { s.dev.sec with kek := tput s.dev.sec.kek p kek } } : Dev).setF (SEC_TDI_KEK_SET p) 1).spdm mb "KEK_SET" [] none) := by
  refine becomes_mailed (Eq.refl (execKekSet mb sid kek s)) hwf hmb ((inSession_done hy hdone _ _).trans ?_)
  simp only [hp, if_neg hst]

theorem exec_ideKm_keys {port stream : Nat} (key : BitVec 256) (hport : port < 4) (hmay : s.dev.mayKey mb port stream = true) :
    Becomes (.ideKm mb sid port stream key) s
      (({ s.dev with sec := { s.dev.sec with ide := tput s.dev.sec.ide (16 * port + stream) key } } : Dev).spdm mb "IDE_KM" [] none) :=
  becomes_mailed (Eq.refl (execIdeKm mb sid port stream key s)) (by simp [Instr.wf, hwf, hport]) hmb
    ((inSession_done hy hdone _ _).trans (if_pos hmay))

end

/-- Settles O49: each request reaches its mailbox, and those of a session reach it. The messages carry named fields (log 50), and the
cryptography is left open (log 7). -/
theorem mailboxesAnswer : Obligations.MailboxesAnswer := by
  intro s mb hwf hmb d
  refine ⟨becomes_mailed (Eq.refl (execGetVersion mb s)) hwf hmb rfl, becomes_mailed (Eq.refl (execGetCapabilities mb s)) hwf hmb rfl,
    becomes_mailed (Eq.refl (execNegotiateAlgorithms mb s)) hwf hmb rfl, becomes_mailed (Eq.refl (execGetDigests mb s)) hwf hmb rfl,
    fun slot off len hslot => becomes_mailed (Eq.refl (execGetCertificate mb slot off len s)) hwf hmb (if_neg (Nat.not_lt.2 hslot)),
    fun slot nonce hslot => becomes_mailed (Eq.refl (execChallenge mb slot nonce s)) hwf hmb (if_neg (Nat.not_lt.2 hslot)),
    fun i nonce bs hi hbs => exec_getMeasurements_answers hwf hmb nonce hi hbs,
    fun req owner => becomes_mailed (Eq.refl (execKeyExchange mb req owner s)) hwf hmb rfl,
    fun sid y hy hopen => exec_finish_establishes hwf hmb hy hopen, fun sid y hy hdone => ⟨?_, ?_, ?_, ?_, ?_⟩, fun sid hnone => ?_,
    fun p hp hup => ?_⟩
  · exact becomes_mailed (Eq.refl (execHeartbeat mb sid s)) hwf hmb (inSession_done hy hdone _ _)
  · exact becomes_mailed (Eq.refl (execKeyUpdate mb sid s)) hwf hmb (inSession_done hy hdone _ _)
  · exact becomes_mailed (Eq.refl (execEndSession mb sid s)) hwf hmb (inSession_done hy hdone _ _)
  · exact fun p kek hp hst => exec_kekSet_sets hwf hmb hy hdone kek hp hst
  · exact fun port stream key hport hmay => exec_ideKm_keys hwf hmb hy hdone key hport hmay
  · exact becomes_mailed (Eq.refl (execHeartbeat mb sid s)) hwf hmb (inSession_none hnone _ _)
  · exact becomes_onDev (Eq.refl (execGetDeviceInterfaceReport p s)) (decide_eq_true hp) (if_pos hup)

end Sys2Proof.Machine
end

section
/-! SUPPORT and CERTIFICATES. 16_power_cooling_holdup.md: the orderly shut-down and the closing self-test (R433, R436; 14 R372; 15 R402–R405),
emergencies and coolant limits (R417, R424, R426, R427, R434, R435), power-up (R416, R432, R435; 15 R409) and the brake (R423);
17_registers_connectors.md: the sideband (R449–R454; 15 R411). -/

namespace Sys2Proof.Machine

/-! ### The orderly shut-down (R433, R436; 14 R372) -/

theorem exec_snapshotChargeTimeout_skips {s : State} (hseq : s.dev.pwr.seq = .x5) (hwait : s.dev.pwr.waitCharge = true) :
    exec .snapshotChargeTimeout s = .next (s.onPower fun d => d.skipSnapshot.selftestStart) :=
  exec_onPower (Eq.refl (execSnapshotChargeTimeout s)) rfl (if_pos ⟨hseq, hwait⟩)

/-- The snapshot of an orderly shut-down is stored once there is charge for it, and the self-test follows. -/
theorem snapshotDone_x5 {d : Dev} (hseq : d.pwr.seq = .x5) (hwait : d.pwr.waitCharge = false) :
    d.snapshotDone = ((d.endDurable d.snapshotCost).storeSnapshot).selftestStart := by
  simp only [Dev.snapshotDone, hseq, hwait, Bool.false_eq_true, if_false]

theorem snapshotDone_y5 {d : Dev} (hseq : d.pwr.seq = .y5) :
    d.snapshotDone = ((d.endDurable d.snapshotCost).storeSnapshot).pathEnd := by
  simp only [Dev.snapshotDone, hseq]

/-- The manifest of a checkpoint whose write is under way is committed, and what waited goes on. -/
theorem manifestDone_commits {d : Dev} {p k : Nat} {c : Ckpt} (hc : d.ckpt p = some c) (hk : c.desc = some k) (hphase : c.phase = 4) :
    d.manifestDone p = (d.commitManifest p c k).afterCommit := by
  simp only [Dev.manifestDone, hc, hk, hphase, if_true]

/-- A measurement of the bank with nothing that waits for energy shows its two values. -/
theorem exec_holdupMeasure_shows {s : State} (v u : U16) (hwait : s.dev.pwr.seq ≠ .x5 ∨ s.dev.pwr.waitCharge = false)
    (hnone : s.dev.ckp.now = []) : exec (.holdupMeasure v u) s = .next (s.onPower fun d =>
      (d.setF PWR_HOLDUP_BANK_V v.toNat).setF PWR_HOLDUP_USABLE u.toNat) := by
  refine exec_onPower (Eq.refl (execHoldupMeasure v u s)) rfl ?_
  have hidle : ¬ (s.dev.pwr.seq = .x5 ∧ s.dev.pwr.waitCharge = true) := fun ⟨hx, hw⟩ =>
    hwait.elim (absurd hx) fun hf => absurd (hf.symm.trans hw) Bool.false_ne_true
  simp only [Dev.setF_ckp, hnone, List.map_nil, List.foldl_nil, Dev.setF_pwr, if_neg hidle]

/-! ### The closing self-test (15 R402–R405) -/

section

variable {s : State} (r : PhaseResult)

/-- Z2 zeroes what the device holds, and Z3 follows when the readback is zero. -/
theorem exec_selftestPhaseDone_z2 (hseq : s.dev.pwr.seq = .z2) (hzero : r.readbackZero = true) :
    exec (.selftestPhaseDone r) s =
      .next (s.onPower fun _ => (s.dev.addF LDG_SELFTEST_DURATION_MS r.ms).zeroise.toPhase .z3 3) :=
  exec_onPower (Eq.refl (execSelftestPhaseDone r s)) rfl (by simp only [hseq, hzero, if_true])

/-- A readback that is not zero is a failure, and Z6 follows (log 76). -/
theorem exec_selftestPhaseDone_z2_fails (hseq : s.dev.pwr.seq = .z2) (hzero : r.readbackZero = false) :
    exec (.selftestPhaseDone r) s = .next (s.onPower fun _ => (((s.dev.addF LDG_SELFTEST_DURATION_MS r.ms).zeroise.flag
      LDG_STATUS_SELFTEST_FAIL LDG_EVENTS_SELFTEST_COUNT).raise none 0x0E13 0 2 puppeteer).toPhase .z6 6) :=
  exec_onPower (Eq.refl (execSelftestPhaseDone r s)) rfl (by simp only [hseq, hzero, Bool.false_eq_true, if_false])

end

/-- Settles O42: each row acts at its point of the sequence, and its effect is the clause's. That Z6 follows a failed readback is the model's
(log 76). -/
theorem shutdownMovesOn : Obligations.ShutdownMovesOn := by
  intro s d
  refine ⟨fun hseq => ?_, exec_snapshotChargeTimeout_skips, fun hseq hwait => ⟨?_, rfl⟩, fun hseq => ?_, fun p c k hp hc hk hphase => ?_,
    fun hseq => ?_, fun r => ⟨exec_selftestPhaseDone_z2 r, exec_selftestPhaseDone_z2_fails r, ?_, ?_, ?_, ?_, ?_⟩,
    exec_holdupMeasure_shows⟩
  · exact exec_onPower (Eq.refl (execShutdownStepTimeout s)) rfl (if_neg (not_not_intro hseq))
  · exact exec_onPower (Eq.refl (execSnapshotWriteDone s)) rfl (snapshotDone_x5 hseq hwait)
  · exact exec_onPower (Eq.refl (execSnapshotWriteDone s)) rfl (snapshotDone_y5 hseq)
  · exact exec_onPower (Eq.refl (execManifestWriteDone p s)) (decide_eq_true hp) (manifestDone_commits hc hk hphase)
  · exact exec_onPower (Eq.refl (execDurableCommitDone 1 s)) rfl (if_pos hseq)
  all_goals
    intro hseq
    change s.dev.pwr.seq = _ at hseq
    exact exec_onPower (Eq.refl (execSelftestPhaseDone r s)) rfl (by simp only [hseq]; rfl)

/-! ### Emergencies and coolant limits (R417, R424, R426, R427, R434, R435) -/

/-- A rail's fault of a running module takes the emergency path; a C-die's rail stays failed. -/
theorem exec_railFault_stops {s : State} {die : Nat} (hdie : die < 9) (hrun : s.dev.running = true) :
    exec (.railFault die) s = .next (s.onPower fun d =>
      (if die < 4 then ({ d with pwr := { d.pwr with failed := die :: d.pwr.failed.filter (· != die) } } : Dev) else d).emergency 6
        fun d => d.powerFault 0x0F11) := by
  refine exec_onPower (Eq.refl (execRailFault die s)) (decide_eq_true hdie) ?_
  simp only [hrun, Bool.not_true, Bool.false_eq_true, if_false]

section

variable {s : State} {mv : Nat}

theorem exec_inputVoltage_lost (hmv : mv < 44000 ∨ 58000 < mv) : exec (.inputVoltageEvent (.voltage mv)) s =
    .next (s.onPower fun d => (d.setF PWR_INPUT_VOLTAGE (min mv 0xFFFF)).loseInput 2 false) :=
  exec_onPower (Eq.refl (execInputVoltageEvent (.voltage mv) s)) rfl (if_pos hmv)

/-- The first voltage below 48 V of a running module is an excursion. -/
theorem exec_inputVoltage_excursion (hmin : 44000 ≤ mv) (hmax : mv < 48000) (hfirst : s.dev.pwr.excursion = false)
    (hrun : s.dev.running = true) : exec (.inputVoltageEvent (.voltage mv)) s = .next (s.onPower fun d =>
      (({ d.setF PWR_INPUT_VOLTAGE (min mv 0xFFFF) with pwr := { d.pwr with excursion := true } } : Dev).inputEvent)) := by
  refine exec_onPower (Eq.refl (execInputVoltageEvent (.voltage mv) s)) rfl ((if_neg (by omega)).trans ((if_pos hmax).trans (if_neg ?_)))
  have hrun' : (s.dev.setF PWR_INPUT_VOLTAGE (min mv 0xFFFF)).running = true := hrun
  simp only [Dev.setF_pwr, hfirst, hrun', Bool.not_true, Bool.or_self, Bool.false_eq_true, not_false_eq_true]

end

/-! ### A sensor that disagrees (R426) -/

/-- A unit that failed is marked in the overlay, whether it had a mark or not. -/
theorem markFailed_marks (es : List OverlayEnt) (u : TestUnit) (source epoch : Nat) (hkind : u.kind ≠ 0) :
    ((markFailed es [u] source epoch).any fun y => y.kind == u.kind && y.unit == u.unit) = true := by
  have hone : [u].filter (fun u => u.kind != 0) = [u] := by simp [hkind]
  simp only [markFailed, hone, List.foldl_cons, List.foldl_nil]
  split
  · next hold =>
    obtain ⟨x, hx, hmark⟩ := List.any_eq_true.1 hold
    rw [List.any_map, List.any_eq_true]
    refine ⟨x, hx, ?_⟩
    simp only [Function.comp_apply, if_pos hmark]
    exact (Bool.and_eq_true_iff.1 hmark).1
  · simp

/-- A fault record leaves the power block alone. -/
theorem powerFault_pwr (d : Dev) (code : Nat) : (d.powerFault code).pwr = d.pwr :=
  (congrArg Dev.pwr (raiseOpen_quiet d none code puppeteer) : (d.powerFault code).rest.pwr = d.rest.pwr)

theorem sendIrq_flash (d : Dev) (v : Nat) : (d.sendIrq v).flash = d.flash := by
  unfold Dev.sendIrq; dsimp only; split <;> rfl

theorem countIrq_flash (d : Dev) (v : Nat) (b : Bool) : (d.countIrq v b).flash = d.flash := by
  unfold Dev.countIrq; dsimp only
  split
  · exact sendIrq_flash _ v
  · rfl

theorem logFault_flash (d : Dev) (p : Nat) (r : FaultRec) : (d.logFault p r).flash = d.flash := by
  unfold Dev.logFault; dsimp only
  split
  · unfold Dev.writeFault; dsimp only
    rw [countIrq_flash, Dev.modPr_flash, Dev.emitFor_flash]
  · split <;> rfl

theorem flashCopy_overlay (d : Dev) (r : FaultRec) : (d.flashCopy r).flash.overlay = d.flash.overlay := by
  unfold Dev.flashCopy; dsimp only; split <;> rfl

/-- A fault record goes to the logs of keeping flash, not to its overlay. -/
theorem powerFault_overlay (d : Dev) (code : Nat) : (d.powerFault code).flash.overlay = d.flash.overlay := by
  unfold Dev.powerFault Dev.raiseOpen Dev.raise Dev.raiseAt; dsimp only
  rw [logFault_flash]
  exact flashCopy_overlay _ _

/-- The device that ignores sensor `n` and has marked it in the overlay. -/
def Dev.sensorMarked (d : Dev) (n : Nat) : Dev :=
  { d.draw.2 with
    pwr := { d.pwr with ignored := n :: d.pwr.ignored },
    flash := { d.flash with overlay := markFailed d.flash.overlay [{ kind := 7, unit := n }] (d.draw.1.toNat % 256) d.flash.epoch } }

theorem exec_sensorDisagreeTimeout_marks {s : State} {n : Nat} (hn : n < 5) (hfirst : s.dev.pwr.ignored.contains n = false) :
    Becomes (.sensorDisagreeTimeout n) s
      ((((s.dev.sensorMarked n).flag PWR_STATUS_SENSOR_FAULT PWR_EVENTS_SENSOR_COUNT).powerFault 0x0F1A).showCap) :=
  becomes_onDev (Eq.refl (execSensorDisagreeTimeout n s)) (decide_eq_true hn) (if_neg (by simp only [hfirst, Bool.false_eq_true, not_false_eq_true]))

/-- Settles O43: each row's guard holds under the clause's hypotheses, and its effect is the clause's. LAST_REASON 6 of a current trip (log 47)
and the numbers of the sensors (log 77) are the model's. -/
theorem triggersStopTheModule : Obligations.TriggersStopTheModule := by
  intro s d
  refine ⟨exec_onPower (Eq.refl (execModResetHeld5s s)) rfl rfl, exec_onPower (Eq.refl (execWatchdogTimeout s)) rfl rfl,
    fun die => exec_railFault_stops, fun st u hu htrip => ?_, fun hon => ?_, fun mv => exec_inputVoltage_lost,
    fun mv hmin hmax hfirst hrun => exec_inputVoltage_excursion hmin hmax hfirst hrun,
    exec_onPower (Eq.refl (execInputVoltageEvent .currentTrip s)) rfl rfl, fun hlow => ?_, fun hhot => ?_, fun hback => ?_, fun c hrun => ?_,
    fun n hn hfirst => ?_⟩
  · exact exec_onPower (Eq.refl (execThermalTripTimeout st u s)) (decide_eq_true hu) (if_pos htrip)
  · exact exec_onPower (Eq.refl (execLeakDetect s)) rfl (if_neg hon)
  · exact exec_onPower (Eq.refl (execCoolantConditionTimeout .flowLow s)) rfl (if_pos hlow)
  · exact exec_onPower (Eq.refl (execCoolantConditionTimeout .inletHigh s)) rfl (if_pos hhot)
  · exact exec_onPower (Eq.refl (execCoolantReversedTimeout s)) rfl (if_pos hback)
  · exact exec_onPower (Eq.refl (execCoolantSample c s)) rfl (if_pos hrun)
  · refine ⟨_, exec_sensorDisagreeTimeout_marks hn hfirst, ?_, ?_, rfl⟩
    · exact congrArg Pwr.ignored (powerFault_pwr _ 0x0F1A)
    · change List.any (Dev.powerFault _ _).flash.overlay _ = true
      rw [powerFault_overlay]
      exact markFailed_marks d.flash.overlay { kind := 7, unit := n } _ _ (Nat.succ_ne_zero 6)

/-! ### Power-up (R416, R432, R435; 15 R409) -/

theorem exec_powerConnect_starts {s : State} {mv : Nat} (hoff : s.dev.pwr.seq = .off) (hmin : 46000 < mv) (hmax : mv ≤ 58000) :
    exec (.powerConnect mv false) s = .next (s.onPower fun d => d.inputOn mv) :=
  exec_onPower (Eq.refl (execPowerConnect mv false s)) rfl (if_pos ⟨hoff, rfl, hmin, hmax⟩)

/-- A reversed input starts nothing (15 Table 15.10). -/
theorem exec_powerConnect_reversed (s : State) (mv : Nat) : exec (.powerConnect mv true) s = .next (s.onPower fun d => d) :=
  exec_onPower (Eq.refl (execPowerConnect mv true s)) rfl (if_neg fun ⟨_, hrev, _⟩ => Bool.false_ne_true hrev)

theorem exec_coolantCheckTick_passes {s : State} {c : Coolant} (hseq : s.dev.pwr.seq = .u2)
    (hok : (s.dev.showCoolant c).coolantOk s.hw c = true) : exec (.coolantCheckTick c) s = .next (s.onPower fun d =>
      ({ d.showCoolant c with pwr := { d.pwr with seq := .u4 } } : Dev).showRails) :=
  exec_onPower (Eq.refl (execCoolantCheckTick c s)) rfl ((if_neg (not_not_intro hseq)).trans (if_pos hok))

theorem exec_startPhasesDone_starts {s : State} (r : StartResult) (hseq : s.dev.pwr.seq = .u5) :
    exec (.startPhasesDone r) s = .next { s with dev := s.dev.startUp s.hw r, mem := [] } :=
  (guarded_wf (.startPhasesDone r) _ rfl).trans (if_pos hseq)

theorem exec_modResetRelease_restarts {s : State} {us : Nat} (hmin : 10000 ≤ us) (hmax : us ≤ 5000000) :
    exec (.modResetRelease us) s = .next (s.onPower fun d =>
      ({ d with pins := { d.pins with modReset := true } } : Dev).restartRequest) :=
  exec_onPower (Eq.refl (execModResetRelease us s)) rfl
    ((if_neg (by omega)).trans ((if_neg (by omega)).trans (if_pos hmax)))

/-- Settles O44: each row acts at its point of the sequence, and its effect is the clause's. The energy of a full bank is the model's (log 45). -/
theorem powerUpMovesOn : Obligations.PowerUpMovesOn := by
  intro s d
  refine ⟨fun mv hoff hmin hmax => ⟨exec_powerConnect_starts hoff hmin hmax, exec_powerConnect_reversed s mv⟩,
    fun mv hoff hmin hmax => ?_, fun hseq => ?_, fun c => exec_coolantCheckTick_passes, fun v e c hv he hc hseq => ?_,
    exec_startPhasesDone_starts, fun us => exec_modResetRelease_restarts, fun us hshort => ?_⟩
  · exact exec_onPower (Eq.refl (execOvervoltageRestart mv s)) rfl (if_pos ⟨hoff, hmin, hmax⟩)
  · exact exec_onPower (Eq.refl (execStandbyRailsUp s)) rfl (if_pos hseq)
  · exact exec_onPower (Eq.refl (execResetRelease v e c s)) (by simp [Instr.wf, hv, he, hc]) (if_neg (not_not_intro hseq))
  · exact exec_onPower (Eq.refl (execModResetRelease us s)) rfl (if_pos hshort)

/-! ### The sideband (17 R449–R454; 15 R411) -/

/-- A row of the sideband has its effect once the standby rails are up. -/
theorem becomes_served {i : Instr} {s : State} {f : Dev → Dev} {t : Dev} (hx : exec i s = guarded i (onDev s fun d => d.served f))
    (hw : i.wf = true) (hup : s.dev.sideband = true) (hf : f s.dev = t) : Becomes i s t :=
  becomes_onDev hx hw ((if_pos hup).trans hf)

section

variable {s : State} (hup : s.dev.sideband = true)

include hup

theorem exec_pldmShutdown_stops (hseq : s.dev.pwr.seq = .u6) :
    exec (.pldmShutdown 0) s = .next (s.onPower fun d => (d.shutdownStart false 1).pldmCode pldmOk) ∧
    exec (.pldmShutdown 1) s = .next (s.onPower fun d => (d.shutdownStart true 1).pldmCode pldmOk) := by
  have hstop : ∀ restart, s.dev.pldmStop restart = (s.dev.shutdownStart restart 1).pldmCode pldmOk := fun restart => by
    simp only [Dev.pldmStop, hseq]
  exact ⟨exec_onPower (Eq.refl (execPldmShutdown 0 s)) rfl ((if_pos hup).trans (hstop false)),
    exec_onPower (Eq.refl (execPldmShutdown 1 s)) rfl ((if_pos hup).trans (hstop true))⟩

theorem exec_pldmSetPowerCap_refuses {w : U16} (hne : w ≠ 0) (hout : w.toNat < 1200 ∨ s.hw.maxW < w.toNat) :
    Becomes (.pldmSetPowerCap w) s (s.dev.pldmCode pldmInvalid) := by
  refine becomes_served (Eq.refl (execPldmSetPowerCap w s)) rfl hup (if_neg ?_)
  rintro (hzero | hin)
  · exact hne hzero
  · omega

/-- An override needs a session of an owner. -/
theorem exec_overlayOverride_overrides {sid : Nat} (kind : Byte) (unit : U32) {a : Byte} {y : SpdmSession}
    (hy : tget s.dev.sec.spdm sid = some y) (hdone : y.done = true) (howner : y.owner = true) (ha : a.toNat ≤ 1) :
    let o := s.dev.flash.overrides ++ [(kind.toNat, unit.toNat, a.toNat)]
    Becomes (.overlayOverride sid kind unit a) s (({ s.dev with flash := { s.dev.flash with overrides := o } } : Dev).pldmCode pldmOk) := by
  refine becomes_served (Eq.refl (execOverlayOverride sid kind unit a s)) rfl hup ?_
  simp only [hy, Option.any_some, hdone, howner, Bool.and_self, Bool.not_true, Bool.false_eq_true, if_false, if_neg (Nat.not_lt.2 ha)]

theorem exec_pldmLogRead_answers (first : U32) {n : Byte} (hmin : 1 ≤ n.toNat) (hmax : n.toNat ≤ 7) : Becomes (.pldmLogRead first n) s
    (s.dev.emit (.answer (.pldmLog ((List.range n.toNat).filterMap fun i => s.dev.logAt (first.toNat + i))))) :=
  becomes_served (Eq.refl (execPldmLogRead first n s)) rfl hup (if_neg (by omega))

variable (hst : s.dev.getF PWR_STATE_STATE = 2 ∨ s.dev.getF PWR_STATE_STATE = 3)

include hst

/-- An update in READY or RECOVERY is not refused for the module's state. -/
theorem exec_fwUpdateComponent_sliceMap {m : SliceMap} (hsig : s.dev.mapSigned m = true) (hok : mapOk m s.hw = true) :
    Becomes (.fwUpdateComponent (.sliceMap m)) s
      (({ s.dev with flash := { s.dev.flash with staged := some m } } : Dev).pldmCode pldmOk) := by
  refine becomes_served (Eq.refl (execFwUpdateComponent (.sliceMap m) s)) rfl hup ((if_neg (by omega)).trans ?_)
  simp only [hsig, hok, Bool.and_self, if_true]

/-- While slot A runs, an image goes to slot B. -/
theorem exec_fwUpdateComponent_firmware {f : FwImage} (hrun : s.dev.flash.running = false) (hsig : f.sigOk = true)
    (hfuse : s.dev.flash.fuseSec.toNat ≤ f.sec.toNat) :
    let y : FwSlot := { version := f.version, sec := f.sec, prod := f.prod, ok := f.sigOk, digest := f.digest }
    Becomes (.fwUpdateComponent (.firmware f)) s (({ s.dev with flash := { s.dev.flash with slotB := some y } } : Dev).pldmCode pldmOk) := by
  refine becomes_served (Eq.refl (execFwUpdateComponent (.firmware f) s)) rfl hup ((if_neg (by omega)).trans ?_)
  simp only [hrun, Bool.false_eq_true, if_false, Dev.fwOk, hsig, hfuse, decide_true, Bool.and_self, if_true]

end

/-- Settles O45: each row is served, and its effect is the clause's. What a sensor reads before its first refresh is the model's (log 80). -/
theorem sidebandServes : Obligations.SidebandServes := by
  intro s hup d
  refine ⟨fun eid => becomes_served (Eq.refl (execSetEndpointId eid s)) rfl hup rfl,
    becomes_served (Eq.refl (execSensorRefreshTick s)) rfl hup rfl, fun id hid => ?_, fun w hw => ?_,
    fun w => exec_pldmSetPowerCap_refuses hup, becomes_served (Eq.refl (execPldmFruRead s)) rfl hup rfl, exec_pldmShutdown_stops hup,
    fun sid kind unit a y hy hdone howner ha => exec_overlayOverride_overrides hup kind unit hy hdone howner ha,
    fun first n => exec_pldmLogRead_answers hup first, fun off hreg hblock => ?_, fun hst => ⟨fun m => exec_fwUpdateComponent_sliceMap hup hst,
    fun f => exec_fwUpdateComponent_firmware hup hst⟩, becomes_served (Eq.refl (execSmbusTimeout s)) rfl hup rfl,
    fun port w bad hport hrun hdie hbad => ?_⟩
  · exact becomes_served (Eq.refl (execPldmGetSensorReading id s)) rfl hup (if_pos hid)
  · exact becomes_served (Eq.refl (execPldmSetPowerCap w s)) rfl hup (if_pos hw)
  · exact becomes_served (Eq.refl (execGlbRead off s)) rfl hup (if_pos ⟨hreg, hblock⟩)
  · exact becomes_onDev (Eq.refl (execPcieLinkUp port w bad s)) (decide_eq_true hport) (if_pos ⟨hrun, hdie, hbad⟩)

/-! ### The brake (R423) -/

/-- A running device whose C-die 2 is very hot, its PWR_RAILS not shown yet. -/
def hotDie2 : Dev := { regs := [(PWR_RAILS, 0)], pwr := { seq := .u6, veryHot := [2] } }

/-- The cores of partition 16,369 on C-die 2, if there were such a partition, would stand in PWR_RAILS. -/
theorem plcPartCores_eq_pwrRails : PLC_PART_CORES 16369 2 = PWR_RAILS := rfl

/-- Showing the rails makes PWR_RAILS other than 0, which `heatHolds` of partition number 16,369 reads as cores on the hot die. -/
theorem brake_changes_e12Held : hotDie2.e12Held 16369 = false ∧
    (({ hotDie2 with pins := { hotDie2.pins with pwrBrake := false } } : Dev).showRails).e12Held 16369 = true := by
  decide +kernel

theorem exec_pwrBrakeAssert (s : State) :
    Becomes .pwrBrakeAssert s (({ s.dev with pins := { s.dev.pins with pwrBrake := false } } : Dev).showRails) :=
  becomes_onDev (Eq.refl (execPwrBrakeAssert s)) rfl rfl

/-- Refutes O54: it claims that no E12 hold changes for partition numbers without a bound, and number 16,369 reads its cores in PWR_RAILS, which
the brake changes. Partitions are numbered 0–7, so no partition of the module is concerned. -/
theorem not_theBrakeHoldsRailsAtTheFloor : ¬ Obligations.TheBrakeHoldsRailsAtTheFloor := by
  intro h
  obtain ⟨hbrake, -⟩ := h
  obtain ⟨t, hexec, -, -, hheld, -⟩ := hbrake { State.reset with dev := hotDie2 }
  obtain ⟨hbefore, hafter⟩ := brake_changes_e12Held
  cases (exec_pwrBrakeAssert { State.reset with dev := hotDie2 }).symm.trans hexec
  exact Bool.false_ne_true (hbefore.symm.trans ((hheld 16369).1.symm.trans hafter))

end Sys2Proof.Machine
end

section
/-! SUPPORT and CERTIFICATES. 15_ledger_faults_selftest.md: the ledger's opcodes and events (R389, R397, R399–R401, R406, R412). -/

namespace Sys2Proof.Machine

/-! ### Deltas (R389) -/

/-- A delta leaves the records in flight, and is held there again while its step is still running. -/
theorem deltaArrives_eq (d : Dev) (r : Delta) : d.deltaArrives r =
    let t : Dev := { d with ldg := { d.ldg with flying := d.ldg.flying.erase r } }
    if r.step > (d.stepP r.part).number.toNat then { d with ldg := { d.ldg with flying := d.ldg.flying.erase r ++ [r] } }
    else t.applyDelta r := by
  simp only [Dev.deltaArrives, decide_eq_true_eq]
  rfl

/-! ### OVERLAY_READ, PART_RESET (R397, R406) -/

theorem exec_overlayRead_writes {s : State} {n : Nat} {x : Desc} {k : Nat} {e : DescEntry} (hn : n < 4096)
    (h : s.dev.Ready 0xB3 n x k e) (hmin : 1 ≤ fieldAt x 24 4) (hmax : fieldAt x 24 4 ≤ 65536) (hne : s.dev.flash.overlay ≠ []) :
    let es := s.dev.flash.overlay.take (fieldAt x 24 4)
    Becomes (.overlayRead n x) s ((s.dev.emitFor e.part (.hostWrite e.part (BitVec.ofNat 64 (fieldAt x 16 8)) (es.flatMap OverlayEnt.bytes))).ok k
      (BitVec.ofNat 64 es.length) (BitVec.ofNat 32 s.dev.flash.overlay.length)) := by
  obtain ⟨-, -, rfl, -⟩ := ready_facts h
  have hsome : ¬ (s.dev.flash.overlay.take (fieldAt e.d 24 4)).isEmpty = true := by
    rw [List.isEmpty_iff, List.take_eq_nil_iff]
    exact not_or.2 ⟨by omega, hne⟩
  exact op_becomes h (Eq.refl (execOverlayRead n e.d s)) (decide_eq_true hn) (if_neg (by omega)) (by simp only [if_neg hsome, Dev.emitFor_flash])

/-- A partition that is halted, or has no active job, is emptied and idle. -/
theorem doPartReset_empties {d : Dev} (k : Nat) {e : DescEntry} (h : d.phase e.part = 5 ∨ d.activeSlot e.part = none) :
    doPartReset d k e =
      let p := e.part
      let t := (((((d.wipeWork p k).wipeJobs p).wipeSessions p).wipeRegions p).wipeFrames p).rebase p
      (((t.setReg (TOK_BIND p) 0).showDegraded p).setPhase p 6).ok k (BitVec.ofNat 64 (d.sesWhere p fun y => y.st != .free).length)
        (BitVec.ofNat 32 (tkeys d.tier.region fun _ r => r.part == p).length) := by
  have hadmits : ¬ (decide (d.phase e.part ≠ 5) && (d.activeSlot e.part).isSome) = true := by
    obtain h | h := h <;> simp [h]
  exact if_neg hadmits

/-! ### FAULT_INJECT (R412) -/

section

variable {d : Dev} (k : Nat) {e : DescEntry}

/-- An injected ledger offset is a record in flight of amount 1, from the model's place 7 (log 85). -/
theorem doFaultInject_ledger (hkind : fieldAt e.d 16 1 = 1) :
    doFaultInject d k e =
      let key := fieldAt e.d 20 4
      let p := ((tget d.ldg.inst key).bind fun l => l.part).getD d.lead
      let r : Delta := { cls := key / 0x1000000, inst := key % 0x1000000, fromP := 7, toP := fieldAt e.d 17 1, amount := 1,
                         step := (d.stepP p).number.toNat, part := p }
      let t : Dev := { d with ldg := { d.ldg with flying := d.ldg.flying ++ [r] } }
      ((t.setF LDG_GUARANTEE_INJECTED 1).showGuarantee).ok k 0 0 := by
  simp only [doFaultInject, hkind]

/-- An injected error that is corrected is counted as one (log 83). -/
theorem doFaultInject_corrected (hkind : fieldAt e.d 16 1 = 2) :
    doFaultInject d k e =
      (((d.eccCorrected (BitVec.ofNat 64 (fieldAt e.d 24 8)).toNat).setF LDG_GUARANTEE_INJECTED 1).showGuarantee).ok k 0 0 := by
  simp only [doFaultInject, hkind]

/-- An injected CRC error waits at its port for the next flit. -/
theorem doFaultInject_crc (hkind : fieldAt e.d 16 1 = 4) :
    doFaultInject d k e =
      let port := (BitVec.ofNat 64 (fieldAt e.d 24 8)).toNat
      let t : Dev := { d with ldg := { d.ldg with crcPorts := port :: d.ldg.crcPorts.filter (· != port) } }
      ((t.setF LDG_GUARANTEE_INJECTED 1).showGuarantee).ok k 0 0 := by
  simp only [doFaultInject, hkind]

end

/-- Settles O48: each opcode's checks pass, and each row's effect is the clause's. DETAIL and PHASE of LOG_READ (log 79), the counting of ECC
errors (log 83) and the place of an injected offset (log 85) are the model's. -/
theorem ledgerCommandsTakeEffect : Obligations.LedgerCommandsTakeEffect := by
  intro s n x k e hn d
  have hwf := decide_eq_true hn
  refine ⟨fun r => ⟨fun hrunning => ?_, fun hover => ?_⟩, fun h haddr hmin hmax => ?_, exec_overlayRead_writes hn, fun h hidle => ?_,
    fun h hchk => ⟨fun hkind => ?_, fun hkind => ?_, fun hkind => ?_⟩, fun frame line => ⟨?_, ?_, ?_⟩, fun frame hworn => ?_⟩
  · exact becomes_onDev (Eq.refl (execLedgerDelta r s)) rfl ((deltaArrives_eq s.dev r).trans (if_pos hrunning))
  · exact becomes_onDev (Eq.refl (execLedgerDelta r s)) rfl ((deltaArrives_eq s.dev r).trans (if_neg (Nat.not_lt.2 hover)))
  · obtain ⟨-, -, rfl, -⟩ := ready_facts h
    exact op_becomes h (Eq.refl (execLogRead n e.d s)) hwf (if_neg (by omega)) rfl
  · obtain ⟨-, -, rfl, -⟩ := ready_facts h
    exact exec_onStep (Eq.refl (execPartReset n e.d s)) hwf ((runOp_act h rfl).trans (doPartReset_empties k hidle))
  · obtain ⟨-, -, rfl, -⟩ := ready_facts h
    exact op_becomes h (Eq.refl (execFaultInject n e.d s)) hwf hchk (doFaultInject_corrected k hkind)
  · obtain ⟨-, -, rfl, -⟩ := ready_facts h
    exact op_becomes h (Eq.refl (execFaultInject n e.d s)) hwf hchk (doFaultInject_crc k hkind)
  · obtain ⟨-, -, rfl, -⟩ := ready_facts h
    exact op_becomes h (Eq.refl (execFaultInject n e.d s)) hwf hchk (doFaultInject_ledger k hkind)
  · exact exec_onStep (Eq.refl (execPatrolScrubTick (.frame frame line) .corrected s)) rfl rfl
  · exact exec_onStep (Eq.refl (execPatrolScrubTick (.frame frame line) .uncorrectable s)) rfl rfl
  · exact exec_onStep (Eq.refl (execPatrolScrubTick (.frame frame line) .clean s)) rfl rfl
  · exact becomes_onDev (Eq.refl (execFrameRetire frame s)) rfl (if_pos hworn)

end Sys2Proof.Machine
end
